-- ==== Sys2Proof/Word.lean ====
section
/-! DEFINITION. The word types of the BZ6540 and their plainest arithmetic (R4, R90, R164, R258). -/

namespace Sys2Proof

/-- A data word of the bows and of the Shared Store (R258). -/
abbrev Word := BitVec 40
/-- An address register of a bow context (R60). -/
abbrev AWord := BitVec 16
/-- A host-visible register (R4). -/
abbrev Reg32 := BitVec 32
/-- An 80-bit instruction word (R90). -/
abbrev IWord := BitVec 80
/-- One bit position of every PE of the logical 256 × 256 array: bit `y * 256 + x` belongs to PE (x, y) (R1). -/
abbrev Plane := BitVec 65536
/-- A raw 128-byte descriptor, byte `j` in bits [8j+7:8j] (R349). -/
abbrev DescBits := BitVec 1024

/-- Bits [hi:lo] of a natural number. -/
def bitsOf (n hi lo : Nat) : Nat := (n >>> lo) % 2 ^ (hi + 1 - lo)

end Sys2Proof
end

