-- ==== Sys2Proof/Syntax.lean ====
section
/-! DEFINITION. The commands of the block, one constructor per row of the opcode table. The table gives no row any
bits, so a command's operands are the fields the chapters give it; what lies outside the device (a flash image, a
signature's outcome, a measured time, the level of a ball) is an operand of the command that reads it. -/

namespace Sys2Proof

/-- The two hardware contexts of a bow (R60). -/
inductive Ctx | n | u
deriving DecidableEq, Repr

/-- An instruction issued by a context of a bow: every field of R90 but the opcode, which the constructor fixes. The ROM's
words are not given, so what a routine of the ROM does in the middle of an instruction is an operand. -/
structure Issue where
  bow    : Fin 16
  ctx    : Ctx
  cond   : BitVec 4
  width  : BitVec 6
  dst    : BitVec 20
  src1   : BitVec 20
  src2   : BitVec 20
  invert : BitVec 1
  hint   : BitVec 1
  /-- the opcode that stands in the word where it is one that the tables do not assign (R92, R116, R117) -/
  raw    : Option (BitVec 8) := none
  /-- a µPC that the routine executes, for the microcode breakpoints (R439) -/
  upc    : Option (BitVec 13) := none
  /-- µPC, bit counter and loop counter at the yield point of an S routine at which a pending preemption, abort or halt
  finds it (R202) -/
  stop   : Option (BitVec 13 × BitVec 8 × BitVec 8) := none
deriving DecidableEq, Repr

/-- A packet of the network (R244, R245): header fields but TYPE, the payload words, the payload flits that came
with it, and the host address flit of HOST_RD and HOST_WR. -/
structure Packet where
  ddev  : BitVec 3
  dst   : BitVec 12
  sdev  : BitVec 3
  src   : BitVec 12
  tag   : BitVec 8
  words : BitVec 6
  addr  : BitVec 21
  lanes : BitVec 5
  arg   : BitVec 6
  data  : List Word
  flits : Nat
  host  : BitVec 64
deriving DecidableEq, Repr

/-- What the other port of a bank does to the same word in the same nc (R267 to R269). -/
inductive Meet
  | none
  | read
  | write (lanes : BitVec 5) (data : Word)
  /-- an atomic operation, with the word that it writes -/
  | atomic (result : Word)
deriving DecidableEq, Repr

/-- An operand of a command that accesses the store, with what the D port does in the same nc to the words, by their
addresses, that the command touches. -/
structure Met (α : Type) where
  val   : α
  meets : List (Nat × Meet) := []
deriving DecidableEq, Repr

/-- A flit as it arrives, and the flits sent after it that come again with it (R246). -/
structure Replay where
  flit   : BitVec 88
  resent : Nat
deriving DecidableEq, Repr

/-- A descriptor accepted by a ring engine: the submission ring and the 128 bytes (R349); `startup` marks one of the
STARTUP component, which came from no ring (R378). -/
structure Desc where
  ring    : BitVec 6
  bytes   : DescBits
  startup : Bool
deriving DecidableEq, Repr

/-- One D-port access (R265): the connection, the 21-bit ADDR, LANES, WDATA, and what the N port does to the word. Each row
stands for its own OP; `op7` says that the logic drives the reserved OP 7 in its place.
[log entry 159: DESIGN CHOICE] -/
structure DAccess where
  op7   : Bool
  port  : Fin 4
  addr  : BitVec 21
  lanes : BitVec 5
  wdata : Word
  meet  : Meet
deriving DecidableEq, Repr

/-- A patch image with its body decrypted and the outcome of its two authentications (R209, R210). -/
structure PatchImage where
  header  : BitVec 1280
  sigOk   : Bool
  gcmOk   : Bool
  body    : List (BitVec 8)
deriving DecidableEq, Repr

/-! ### Fabric configurations

What the payload bits of a frame mean is the toolchain's (R298): an image comes with the configuration that its frames
hold. [log entry 20: DESIGN CHOICE] -/

/-- Outputs of a logic cell (R281 to R283). -/
inductive CellOut | z6 | zl | zh | sum | co | qa | qb
deriving DecidableEq, Repr

/-- Where a fabric input comes from once the routing multiplexers are set (R285). Cells, block-RAM ports and balls are
numbered over the four quadrants: cell 5,120 q + 64 c + r, port 32 q + 2 m (A) or + 1 (B), ball FIOn; boundary wire
512 d + i of direction d. -/
inductive Net
  | const (v : Bool)
  | cell (c : Nat) (o : CellOut)
  | bram (port : Nat) (bit : Nat)
  | boundary (w : Nat)
  /-- EV0 to EV15 and ET_MATCH0 to 15 as a quadrant sees them (R296) -/
  | tap (q : Fin 4) (i : Nat)
  | phv (q : Fin 4) (bit : Nat)
  /-- the result of a D port: RVALID, RDATA, STATUS, BUSY from bit 0 on (R265) -/
  | dport (q : Fin 4) (bit : Nat)
  /-- DRV_OUT of a drive lane (R295) -/
  | lane (l : Fin 32) (bit : Nat)
  /-- an input ball, or a bit of its input register (R291) -/
  | pad (n : Fin 64) (bit : Nat)
  /-- what a network port presents (R292): the next flit of the request receive buffer, its HEAD and whether there is one in
  bits 0 to 81, those of the response receive buffer in bits 82 to 163, and whether the transmit buffer has room in bit 164 -/
  | port (f : Fin 4) (bit : Nat)
deriving DecidableEq, Repr

/-- Reset source of a flip-flop (R283). -/
inductive ResetFrom
  | none
  | tree (t : Fin 2) (async : Bool)
  | wire (n : Net) (async : Bool)
deriving DecidableEq, Repr

/-- A flip-flop (R283): D input (0 Z6 or ZH, 1 ZL or CO, 2 SUM, 3 bypass), bypass wire, INITQ and reset source. -/
structure FfConf where
  d      : BitVec 2
  bypass : Net
  init   : Bool
  reset  : ResetFrom
deriving DecidableEq, Repr

/-- A logic cell (R281 to R283); the carry input is that of row 0. -/
structure CellConf where
  tt      : BitVec 64
  inputs  : Vector Net 6
  carry   : Bool
  carryIn : Net
  clock   : Fin 4
  enable  : Net
  a       : FfConf
  b       : FfConf
deriving DecidableEq, Repr

/-- A block-RAM port (R286): clock, aspect (0 width 40, 1 20, 2 10, 3 5), address and data bits from bit 0 on, write and
lane enables, output register. -/
structure PortConf where
  clock  : Fin 4
  aspect : BitVec 2
  addr   : List Net
  data   : List Net
  write  : Net
  lanes  : Vector Net 5
  outReg : Bool
deriving DecidableEq, Repr

/-- A block RAM: its ports and the words of its initial contents that are not 0. -/
structure BramConf where
  a    : PortConf
  b    : PortConf
  init : List (Nat × BitVec 40)
deriving DecidableEq, Repr

/-- I/O register of a ball (R291). -/
inductive IoReg
  | none
  | sdr
  | ddr
  /-- ratio 2, 4 or 8 for 0, 1 or 2 -/
  | serdes (ratio : Fin 3)
deriving DecidableEq, Repr

/-- Pull of a ball (R291). -/
inductive Pull | none | up | down | keeper
deriving DecidableEq, Repr

/-- What a ball is (R290): LVCMOS of a standard, coded as in FAB_BANK_VIO, or the P side of an LVDS pair, whose N side goes
with it, with or without the internal termination. -/
inductive BallKind
  | lvcmos (vio : BitVec 2)
  | lvds (terminated : Bool)
deriving DecidableEq, Repr

/-- A ball that an image uses (R290, R291): its kind, drive strength (4, 8, 12 or 16 mA for 0 to 3), slew, pull, input delay in
taps, I/O register, its GCLK, the bits that it sends out in a period of it, first bit first, and its output enable. -/
structure BallConf where
  kind     : BallKind
  strength : BitVec 2
  fast     : Bool
  pull     : Pull
  delay    : BitVec 5
  ioReg    : IoReg
  clock    : Fin 4
  output   : List Net
  enable   : Net
deriving DecidableEq, Repr

/-- A boundary wire that an image drives, and the clock on whose edge its latch opens (R285, R302). -/
structure BoundaryConf where
  wire   : Nat
  driver : Net
  clock  : Fin 4
deriving DecidableEq, Repr

/-- What the logic presents to its network port (R292): the port's clock, the bits of a flit to transmit from bit 0 on, its
HEAD and whether there is one, and the ready signals of the request and the response receive buffer. -/
structure PortNets where
  clock     : Fin 4
  data      : List Net
  head      : Net
  valid     : Net
  reqReady  : Net
  respReady : Net
deriving DecidableEq, Repr

/-- The configuration of a quadrant: cells (64 c + r), block RAMs and balls (0 to 15) that it uses, tree gates, boundary
wires, TBSYNC clock, drivers of the timebase's inputs (PH_A 0 to 7, PH_B 8 to 15, PH_Z 16 to 23, ET_IN 24 to 39) and
PHV_SEL (R289, R296); what it presents to its network port, where it uses it, and the clocks of its D port and of its Guard
lanes. -/
structure QuadConf where
  cells    : List (Nat × CellConf)
  brams    : List (Nat × BramConf)
  balls    : List (Nat × BallConf)
  gates    : BitVec 4
  boundary : List BoundaryConf
  tbsync   : Fin 4
  taps     : List (Nat × Net)
  phvSel   : Vector Net 4
  port     : Option PortNets := none
  dclock   : Fin 4 := 0
  lclock   : Fin 4 := 0
deriving DecidableEq, Repr

/-- Source of a global clock tree (R288). -/
inductive TreeSource
  | none
  /-- output n of the fabric PLL -/
  | pll (n : Fin 4)
  /-- the timebase clock ÷ N -/
  | timebase (n : Nat)
  /-- ball FIO(16f), or the LVDS pair that it begins -/
  | input (f : Fin 4) (lvds : Bool)
deriving DecidableEq, Repr

/-- Source of a global reset tree (R289). -/
inductive ResetSource
  | none
  | wire (q : Fin 4) (n : Net)
  /-- ball FIO(16f) -/
  | input (f : Fin 4)
deriving DecidableEq, Repr

/-- A GLOBAL frame: its bytes as a number, the sources of the clock trees, of each reset tree the source and the release
clock, and M, D and the dividers On of the fabric PLL (R288, R289). -/
structure GlobalConf where
  bytes  : Nat
  trees  : Vector TreeSource 4
  resets : Vector (ResetSource × Fin 4) 2
  pllM   : Nat := 8
  pllD   : Nat := 1
  pllO   : Vector Nat 4 := Vector.replicate 4 2
deriving DecidableEq, Repr

/-- A quadrant that uses nothing. -/
def QuadConf.blank : QuadConf :=
  { cells := [], brams := [], balls := [], gates := 0, boundary := [], tbsync := 0, taps := [],
    phvSel := Vector.replicate 4 (.const false) }

/-- Before any GLOBAL frame is in force. -/
def GlobalConf.blank : GlobalConf := { bytes := 0, trees := Vector.replicate 4 .none, resets := Vector.replicate 2 (.none, 0) }

/-- A frame of a fabric image as read (R298). -/
structure FabFrame where
  fsync   : BitVec 32
  faddr   : BitVec 32
  flen    : BitVec 16
  fflags  : BitVec 16
  payload : BitVec 2048
  fcrc    : BitVec 32
deriving DecidableEq, Repr

/-- A fabric image as the loader reads it: the envelope of R297, whether the signature and the body's digest and tag verify,
the frames of the decrypted body, and what the payload bits mean, which the Oamir toolchain holds (R298): the first frame
with a reserved bit set, the sources of the GLOBAL frame, and the configuration of the quadrants of SCOPE. -/
structure FabImage where
  envelope : BitVec 2048
  sigOk    : Bool
  digestOk : Bool
  frames   : List FabFrame
  reserved : Option (BitVec 13)
  global   : GlobalConf
  quads    : Vector QuadConf 4
deriving DecidableEq, Repr

/-- What a boot attempt or SLOT_VERIFY reads from a slot (R371, R372): the manifest, the components, and the outcomes of
the checks of R373 that need a key or a hash. -/
structure SlotRead where
  manifest  : BitVec 8192
  sigOk     : Bool
  /-- order 5: the component whose HASH fails -/
  hashFault : Option (BitVec 4)
  fabric    : FabImage
  patch     : Option PatchImage
  /-- the instructions of RUNTIME, the words of each PRELOAD in component order, and the descriptors of STARTUP -/
  runtime   : List IWord
  preload   : List (List Word)
  startup   : List DescBits
  /-- S6 ends without a failure; domains and the ring oscillator counts that it records as their baselines -/
  calibrateOk : Bool
  baselines   : List (Fin 96 × BitVec 16)
  /-- S7 ends without a failure -/
  clearOk     : Bool := true
  /-- the second pass over the fabric image (R304, R374): OK, AUTH_FAIL or ECC_UNCORRECTED -/
  applyStatus : BitVec 8 := 0
  /-- what the flash probe of S2 found: single SPI (R369), where the attempt probes the flash -/
  fallback    : Option Bool := none
  /-- the bytes of FIRMWARE and CALDATA -/
  firmware    : List (BitVec 8) := []
  caldata     : List (BitVec 8) := []
  /-- the supplies of the I/O banks that the monitor hub measures, as FAB_BANK_VIO shows them (R290) -/
  banks       : BitVec 8 := 0
deriving DecidableEq, Repr

/-- A requester and the request that a fabric port answers (R293): SRC and SDEV. -/
structure Requester where
  src  : BitVec 12
  sdev : BitVec 3 := 0
deriving DecidableEq, Repr

/-- An admin command with the bytes that a read of host memory at its SRC and ADDR gives (R380). -/
structure Sourced where
  desc  : Desc
  bytes : List (BitVec 8) := []
deriving DecidableEq, Repr

/-- The result of the test of a leased store block (R278): a fault was found, and the margin. -/
structure BlockTest where
  fault  : Bool
  margin : BitVec 8 := 0
deriving DecidableEq, Repr

/-- Tamper sources (R389). -/
inductive TamperSource | pin | supply | clock | temperature | debug
deriving DecidableEq, Repr

/-- Rows of the fault table of R419. -/
inductive FaultRow | link | thermal | domain | group | ecc | lfClock | watchdog
deriving DecidableEq, Repr

/-- Wake sources (R400). -/
inductive WakeSource | sched | hifWake | perst | lfFail | tamper
deriving DecidableEq, Repr

/-- How a descriptor fetch fails (R365). -/
inductive FetchFail | timeout | unsupported | poisoned
deriving DecidableEq, Repr

/-- The spaces of the PCI Express function that a host write names (R336, R338). -/
inductive HostSpace | bar0 | bar2 | config
deriving DecidableEq, Repr

/-- Where a host write goes: byte offset, space, and whether its data is poisoned (R339, R365). -/
structure HostPlace where
  offset   : BitVec 20
  space    : HostSpace := .bar0
  poisoned : Bool := false
deriving DecidableEq, Repr

/-- The three kinds of ring (R344). -/
inductive RingKind | sq | cq | st
deriving DecidableEq, Repr

/-- The 40-bit timer values that are written in two halves (R315). -/
inductive TimerReg | period | cmp | safe
deriving DecidableEq, Repr

/-- What the monitors of a domain show in one sample (R404): the slacks of the four path-delay monitors in 0.25 % units of
the clock period, °C + 64, mV, the two ring oscillators' cycles per µs, and for a fabric quadrant the supply of its I/O bank as
FAB_BANK_VIO shows it (R290). -/
structure Sample where
  domain : Fin 96
  slacks : Vector (BitVec 8) 4
  temp   : BitVec 8
  supply : BitVec 12
  ros    : Vector (BitVec 16) 2
  vio    : BitVec 2 := 0
deriving DecidableEq, Repr

/-- The commands. Bow instructions carry an `Issue`; descriptor commands a `Desc`; packets a `Packet`. -/
inductive Instr
  -- array integer and logic (R122)
  | add (x : Issue) | adc (x : Issue) | sub (x : Issue) | sbc (x : Issue) | neg (x : Issue) | abs (x : Issue)
  | addss (x : Issue) | addus (x : Issue) | subss (x : Issue) | subus (x : Issue)
  | min (x : Issue) | max (x : Issue) | minu (x : Issue) | maxu (x : Issue)
  | cmpeq (x : Issue) | cmpne (x : Issue) | cmplt (x : Issue) | cmple (x : Issue) | cmpltu (x : Issue) | cmpleu (x : Issue)
  | muli (x : Issue) | muliu (x : Issue) | maci (x : Issue) | divi (x : Issue) | diviu (x : Issue)
  | and (x : Issue) | or (x : Issue) | xor (x : Issue) | andn (x : Issue) | nand (x : Issue) | nor (x : Issue)
  | xnor (x : Issue) | not (x : Issue)
  | shl (x : Issue) | shr (x : Issue) | sar (x : Issue) | rol (x : Issue)
  | ldlar (x : Issue) | stlar (x : Issue) | ldc (x : Issue) | stc (x : Issue) | ldx (x : Issue) | stx (x : Issue)
  -- array FP40 (R131)
  | fadd (x : Issue) | fsub (x : Issue) | fmul (x : Issue) | fdiv (x : Issue) | fsqrt (x : Issue) | macf (x : Issue)
  | fneg (x : Issue) | fabs (x : Issue) | fmin (x : Issue) | fmax (x : Issue)
  | fcmpeq (x : Issue) | fcmplt (x : Issue) | fcmple (x : Issue) | fcmpun (x : Issue)
  | icvtf (x : Issue) | ucvtf (x : Issue) | fcvti (x : Issue) | fcvtu (x : Issue)
  | f32cvt (x : Issue) | fcvt32 (x : Issue) | f64cvt (x : Issue) | fcvt64 (x : Issue) | frint (x : Issue)
  -- movement, communication and reduction (R137)
  | move (x : Issue) | sext (x : Issue) | zext (x : Issue) | getg (x : Issue) | testg (x : Issue) | getpe (x : Issue)
  | getcount (x : Issue) | getsum (x : Issue) | getsums (x : Issue) | stkor (x : Issue) | stkclr (x : Issue)
  -- scalar (R143)
  | sadd (x : Issue) | sadc (x : Issue) | ssub (x : Issue) | ssbc (x : Issue) | sneg (x : Issue) | scmp (x : Issue)
  | sand (x : Issue) | sor (x : Issue) | sxor (x : Issue) | sandn (x : Issue) | snot (x : Issue) | stst (x : Issue)
  | sshl (x : Issue) | sshr (x : Issue) | ssar (x : Issue) | srol (x : Issue)
  | smul (x : Issue) | smulh (x : Issue) | smulhu (x : Issue)
  | sdiv (x : Issue) | sdivu (x : Issue) | srem (x : Issue) | sremu (x : Issue) | macs (x : Issue)
  | sfadd (x : Issue) | sfsub (x : Issue) | sfmul (x : Issue) | sfdiv (x : Issue) | sfsqrt (x : Issue) | sfcmp (x : Issue)
  | sfmin (x : Issue) | sfmax (x : Issue) | macsf (x : Issue) | sfneg (x : Issue) | sfabs (x : Issue)
  | sfcvti (x : Issue) | sicvtf (x : Issue)
  | smov (x : Issue) | smovz (x : Issue) | sins (x : Issue) | push (x : Issue) | pop (x : Issue)
  | amov (x : Issue) | aadd (x : Issue) | acmp (x : Issue) | a2s (x : Issue) | s2a (x : Issue)
  -- control flow (R150)
  | br (x : Issue) | brr (x : Issue) | call (x : Issue) | callr (x : Issue) | ret (x : Issue) | loop (x : Issue)
  | nop (x : Issue)
  /-- REP, with the instruction word that follows it in the image (R105, R108) -/
  | rep (x : Issue) (following : IWord)
  | yield (x : Issue) | trap (x : Issue) | rett (x : Issue)
  -- system (R154)
  | endk (x : Issue) | getctl (x : Issue) | setctl (x : Issue) | gettw (x : Issue) | sync (x : Issue)
  | sld (x : Issue) | sst (x : Issue) | xfadd (x : Issue) | xswap (x : Issue) | xradv (x : Issue)
  | prd (x : Issue) | pwr (x : Issue) | waitph (x : Issue) | brk (x : Issue)
  -- bow events
  /-- G reaches BF.G (R223): undo-log entries taken by a routine in progress, ac waited for G without prediction -/
  | gDelivery (bow : Fin 16) (ctx : Ctx) (extra : Nat) (waited : Nat)
  | getxDelivery (bow : Fin 16) (ctx : Ctx)
  /-- a line that the bow requested arrives: image, line number, and which of its words the D port reads,
  writes or changes by an atomic operation in the nc in which they are read (R64) -/
  | istoreLineFill (bow : Fin 16) (image : BitVec 21) (line : BitVec 10) (reads : List Nat)
      (writes : List (Nat × BitVec 5 × Word)) (atomics : List (Nat × Word))
  /-- a waiting urgent launch enters U, with the ac it waited (R72, R89) -/
  | preemption (bow : Fin 16) (ac : Nat)
  | urgentLaunch (d : Desc)
  | kernelStart (bow : Fin 16)
  | kernelCompletion (bow : Fin 16) (ctx : Ctx)
  | deadlineExpiry (bow : Fin 16)
  | stealAttempt (bow : Fin 16)
  | moverSteal (mover : Fin 8)
  | bowPowerDown (bow : Fin 16)
  | bowPowerUp (bow : Fin 16)
  | clockStep (bow : Fin 16) (clock : BitVec 5)
  -- course
  /-- a write of CRS_CP_CTRL with START = 1; `src` and `tag` name the requester to acknowledge, if any (R51) -/
  | cpStart (course : Fin 64) (ch : Fin 4) (value : Reg32) (ack : Option (BitVec 12 × BitVec 8))
  | cpAbort (course : Fin 64) (ch : Fin 4) (value : Reg32) (ack : Option (BitVec 12 × BitVec 8))
  | cpPush (p : Packet)
  | cpPlaneWrite (course : Fin 64) (ch : Fin 4)
  | cpCompletion (course : Fin 64) (ch : Fin 4)
  | scrubPlane (course : Fin 64)
  | scrubFastRequest (course : Fin 64)
  | eccWriteback (course : Fin 64)
  | hwMemoryClear (course : Fin 64)
  -- network and store packets; `meets` lists the words a D-port access meets in the same nc
  | rd (p : Packet) (meets : List (Nat × Meet))
  | wr (p : Packet) (meets : List (Nat × Meet))
  | fetchAdd (p : Packet) (meet : Meet)
  | swap (p : Packet) (meet : Meet)
  | ringAdvance (p : Packet)
  | regRd (p : Packet)
  | regWr (p : Packet)
  /-- host memory read: the words the host returns, or none where its completion fails (R245, R365) -/
  | hostRd (p : Packet) (reply : Option (List Word))
  | hostWr (p : Packet)
  | notify (p : Packet)
  | marker (p : Packet)
  /-- a response, with the nc since its request (R257) -/
  | resp (p : Packet) (nc : Nat)
  -- D port (R265)
  | dpRead (a : DAccess) | dpWrite (a : DAccess) | dpFetchAdd (a : DAccess) | dpSwap (a : DAccess)
  | dpRingAdvance (a : DAccess) | dpWread (a : DAccess) | dpWwrite (a : DAccess)
  -- network events
  | flitEccError (router : Fin 36) (link : Fin 4) (replay : Replay)
  | linkFailed (router : Fin 36) (link : Fin 4)
  | identityMove (course : Fin 64) (dest : Fin 68)
  | domainClose (d : Fin 96)
  | closeTimeout (d : Fin 96)
  | niOpen (node : Fin 36) (port : Fin 4)
  | nocReconfig (d : Desc)
  | reconfigApply
  | reconfigTimeout
  -- store events
  | storeScrub
  | storeScrubFast
  | storeClear
  | windowEnable (w : Fin 16) (value : Reg32)
  | storeLeaseStart (block : BitVec 9)
  | storeLeaseCopyDone
  | storeLeaseTestDone (result : BlockTest)
  | storeLeaseRestoreDone
  -- fabric
  | fabLoad (d : Desc) (img : FabImage)
  /-- the apply pass ends: the status of the second pass (R304) -/
  | fabApplyDone (status : BitVec 8)
  | fabStart (d : Desc)
  | fabSafeSet (d : Desc)
  | fabSnap (d : Desc)
  | fabSnapCapture
  | fabSnapReadbackDone
  | fpResponseTimeout (port : Fin 4) (src : Requester) (tag : BitVec 8)
  -- Guard samples
  | driveSample (lane : Fin 32) (x : Word)
  | abortSample (ch : Fin 16) (x : Word)
  | guardWindowRead (ch : Met (Fin 16))
  | guardStale (ch : Fin 16)
  -- timebase
  | tbPllLock
  | lfClockFail
  | ppsEdge (falling : Bool)
  | ppsMissing
  /-- the sampled levels of A and B of a reference change to these (R317) -/
  | phrefEdge (n : Fin 8) (a b : Bool)
  | phrefZEdge (n : Fin 8)
  | phrefStall (n : Fin 8)
  | phrefModeWrite (n : Fin 8) (value : Reg32)
  | tbSchedArm (d : Desc)
  | tbSchedCancel (d : Desc)
  | schedFire
  | evPulseEnd (line : Fin 16)
  | etTick (t : Fin 16)
  | etCommit (t : Fin 16) (reg : TimerReg) (hi : Reg32)
  | etCaptureRise (t : Fin 16)
  | etCaptureFall (t : Fin 16)
  | etLfStep (t : Fin 16)
  -- host interface
  | functionLevelReset
  | perstNReset
  | hifWake (value : Reg32)
  /-- a poll of a doorbell word: the value read (none where the read fails) and the entries fetched from CI (R345) -/
  | doorbellPoll (ring : BitVec 6) (pi : Option (BitVec 32)) (entries : List DescBits)
  | descriptorFetchFail (ring : BitVec 6) (why : FetchFail)
  | ringEnable (kind : RingKind) (n : BitVec 6) (value : Reg32)
  | setupLock
  | kernel (d : Desc)
  | copy (d : Desc)
  | regRead (d : Desc)
  | regWrite (d : Desc)
  /-- a mover's transfer ends: its status and the words moved, with the words read where they land in the store -/
  | moverTransferDone (mover : Fin 8) (status : BitVec 8) (moved : Nat) (data : Met (List Word))
  | capoAssign (d : Desc) | capoRelease (d : Desc) | capoClock (d : Desc)
  | abort (d : Desc)
  | setupUnlock (d : Desc)
  | patchLoad (d : Desc) (img : PatchImage)
  | patchSwap (bow : Fin 16)
  | patchLoadTimeout
  | streamStart (d : Desc) | streamStop (d : Desc)
  /-- a record is due on a stream ring; the consumer count word read from host memory (R357, R358) -/
  | streamRecord (ring : Fin 32) (consumer : Met (Option (BitVec 32)))
  | completionWrite (cq : BitVec 6) (consumer : Option (BitVec 32))
  | irqModTimer (stream : Bool) (ring : BitVec 6)
  -- configuration and security
  | startOutputs (d : Desc)
  | revert (d : Desc)
  | restart (d : Desc) (attempts : List SlotRead)
  | slotErase (d : Desc) | slotWrite (d : Desc)
  | slotVerify (d : Desc) (img : SlotRead)
  | slotActivate (d : Desc)
  | rollbackCommit (d : Desc)
  | bootPolicy (d : Desc)
  | ownerKeySet (d : Sourced)
  | lifecycle (d : Desc) (sigOk : Bool)
  | tamperCfg (d : Desc)
  /-- TAMPER_CLEAR, with the sources still detected and whether the owner signature verifies (R392) -/
  | tamperClear (d : Desc) (detected : BitVec 5) (sigOk : Bool)
  /-- boot: what each attempt reads, whether the flash stays in single SPI, and the µs from POR_N to READY -/
  | porRelease (attempts : List SlotRead) (fallback : Bool) (us : BitVec 20)
  | reset
  | tamperDetect (src : TamperSource)
  /-- with what the boot attempts of the RESTART that ends a LIFECYCLE read (R387) -/
  | eraseEnd (attempts : List SlotRead)
  -- modes and continuity
  /-- MODE_SET, with whether the host has placed the function in D3hot (R400) -/
  | modeSet (d : Desc) (d3hot : Bool)
  | wake (src : WakeSource) (reads : List SlotRead)
  | sentinelExit (d : Desc) (img : SlotRead)
  | domainPowerDown (d : Fin 96)
  | monitorSample (x : Sample)
  | servicePolicy (d : Desc)
  | migrate (d : Desc)
  | migrationSwap
  /-- a course lease: an idle spare or a free logical course's physical course (R410) -/
  | courseLease (p : Fin 68)
  | testResult (p : Fin 68) (pass : Bool) (margin : BitVec 8)
  /-- FW_SWITCH, with what the slot read gives and whether the new firmware reports ready in time (R411) -/
  | fwSwitch (d : Desc) (img : SlotRead) (ready : Bool)
  | fwSwitchTimeout
  | guardChannel (d : Desc) | guardLanes (d : Desc) | guardAbort (d : Desc) | guardResume (d : Desc)
  /-- with what the slot read gives where the end of the ramp leads from SENTINEL to HOLD (R398) -/
  | guardRampEnd (img : SlotRead)
  | logbookRead (d : Met Desc)
  | brownoutWarning (rail : BitVec 2)
  | brownoutClear (rail : BitVec 2)
  | launchHoldExpiry
  | brownoutTimeout
  | faultEscalation (row : FaultRow)
  | watchdogExpiry
  | logbookCommit
  | logbookSuppressed (source : BitVec 16) (event : BitVec 16)
  -- peer links
  /-- EXCHANGE reached: the partner's DEVNUM and RING_SIZE, and whether the lanes are reversed (R427) -/
  | peerTrain (link : Fin 2) (devnum : BitVec 3) (ringSize : BitVec 4) (reversed : Bool)
  | peerRetrainTimer (link : Fin 2)
  | peerFrame (link : Fin 2) (f : BitVec 384)
  | peerAckTimer (link : Fin 2)
  | peerLinkFail (link : Fin 2)
  -- JTAG and debug
  | extest | samplePreload | idcode | clamp | highz | extestPulse | extestTrain | bypass
  | dapAccess (op : BitVec 2) (addr : BitVec 18) (data : Reg32)
  /-- a host access to BAR4: byte offset, write data with byte enables, or a read (R436) -/
  | bar4Access (offset : BitVec 26) (write : Met (Option (BitVec 64 × BitVec 8)))
  | dbgHalt (bows : BitVec 16)
  | dbgResume (bows : BitVec 16)
  | dbgStep (bow : Fin 16) (ctx : Ctx)
  /-- a write of DBG_CTXb_LO or, with `hi`, of DBG_CTXb_HI (R440, R442) -/
  | dbgContextWrite (bow : Fin 16) (hi : Bool) (value : Reg32)
  | dbgUnlockCheck (sigOk : Bool)
  | dbgUnlockLock
  /-- a host write of one BAR0 register, with whether all its byte enables are set (R339) -/
  | registerWrite (place : HostPlace) (value : Reg32) (full : Bool)
  | waitphRelease (bow : Fin 16) (ctx : Ctx)
  | lfClockRestored
  | trstNAssert
deriving DecidableEq, Repr

end Sys2Proof
end

