-- ==== Sys2Proof/Config.lean ====
section
/-! DEFINITION. What the spec leaves open: free values (no body, so no proof can see one), each applied to the
counter `State.free` or to the operands it depends on. -/

namespace Sys2Proof

/-- Which of the two values a lane of an undefined read delivers: the data of a read that completes with
UNDEF_READ is "the old word, the new word, or a mixture by lane" (R268, R269). Bit `i` is 1 where lane `i` is new.
[log entry 17: DESIGN CHOICE] -/
opaque Config.undefLanes : Nat → BitVec 5

/-- RDATA of a D-port access to which R265 gives none: a write, or an access that fails.
[log entry 18: DESIGN CHOICE] -/
opaque Config.dpData : Nat → BitVec 40

/-- The nonce that DBG_CHALLENGE shows: it changes at every POR_N, RESTART and check (R435); its values are not given.
[log entry 19: DESIGN CHOICE] -/
opaque Config.nonce : Nat → BitVec 256

/-- Levels of an input ball during a tt, behind its delay taps, as its I/O register would take them: they come from
outside. [log entry 20: DESIGN CHOICE] -/
opaque Config.padLevel : Nat → Nat → Nat → BitVec 8

/-- Rising edges within a tt of a clock tree whose source is not the timebase: PLL and balls have phases of their own.
[log entry 161: DESIGN CHOICE] -/
opaque Config.treeEdges : Nat → Nat → BitVec 2

/-- Edges of two different trees within one tt lie within 1.0 ns of each other (R287).
[log entry 161: DESIGN CHOICE] -/
opaque Config.nearEdges : Nat → Bool

/-- What the D port does in the same nc to the words that the read-back of a snapshot writes, by their addresses: it comes
from outside. [log entry 20: DESIGN CHOICE] -/
opaque Config.snapMeets : Nat → List (Nat × Meet)

/-- What the D ports do to the words that an engine of the device reads or writes in a command without an operand for it: the
lines of an image that is pinned, and what a transfer has moved when it is aborted (R67, R268, R353).
[log entry 180: DESIGN CHOICE] -/
opaque Config.engineMeets : Nat → List (Nat × Meet)

/-- How many of its words or registers a transfer has moved when it is aborted, and words that it read from outside the
device (R353). [log entry 86: DESIGN CHOICE] -/
opaque Config.movedAtAbort : Nat → Nat
opaque Config.abortWord : Nat → Nat → Word

/-- Speed (less 1) and width (0 for one lane, 1 for two, 2 for four) to which the host's link has trained (R336, R366): the
host's side is outside the model. [log entry 128: DESIGN CHOICE] -/
opaque Config.linkSpeed : Fin 4
opaque Config.linkWidth : Fin 3

/-- Whether the fuse burn of a LIFECYCLE command has begun when a detection comes during ERASE (R391).
[log entry 183: DESIGN CHOICE] -/
opaque Config.burnBegun : Nat → Bool

/-- Which bits of a block-RAM read that meets a write are new (R287): "old, new or mixed by lane".
[log entry 20: DESIGN CHOICE] -/
opaque Config.bramMix : Nat → BitVec 40

/-- The value of a signal that depends on itself through no flip-flop. [log entry 20: DESIGN CHOICE] -/
opaque Config.loopNet : Nat → Bool

/-- The serial number in the fuses (R393). [log entry 19: DESIGN CHOICE] -/
opaque Config.deviceUid : Nat → BitVec 64

/-- The added launch latency in ns that a completion with TEST_YIELD reports (R88): only its bound is given.
[log entry 22: DESIGN CHOICE] -/
opaque Config.addedNs : Nat → BitVec 32

/-- Physical courses that lie beside one another on the die (R14): the manual gives no floor plan.
[log entry 116: DESIGN CHOICE] -/
opaque Config.onDieBeside : Nat → Nat → Bool

/-- The level of an input ball or of a fabric-driven signal when it is read (TB_ETIO_STATE): it comes from outside.
[log entry 20: DESIGN CHOICE] -/
opaque Config.ballLevel : Nat → BitVec 8

/-- What a tester shifts into the cells of the boundary register at the FIO balls (R431). [log entry 129: DEDUCED] -/
opaque Config.scanIn : Nat → BitVec 64

/-- The levels of the PHREF balls where a timer takes one as its gate. [log entry 20: DESIGN CHOICE] -/
opaque Config.phrefLevel : Nat → BitVec 8

/-- The trim that the Soundpost firmware computes after a PPS capture (R312): only its purpose and bound are given.
[log entry 21: DESIGN CHOICE] -/
opaque Config.ppsTrim : Nat → BitVec 32

/-- Whether the signature in DBG_RESPONSE verifies for an owner key, a device number and a nonce (R435): the crypto engine's ECDSA and the owner key are
outside the model. [log entry 19: DESIGN CHOICE] -/
opaque Config.responseValid : Option (BitVec 768) → List (BitVec 32) → BitVec 256 → List (BitVec 32) → Bool

/-- Number of lines of an image: pinning loads every line of it (R67), and no descriptor carries its length (R62).
[log entry 23: DESIGN CHOICE] -/
opaque Config.imageLines : BitVec 21 → Nat

/-- Where in its block of the ROM the entry map places the routine of an opcode for the kinds of its two sources (R186,
R205): the map's variants are not given. [log entry 132: DESIGN CHOICE] -/
opaque Config.entryOffset : Nat → Nat → Nat → Nat

/-- The words of the control store ROM (R205), of which the manual gives four. [log entry 132: DESIGN CHOICE] -/
opaque Config.romWord : Nat → BitVec 144

/-- IFLAG of an opcode for which R187 defines none. [log entry 132: DESIGN CHOICE] -/
opaque Config.issueFlag : Nat → Bool

/-- What stands in a patch word that the loaded set does not write (R208). [log entry 132: DESIGN CHOICE] -/
opaque Config.stalePatch : Nat → BitVec 144

/-- Working bits of the microcode that a yield point leaves undefined: O, and the bits that its word had read (R193,
R202). [log entry 132: DESIGN CHOICE] -/
opaque Config.lostBits : Nat → BitVec 65536

end Sys2Proof
end

