-- ==== Sys2Proof/Machine/State.lean ====
section
/-! DEFINITION. The state of the block as plain data, the reasons a step can stop, and the state after reset. -/

namespace Sys2Proof.Machine

/-- A sparse memory: (key, value) pairs with strictly rising keys, none equal to what an unlisted key reads as. -/
abbrev Cells (w : Nat) := List (Nat × BitVec w)

/-- Reasons to stop with a fault: none of the manual's outcomes stops the block. -/
inductive Fault
  /-- No meaning raises it: every error of the manual is a status code, a trap or a Logbook entry (safe). -/
  | none
deriving DecidableEq, Repr

/-- Reasons to refuse a command. -/
inductive Refusal
  /-- The command has no meaning yet; raised by `exec`'s arms only (safe). -/
  | notModelled (mnemonic : String)
deriving DecidableEq, Repr

/-- The twelve operating modes (R20). -/
inductive Mode
  | off | standby | boot | calibrate | hold | idle | run | service | sentinel | halt | sleep | erase
deriving DecidableEq, Repr

/-- A Logbook entry (R421). -/
structure LogEntry where
  epoch  : BitVec 64
  source : BitVec 16
  event  : BitVec 16
  status : BitVec 8
  detail : BitVec 24
deriving DecidableEq, Repr

/-! ### Bows -/

/-- What a context is doing (R89; the trap-handler state of BOW_STATUS is `th` of a running context). -/
inductive Run | idle | running | stalled | preempted | halted
deriving DecidableEq, Repr

/-- REP state (R60, R105): remaining repetitions and the interruptible flag. -/
structure Rep where
  /-- address of the repeated instruction -/
  pc   : BitVec 13
  left : BitVec 16
  intr : Bool
deriving DecidableEq, Repr

/-- A pending GETx delivery (R109): register, value, issue slots left before it, and whether it was issued in the window.
[log entry 35: DEDUCED] -/
structure Delivery where
  reg   : BitVec 4
  value : Word
  left  : Nat
  spec  : Bool
deriving DecidableEq, Repr

/-- What a context does with a response (R156, R157): write a destination operand, or count an acknowledgement. -/
inductive AskKind
  /-- destination operand with its address resolved, and the requesting instruction's address and word -/
  | load (dst : BitVec 20) (pc : BitVec 13) (word : IWord)
  | post
  /-- the fetch of a line of the bow's instruction store (R64): image and line number -/
  | line (base : BitVec 21) (num : BitVec 10)
  /-- its kernel has ended: the response is dropped -/
  | gone
deriving DecidableEq, Repr

/-- A request of a context that is not yet answered, by its packet TAG. -/
structure Ask where
  tag  : BitVec 8
  kind : AskKind
deriving DecidableEq, Repr

/-- A kernel inside the device: its descriptor and what its completion reports (R357). -/
structure Job where
  desc       : Desc
  testYield  : Bool
  patchWait  : Bool
  /-- a LAUNCH that fired late (R324) -/
  late       : Bool
  /-- added latency in ns of a course recall (R88) -/
  added      : BitVec 32
  /-- an ABORT came after the kernel's end and before its completion: the status is LATE_ABORT (R84) -/
  abortLate  : Bool
  /-- the bow in which the kernel's image is pinned for it (R67) -/
  pin        : Option (Fin 16)
deriving DecidableEq, Repr

/-- Why a running context waits although no instruction of its own is at fault. -/
inductive Wait
  /-- WAITPH: selector and target (R158) -/
  | phase (sel : BitVec 4) (target : Word)
  /-- END waits for acknowledgements before the kernel ends (R83, R157) -/
  | ended
deriving DecidableEq, Repr

/-- One visible write of a microcycle: key of `State.pe`, PEs in which it takes place, value, and whether it takes an undo
entry. -/
structure Wr where
  key  : Nat
  mask : Plane
  val  : Plane
  log  : Bool
deriving DecidableEq, Repr

/-- Micro state of a routine stopped at a yield point (R60, R189, R202), whether it has recorded an uncorrectable error
(R201), and, of a routine of the ROM, what its scratch bank will commit: its visible writes and its early-out saving. -/
structure Micro where
  upc  : BitVec 13
  bc   : BitVec 8
  lc   : BitVec 8
  bad  : Bool
  held : Option (List Wr × Option Nat)
deriving DecidableEq, Repr

/-- A hardware context of a bow (R60) and what the chapters add to it. -/
structure Context where
  run        : Run
  pc         : BitVec 13
  s          : Vector Word 16
  a          : Vector AWord 8
  lk         : BitVec 13
  rc         : BitVec 16
  bf         : BitVec 10
  fpctl      : BitVec 4
  stackLo    : BitVec 14
  /-- plane fence and data-memory fence, U only (R75) -/
  plo        : BitVec 14
  phi        : BitVec 14
  dlo        : BitVec 14
  dhi        : BitVec 14
  rep        : Option Rep
  /-- a routine of the instruction at the PC is stopped at a yield point (R202) -/
  micro      : Option Micro
  trapPc     : BitVec 13
  trapWord   : IWord
  trapCause  : BitVec 8
  th         : Bool
  lastStatus : BitVec 8
  /-- first acknowledgement other than OK since the last SYNC (R157) -/
  ackBad     : Option (BitVec 8)
  asks       : List Ask
  nextTag    : BitVec 7
  deliveries : List Delivery
  /-- values captured into BF.G and not yet delivered, oldest first (R104, R195) -/
  gOut       : List Bool
  wait       : Option Wait
  /-- branch histories that are not 0, by slot (R216) -/
  history    : Cells 2
  /-- the next instruction issues without looking at its breakpoint: it runs after a resume or a step -/
  bpSkip     : Bool
  /-- DBG_STEP runs one instruction of this context (R440) -/
  stepping   : Bool
  /-- an ABORT of the kernel waits for the next preemption point (R84) -/
  aborting   : Bool
  prevImage  : Option (BitVec 21)
  job        : Option Job
deriving DecidableEq, Repr

/-- The scalar checkpoint of a speculative window (R218). -/
structure Checkpoint where
  pc      : BitVec 13
  s       : Vector Word 16
  a       : Vector AWord 8
  lk      : BitVec 13
  rc      : BitVec 16
  bf      : BitVec 10
  fpctl   : BitVec 4
  stackLo : BitVec 14
  rep     : Option Rep
  accum   : Word
deriving DecidableEq, Repr

/-- A micro fault (R204): its code (1 to 9) and the µPC. -/
structure MicroFault where
  code : BitVec 5
  upc  : BitVec 13
deriving DecidableEq, Repr

/-- An open speculative window (R218 to R224). -/
structure Window where
  ctx       : Ctx
  ck        : Checkpoint
  /-- captures still to be delivered before the branch's own G, plus that one -/
  need      : Nat
  predicted : Bool
  /-- the branch: address, target, hint, and whether it is taken on G set -/
  brPc      : BitVec 13
  target    : BitVec 13
  hint      : Bool
  onSet     : Bool
  /-- undo entries, newest first: key of `State.pe` and the old plane (R221); LP is the length -/
  undo      : List (Nat × Plane)
  /-- run-ahead issue slots used -/
  slots     : Nat
  /-- run-ahead has stopped and the stop is counted (R219) -/
  stopped   : Bool
  /-- a trap of a run-ahead instruction that is taken if the window closes correctly (R226): its word and cause -/
  latent    : Option (IWord × BitVec 8 × Option MicroFault)
  /-- speculative store buffer, newest first (R220) -/
  sbuf      : List (BitVec 14 × Word)
deriving DecidableEq, Repr

/-- A rectangle of logical courses (R12, R76). -/
structure Rect where
  x0 : BitVec 3
  y0 : BitVec 3
  w  : Nat
  h  : Nat
deriving DecidableEq, Repr

/-- A line of the instruction store (R63): image, line number, mark, pin and words; `ok` false marks it invalid (R65). -/
structure Line where
  base   : BitVec 21
  num    : BitVec 10
  ok     : Bool
  pinned : Bool
  code   : List IWord
deriving DecidableEq, Repr

/-- A patch set (R206, R209, R212). [log entry 140: DEDUCED] -/
structure PatchSet where
  version : BitVec 32
  words   : List (BitVec 144)
  /-- enabled match registers: bits [11:0] ROM address, [19:12] patch index (R209) -/
  entries : List (BitVec 32)
deriving DecidableEq, Repr

/-- A patch word of a bow that holds a bit error (R208): its index, and whether the error is uncorrectable. No command
makes one. -/
structure PatchError where
  index : BitVec 8
  multi : Bool
deriving DecidableEq, Repr

/-- A data-memory word that holds a bit error (R68). No command makes one. -/
structure DmemError where
  addr  : BitVec 14
  multi : Bool
deriving DecidableEq, Repr

/-- A line that a bow has requested and that has not arrived (R64): image, line number, and whether it is the prefetch of
the next line; whether its request has left the bow, under a TAG of context N. -/
structure LineAsk where
  base     : BitVec 21
  num      : BitVec 10
  prefetch : Bool
  sent     : Bool := false
deriving DecidableEq, Repr

/-- A kernel that has ended and whose completion is to be posted (R83). -/
structure Ending where
  ctx   : Ctx
  job   : Job
  bf    : BitVec 10
  /-- cause of the trap in whose handler the kernel ended (R71) -/
  cause : Option (BitVec 8)
deriving DecidableEq, Repr

/-- A bow. -/
structure Bow where
  powered   : Bool
  n         : Context
  u         : Context
  group     : Option Rect
  held      : Bool
  /-- armed for expansion with this rectangle, by the kernel of this descriptor (R87) -/
  armed     : Option (Rect × Desc)
  /-- CAPO_CLOCK setting and running clock, in 50 MHz units (R78) -/
  clockSet  : BitVec 5
  clock     : BitVec 5
  /-- a clock step that is deferred (R78) -/
  clockNext : Option (BitVec 5)
  queue     : List Job
  /-- urgent launches waiting for U (R73) -/
  launches  : List Job
  /-- data memory words that are not 0 (R68), and words with a bit error -/
  dmem      : Cells 40
  dmemErr   : List DmemError
  /-- most recently used first -/
  lines     : List Line
  asked     : List LineAsk
  trapTable : List IWord
  /-- images pinned, once for each kernel that pins them (R67) -/
  pins      : List (BitVec 21)
  patch     : PatchSet
  patchErr  : List PatchError
  /-- an uncorrectable patch word has been met: the next swap rewrites the set (R208) -/
  rewrite   : Bool
  /-- the set that waits for a kernel boundary (R212) -/
  pending   : Option PatchSet
  /-- the bow is held by a swap until this epoch (R212) -/
  swapEnd   : Option (BitVec 64)
  /-- a microcode breakpoint has matched: its index and µPC (R439) -/
  microHit  : Option (BitVec 1 × BitVec 13)
  window    : Option Window
  ended     : List Ending
  /-- the reduction accumulator (R198) -/
  accum     : Word
deriving DecidableEq, Repr

/-! ### Courses -/

/-- State of a physical course (R424). -/
inductive PState | active | spareOn | spareOff | leased | mirror | retest | failed
deriving DecidableEq, Repr

/-- A Course Port channel beside its registers (R46 to R51). -/
structure Chan where
  /-- CRS_CP_STATUS.STATE: 0 idle, 1 moving words, 2 plane phase, 3 READY -/
  st        : BitVec 2
  /-- slot values: filled so far (inbound) or still to send (outbound) -/
  bank      : List Word
  /-- the first well-formed word of a SYNC transfer is still to come (R44) -/
  sync      : Bool
  /-- marks the requests of this transfer, so that a response to an earlier one is dropped -/
  gen       : BitVec 6
  /-- words read so far (FETCH, WINDOW); words of the read in progress, or write acknowledgements still expected -/
  asked     : Nat
  waiting   : Nat
  consumed  : Nat
  /-- planes written or read so far in the plane phase -/
  planes    : Nat
  /-- first status other than OK of the transfer's acknowledgements -/
  bad       : Option (BitVec 8)
  /-- RING_ADVANCE of a WINDOW transfer: 0 not sent, 1 sent, 2 answered -/
  adv       : BitVec 2
  /-- the register write to acknowledge when the status is known (R51) -/
  owner     : Option Packet
deriving DecidableEq, Repr

/-- A logical course (R77). -/
structure CourseSt where
  /-- domain powered and cleared -/
  ready    : Bool
  owner    : Option (Fin 16)
  reserved : Option (Fin 16)
  leased   : Bool
  chans    : Vector Chan 4
  /-- ECC write-back queue: group and plane, at most four (R32) -/
  eccQueue : List (BitVec 4 × BitVec 14)
  /-- planes that a fast scrub pass still has to take, 0 when none is requested (R35) -/
  fastLeft : Nat
deriving DecidableEq, Repr

/-- A plane of a SECDED group of a logical course that holds bit errors (R32, R33). No command makes one. -/
structure PeError where
  course : Fin 64
  group  : BitVec 4
  plane  : BitVec 14
  /-- the stored bits that differ from the plane, over the 64 PEs of the group; more than one: uncorrectable -/
  flip   : BitVec 64
deriving DecidableEq, Repr

/-- A bit of the micro-scratch bank of a context (0 to 127), in a SECDED group of a logical course, that holds bit errors
(R200). No command makes one. -/
structure ScratchError where
  course : Fin 64
  ctx    : Ctx
  group  : BitVec 4
  index  : BitVec 7
  multi  : Bool
deriving DecidableEq, Repr

/-- A migration in progress (R408, R409): the logical course, the mirror, and the MIGRATE command where one began it; the
planes that the present pass still has to copy, the one that has been read and not yet written, with its data, the planes
found dirty, and whether a pass has ended with none. The FROM, TO, STEP and PASS of R424 stand in SVC_MIGRATE. -/
structure Migration where
  logical : Fin 64
  mirror  : Fin 68
  desc    : Option Desc
  next    : Nat
  todo    : List Nat
  read    : Option (Nat × BitVec 65536)
  dirty   : List Nat
  clean   : Bool
deriving DecidableEq, Repr

/-! ### Network and Shared Store -/

/-- How a packet on its way goes. -/
inductive Via
  /-- through the routers to a port of this device, by its TYPE's class -/
  | inside
  /-- a MARKER on the response class (R253) -/
  | second
  /-- through the routers to a peer link, chosen at its source NI (R428) -/
  | over (link : Fin 2)
  /-- not at all: the answer of a source NI to its own client (R255) -/
  | own
deriving DecidableEq, Repr

/-- A packet with its TYPE (R245). -/
structure Sent where
  type : BitVec 4
  pkt  : Packet
  via  : Via := .inside
deriving DecidableEq, Repr

/-- One router on a packet's way (R247): router, input port and VC at which its flits enter, and output port. Ports 0 to 3
are E, W, S and N, 4 to 7 the local ports. -/
structure Hop where
  router : Nat
  inp    : Nat
  vc     : Nat
  out    : Nat
deriving DecidableEq, Repr

/-- A flit of a packet in the network (R243, R248): its data bits, its place on the packet's way (0 in the source NI, k in
the input buffer of router k of the way, beyond the last one once it is ejected), and the nc since which it is there. -/
structure Flit where
  data  : BitVec 80
  place : Nat
  since : Nat
deriving DecidableEq, Repr

/-- A packet on its way through the routers (R244, R247, R248). -/
structure Worm where
  sent  : Sent
  way   : List Hop
  flits : List Flit
deriving DecidableEq, Repr

/-- The routers beside their registers (R246 to R250): the nc, the packets in them, credits to be returned by buffer
(router, input port, VC) and time, by output port the input that it serves and the flits granted to it in a row, incoming
links marked failed, and by link the replays in a row of one flit and the nc until which a replay holds it. -/
structure TorusSt where
  nc      : Nat
  worms   : List Worm
  returns : List ((Nat × Nat × Nat) × Nat)
  turns   : List ((Nat × Nat) × (Nat × Nat))
  failed  : List (Nat × Nat)
  replays : List ((Nat × Nat) × Nat)
  holds   : List ((Nat × Nat) × Nat)
deriving DecidableEq, Repr

/-- A DATA frame that a link has sent (R426), and the packet whose last flit it carries. -/
structure LinkFrame where
  bits : BitVec 384
  done : Option Sent
deriving DecidableEq, Repr

/-- A peer link beside its registers (R426, R430): the sequence number expected and the next one to send, DATA frames
received since the latest ACK, the unacknowledged frames kept for replay, newest first, packets to forward that wait for a
place among them, with whether they have crossed the dateline, and the epochs of the retrains of the past second; by VC the
flits received of a packet that is not complete, the type and number of the latest ACK or NAK sent, and the latest 64
frames sent, replays among them, newest first. [log entries 27: DESIGN CHOICE; 127: DESIGN CHOICE] -/
structure PeerSt where
  expect   : BitVec 12
  next     : BitVec 12
  sinceAck : Nat
  kept     : List LinkFrame
  wait     : List (Sent × Bool)
  retrains : List (BitVec 64)
  part     : Vector (List (BitVec 80)) 4
  reply    : Option (BitVec 4 × BitVec 12)
  line     : List (BitVec 384)
deriving DecidableEq, Repr

/-- A flit in a buffer of a fabric network port: its data, HEAD, and with the last flit of a response the tag of the place
that it frees. -/
structure PortFlit where
  data : BitVec 80
  head : Bool
  done : Option (BitVec 8)
deriving DecidableEq, Repr

/-- A peer link that has sent nothing. -/
def PeerSt.reset : PeerSt :=
  { expect := 0, next := 0, sinceAck := 0, kept := [], wait := [], retrains := [], part := Vector.replicate 4 [], reply := none, line := [] }

/-- A fabric network port (R292, R293): tags of its requests that hold a place, packets in the transmit buffer behind one
that waits for a free place, requests delivered to the fabric logic and not yet answered, and requests answered with
TIMEOUT; flits of a packet that the logic has begun to present, and the request and the response receive buffer. -/
structure FpSt where
  out    : List (BitVec 8)
  queue  : List Sent
  pend   : List Packet
  late   : List Packet
  tx     : List PortFlit
  rxReq  : List PortFlit
  rxResp : List PortFlit
deriving DecidableEq, Repr

/-- A network port before its quadrant runs. -/
def FpSt.reset : FpSt := { out := [], queue := [], pend := [], late := [], tx := [], rxReq := [], rxResp := [] }

/-- A fabric load from VERIFY to START (R302): command, quadrant, START mode, image, and the step: 1 VERIFY, 2 ISOLATE, 3 SAFE,
4 APPLY, 5 START. -/
structure FabLoad where
  desc     : Desc
  quad     : Fin 4
  wait     : Bool
  image    : FabImage
  step     : Nat
deriving DecidableEq, Repr

/-- A snapshot that is armed, whose trigger has come once `fired`, or that is read back once `taken` (R306 to R308), with
the shadow: flip-flops 2 c + b and block-RAM port outputs that are not 0; rising edges of its tree since the trigger, frames
written so far, and the status of the first write that failed. -/
structure Snap where
  desc   : Desc
  fired  : Bool
  taken  : Bool
  ffs    : Cells 1
  outs   : Cells 40
  edges  : Nat := 0
  frames : Nat := 0
  bad    : Option (BitVec 8) := none
deriving DecidableEq, Repr

/-- A block-RAM word that holds bit errors (R286): block, word, and the stored bits that differ, check bits above bit 39.
No command makes one. -/
structure BramError where
  block : Nat
  row   : Nat
  flip  : BitVec 48
deriving DecidableEq, Repr

/-- The fabric beside its registers (R281 to R296). Flip-flops and block-RAM words are kept as their difference from INITQ
and from the image's contents, so that a reset or a load clears them. -/
structure FabSt where
  /-- configuration of each quadrant, and rising edges of its four trees since it started, up to 4 (R302) -/
  quads   : Vector QuadConf 4
  edges   : Vector (Vector Nat 4) 4
  /-- flip-flop QA (b = 0) or QB (b = 1) of cell c under key 2 c + b -/
  ffs     : Cells 1
  /-- word r of block RAM m (16 q + its number) under key 512 m + r -/
  bram    : Cells 40
  bramErr : List BramError
  /-- output of block-RAM port p under key 2 p, and of its output register under key 2 p + 1 -/
  outs    : Cells 40
  /-- boundary isolation latches (R285) -/
  latches : Cells 1
  /-- timebase signals of each quadrant as they were at its isolation, and as the timebase sampled them in the latest 4 tt,
  newest first (R296, R320) -/
  held    : Vector (BitVec 40) 4
  sampled : Vector (BitVec 40) 4
  /-- rising edges of the release clock until GRST0 and GRST1 are deasserted, 0 when they are (R289) -/
  resets  : Vector Nat 2
  /-- the two stages of the synchronisers of EV0 to EV15 and ET_MATCH0 to 15 (R296) -/
  sync    : Vector (BitVec 32) 4
  taps    : Vector (BitVec 32) 4
  /-- the phase read port: PHV_SEL taken, value read, PHV (R296) -/
  phvSel  : Vector (BitVec 4) 4
  phvMid  : Vector Word 4
  phv     : Vector Word 4
  /-- I/O registers of the balls: bits received and bits sent (R291) -/
  padIn   : Cells 8
  padOut  : Cells 8
  /-- safe-table entries that balls of a quadrant take at its next isolation, as they were at its start (R305) -/
  safe    : Cells 8
  /-- edges of the lane clock until drive lane d, or abort input c under 32 + c, takes a strobe again (R295) -/
  strobes : Cells 3
deriving DecidableEq, Repr

/-- A network operation in progress: the router reconfiguration and its command (R256). -/
structure Reconfig where
  desc : Desc
deriving DecidableEq, Repr

/-- State of the lease of a store block (R278); the shadow's contents stand in `State.shadow`. -/
inductive LeaseState | none | copy | redirect | restore
deriving DecidableEq, Repr

/-- The lease of a store block (R278, R279). -/
structure Lease where
  block    : BitVec 9
  st       : LeaseState
  retained : Bool
deriving DecidableEq, Repr

/-- A store word that holds a bit error (R262). -/
structure StoreError where
  addr  : BitVec 21
  multi : Bool
deriving DecidableEq, Repr

/-- The result of a D-port connection (R265). -/
structure DResult where
  rvalid : Bool
  rdata  : Word
  status : BitVec 8
  busy   : Bool
deriving DecidableEq, Repr

/-! ### Host interface -/

/-- A completion on its way to its ring (R357). PHASE, OVERRUN and EPOCH are added when it is written. -/
structure Completion where
  tag    : BitVec 32
  status : BitVec 8
  ring   : BitVec 8
  type   : BitVec 8
  cflags : BitVec 8
  detail : BitVec 24
  extra  : BitVec 32
  result : BitVec 64
  irq    : Bool
deriving DecidableEq, Repr

/-- A completion ring beside its registers: held entries, entries since the last message, a pending OVERRUN mark. -/
structure CqState where
  held    : List Completion
  since   : Nat
  overrun : Bool
deriving DecidableEq, Repr

/-- A submission ring beside its registers: polls in a row that found nothing, reads in a row that failed, and whether
the last descriptor fetch failed. -/
structure SqState where
  idlePolls : Nat
  badPolls  : Nat
  refetch   : Bool
  /-- mover of a chain whose last descriptor so far had CHAIN set (R352) -/
  chain     : Option (Fin 8)
  /-- completion ring that the ring named when it was last enabled -/
  cq        : Fin 64
deriving DecidableEq, Repr

/-- A REG_WRITE that started Course Port transfers: the requests of its mover that await their acknowledgement, the
registers written, and the first status other than OK (R51, R353). [log entry 88: DEDUCED] -/
structure AckWait where
  mover : Fin 8
  tags  : List (BitVec 8)
  desc  : Desc
  moved : Nat
  bad   : Option (BitVec 8)
deriving DecidableEq, Repr

/-- A stream ring beside its registers (R358 to R360). -/
structure StState where
  words    : BitVec 16
  mover    : BitVec 3
  /-- records written since the last reset of the host interface -/
  written  : BitVec 32
  /-- records dropped since the latest written one -/
  dropped  : BitVec 32
  since    : Nat
deriving DecidableEq, Repr

/-! ### Guard, timebase and pins -/

/-- An abort channel of the Guard (R412). -/
structure GuardChan where
  enabled  : Bool
  /-- source: the fabric abort input, or a store window -/
  window   : Option (Fin 16)
  /-- RMS_LIMIT and PEAK_LIMIT -/
  limRms   : Word
  limPeak  : Word
  /-- the current RMS, and the largest |x| since the channel was configured -/
  rms      : Word
  peak     : Word
  nanLimit : BitVec 16
  log2w    : BitVec 5
  stale    : BitVec 32
  /-- squares of the last W samples, newest first, in units of 2^-314 -/
  squares  : List Nat
  nanRun   : Nat
deriving DecidableEq, Repr

/-- A gain ramp: its direction and the epoch at which it began. -/
structure Ramp where
  up : Bool
  t0 : BitVec 64
deriving DecidableEq, Repr

/-- The Guard beside its registers: gain as num / den when no ramp runs and at the start of a ramp down. -/
structure GuardSt where
  num    : Nat
  den    : Nat
  ramp   : Option Ramp
  /-- gains held since this epoch by a brownout warning (R417) -/
  heldAt : Option (BitVec 64)
  chans  : Vector GuardChan 16
  /-- DRV_OUT of each lane (R413) -/
  drvOut : Vector (BitVec 24) 32
deriving DecidableEq, Repr

/-- A phase reference beside its registers (R316 to R320). -/
structure PhRef where
  /-- sampled levels of A and B -/
  a       : Bool
  b       : Bool
  /-- edge index within the cycle and cycle count (R318) -/
  e       : BitVec 16
  cycle   : BitVec 24
  /-- ticks since the latest forward edge -/
  t       : Nat
  /-- consecutive forward edges since the mode was set or a reversal, up to 2 -/
  fwd     : Nat
  /-- a forward edge has been seen since MODE left OFF -/
  seen    : Bool
  /-- the fraction that the value holds while MODE is OFF (R317) -/
  frac    : BitVec 16
  /-- edges since the latest Z edge, once one has been seen (R319) -/
  sinceZ  : Option Nat
deriving DecidableEq, Repr

/-- A scheduler entry (R321). -/
structure SchedEntry where
  armNo  : BitVec 32
  ref    : BitVec 4
  target : Word
  action : BitVec 4
  arg    : BitVec 64
  incr   : Word
  count  : BitVec 16
  wake   : Bool
  tag    : BitVec 16
  /-- the descriptor that armed it, whose ring an abort names -/
  desc   : Desc
  /-- the kernel of a LAUNCH entry -/
  kernel : Bool
  /-- the entry was due when it was armed or armed again (R324) -/
  late   : Bool
  /-- the bow in which the kernel's image was pinned at arming (R67) -/
  pin    : Option (Fin 16)
deriving DecidableEq, Repr

/-- An event timer beside its registers. -/
structure TimerSt where
  /-- staged low halves of PERIOD, CMP and SAFE_CMP (R315) -/
  lo        : Vector (BitVec 32) 3
  /-- ticks counted since the latest rising capture (R332) -/
  sinceRise : Word
  /-- WIDTH_HI has been read since the latest falling capture -/
  widthRead : Bool
deriving DecidableEq, Repr

/-- Output balls that the chapters drive (R368, R402, R419, R270, R400). [log entry 139: DESIGN CHOICE] -/
structure Pins where
  safeDriveEn : Bool
  ready       : Bool
  faultN      : Bool
  sentinelN   : Bool
  thermN      : Bool
  storeBusy   : Bool
  wakeN       : Bool
deriving DecidableEq, Repr

/-! ### Service, configuration and debug -/

/-- SERVICE_POLICY beside its register (R405, R420). -/
structure Policy where
  low        : BitVec 8
  crit       : BitVec 8
  high       : BitVec 8
  eccRate    : BitVec 16
  courseTest : Bool
  storeTest  : Bool
  exclude    : BitVec 64
deriving DecidableEq, Repr

/-- Brownout (R417, R418): rails below 94 %, whether launches are held, whether the 50 µs and the 200 µs have passed, and
the launches held, oldest first. -/
structure Brown where
  rails : BitVec 3
  hold  : Bool
  past  : Bool
  out   : Bool
  held  : List Job
deriving DecidableEq, Repr

/-- A PATCH_LOAD whose swaps are pending (R212): its command, the bows that have not swapped, and those named. -/
structure PatchLoad where
  desc  : Desc
  left  : BitVec 16
  named : BitVec 16
deriving DecidableEq, Repr

/-- The admin pass of STARTUP in progress (R378): what the boot's further attempts read, whether AUTOSTART may take
effect (R377), the µs to READY, and whether the pass belongs to a wake from STANDBY and to which mode it leads. -/
structure BootPass where
  attempts : List SlotRead
  autoOk   : Bool
  us       : BitVec 20
  wakeTo   : Option Mode
  /-- status and detail of the first descriptor that did not end with OK or LATE_ABORT -/
  bad      : Option (BitVec 8 × BitVec 24)
deriving DecidableEq, Repr

/-- A copy of the Vault directory in MRAM (R375): sequence number, CFG_VAULT and the states of the slots, and CRC-32. -/
structure VaultCopy where
  seq : BitVec 32
  dir : List (BitVec 32)
  crc : BitVec 32
deriving DecidableEq, Repr

/-- The test access port (R431 to R433): instruction register, whether an instruction has control of the balls, whether
one has had it since the last boot, the DAP's status and latest read data, and the cells of the boundary register at the
FIO balls: levels sampled, and levels that EXTEST drives. -/
structure Jtag where
  ir      : BitVec 8
  control : Bool
  taken   : Bool
  status  : BitVec 2
  data    : Reg32
  sampled : BitVec 64 := 0
  drives  : BitVec 64 := 0
deriving DecidableEq, Repr

/-! ### The whole -/

/-- The state of the block. -/
structure State where
  /-- commands waiting, first in first out -/
  pending  : List Instr
  mode     : Mode
  /-- counter of the free values: the MODEL's own field -/
  free     : Nat
  /-- host-visible registers that do not hold their reset value, by BAR0 byte offset; the register file of logical
  course c stands at 0x100000 + 0x400 c -/
  regs     : Cells 32
  epoch    : BitVec 64
  log      : List LogEntry
  /-- number of the next Logbook entry (R423) -/
  logNext  : Nat
  /-- entries committed to MRAM (R423) -/
  logDone  : Nat
  /-- open suppression periods: SOURCE, EVENT, their start, entries folded (R423) -/
  folded   : List (BitVec 16 × BitVec 16 × BitVec 64 × Nat)
  bows     : Vector Bow 16
  /-- planes of the logical array, the per-PE flags, LAR, save latch, micro-scratch banks and working bits, by key (see
  Array) -/
  pe       : Cells 65536
  peErr    : List PeError
  scrErr   : List ScratchError
  courses  : Vector CourseSt 64
  pcourse  : Vector PState 68
  lmap     : Vector (Fin 68) 64
  migration : Option Migration
  /-- packets on their way, oldest first -/
  flight   : List Sent
  /-- packets held at their source NIs by an identity move, oldest first (R253) -/
  heldBack : List Sent
  torus    : TorusSt
  peers    : Vector PeerSt 2
  fp       : Vector FpSt 4
  fabLoad  : Option FabLoad
  /-- the GLOBAL configuration in force (R299), and quadrants last loaded by FAB_LOAD (R401) -/
  fabGlobal : GlobalConf
  fabLive  : BitVec 4
  snap     : Option Snap
  fab      : FabSt
  /-- Shared Store words that are not 0, and the shadow of a leased block -/
  store    : Cells 40
  shadow   : Cells 40
  storeErr : List StoreError
  lease    : Lease
  scrubRow : BitVec 16
  /-- rows that a fast scrub pass of the store still has to take, 0 when none has begun (R263) -/
  scrubLeft : Nat
  /-- a wipe of the secure partition runs until this epoch (R276) -/
  wipeEnd  : Option (BitVec 64)
  /-- epoch at which the clear of the store ends (R277) -/
  clearEnd : Option (BitVec 64)
  dresult  : Vector DResult 4
  reconfig : Option Reconfig
  /-- an identity move in progress: logical course and new physical course (R253) -/
  idMove   : Option (Fin 64 × Fin 68)
  /-- bytes of host memory that the device wrote and that are not 0 -/
  host     : Cells 8
  /-- messages signalled to the MSI-X function, newest first (R361) -/
  msix     : List (BitVec 6)
  /-- pending bits of the MSI-X vectors: the PBA (R338, R361) -/
  msixPend : BitVec 64
  sq       : Vector SqState 64
  cq       : Vector CqState 64
  st       : Vector StState 32
  /-- descriptors accepted and not yet completed, oldest first -/
  accepted : List Desc
  /-- ABORT commands that wait for the completion of their target: command and target (R356) -/
  abortWaits : List (Desc × Desc)
  movers   : Vector (List Desc) 8
  ackWaits : List AckWait
  /-- the mode to which HALT returns, and whether STANDBY was entered from HOLD (R398) -/
  before   : Mode
  guard    : GuardSt
  refs     : Vector PhRef 8
  sched    : List SchedEntry
  nextArm  : BitVec 32
  timers   : Vector TimerSt 16
  /-- event lines EV0 to EV15 and the width of the pulse that runs on each, 0 for none (R322) -/
  ev       : BitVec 16
  pulse    : Vector (BitVec 8) 16
  /-- the scheduler's own state of the ETIO balls, and which of them have left IDLE since outputs started (R326) -/
  etio     : BitVec 8
  etioLive : BitVec 8
  /-- fractional part of the epoch (R311) -/
  frac     : BitVec 32
  /-- PPS intervals in a row that were in range (R312) -/
  ppsRun   : Nat
  /-- an edge has been captured since DISCIPLINE was set -/
  ppsSeen  : Bool
  /-- faults of R419 that are present, and a boot attempt has failed (R368) -/
  faults   : List FaultRow
  bootFailed : Bool
  pins     : Pins
  /-- admin commands accepted and not executed yet, oldest first (R355) -/
  adminQ   : List Desc
  /-- HOLD with the slot refused (R379) -/
  refused  : Bool
  /-- STARTUP descriptors of the running slot (R378) -/
  startup  : List DescBits
  /-- a tamper wipe has removed the unsealed keys (R390); the owner content key is in the Vault (R385) -/
  keysGone : Bool
  /-- sealed copies of the owner content key, with the lifecycle code of their sealing key (R385, R388), and the owner public
  key (R385) -/
  ownerCk  : List (Nat × BitVec 256)
  ownerKey : Option (BitVec 768)
  /-- the lifecycle state has changed since the last clean boot (R377) -/
  lcChanged : Bool
  /-- the two MRAM copies of the Vault directory (R375) -/
  vault    : Vector VaultCopy 2
  /-- firmware banks of the Soundpost, and the calibration targets that S6 used (R372, R411) -/
  firmware : Vector (List (BitVec 8)) 2
  caldata  : List (BitVec 8)
  /-- faults that have forced SENTINEL (R403) -/
  forced   : List FaultRow
  /-- a detection in STANDBY or SLEEP: the next wake runs a full boot (R391) -/
  fullBoot : Bool
  /-- the LIFECYCLE command that ERASE serves, and its target code (R387) -/
  lifecycle : Option (Desc × Nat)
  keepLink : Bool
  policy   : Policy
  /-- background tests passed in a row and the latest margin, by physical course (R407) -/
  passes   : Vector Nat 68
  tested   : Vector (BitVec 8) 68
  /-- consecutive samples of every domain of a bow's group above MARGIN_HIGH, in ms (R405) -/
  highMs   : Vector Nat 96
  /-- gap values filled in by each course since its latest FRONTEND_GAP entry (R44, R422) -/
  gaps     : Vector Nat 64
  /-- the latest 64 margins of each domain, newest first (R404) -/
  margins  : Vector (List (BitVec 8)) 96
  brown    : Brown
  /-- domains whose latest sample broke the limits of R14, and domains whose latest margin lies below MARGIN_CRIT -/
  adjacent : BitVec 96
  lows     : BitVec 96
  /-- uncorrectable errors and corrected course errors of the past hour, by SOURCE and epoch (R405, R419) -/
  uncorr   : List (BitVec 16 × BitVec 64)
  corr     : List (BitVec 16 × BitVec 64)
  /-- FW_SWITCH while the ring engines do not fetch (R411) -/
  fwSwitch : Option Desc
  /-- epoch of the latest watchdog expiry (R419) -/
  watchdog : Option (BitVec 64)
  patchLoad : Option PatchLoad
  /-- index of the debug nonce (R435) -/
  nonce    : Nat
  jtag     : Jtag
  /-- data that the latest read of BAR4 returned: the MODEL's own field -/
  bar4     : BitVec 64
  bootPass : Option BootPass
deriving DecidableEq, Repr

/-- A context before its first kernel (DESIGN CHOICE: log entry 11). [log entry 11: DESIGN CHOICE] -/
def Context.reset : Context :=
  { run := .idle, pc := 0, s := Vector.replicate 16 0, a := Vector.replicate 8 0, lk := 0, rc := 0, bf := 0,
    fpctl := 0, stackLo := 0, plo := 0, phi := 0, dlo := 0, dhi := 0, rep := none, micro := none, trapPc := 0, trapWord := 0,
    trapCause := 0, th := false, lastStatus := 0, ackBad := none, asks := [], nextTag := 0, deliveries := [],
    gOut := [], wait := none, history := [], bpSkip := false, stepping := false, aborting := false, prevImage := none, job := none }

/-- No patch set: version 0, no words, no match entries (R214). -/
def PatchSet.empty : PatchSet := { version := 0, words := [], entries := [] }

/-- A bow before its domain powers up (R89, R206; accumulator: log entry 11). [log entry 11: DESIGN CHOICE] -/
def Bow.reset : Bow :=
  { powered := false, n := Context.reset, u := Context.reset, group := none, held := false, armed := none,
    clockSet := 20, clock := 20, clockNext := none, queue := [], launches := [], dmem := [], dmemErr := [], lines := [],
    asked := [], trapTable := [], pins := [], patch := PatchSet.empty, patchErr := [], rewrite := false, pending := none,
    swapEnd := none, microHit := none, window := none, ended := [], accum := 0 }

/-- A Course Port channel before its first transfer (R57). -/
def Chan.reset : Chan :=
  { st := 0, bank := [], sync := false, gen := 0, asked := 0, waiting := 0, consumed := 0, planes := 0, bad := none,
    adv := 0, owner := none }

/-- A logical course before its domain powers up (R77, R89). -/
def CourseSt.reset : CourseSt :=
  { ready := false, owner := none, reserved := none, leased := false, chans := Vector.replicate 4 Chan.reset,
    eccQueue := [], fastLeft := 0 }

/-- A Guard channel before its configuration (DESIGN CHOICE: log entry 12). -/
def GuardChan.reset : GuardChan :=
  { enabled := false, window := none, limRms := 0, limPeak := 0, rms := 0, peak := 0, nanLimit := 0, log2w := 0, stale := 0, squares := [],
    nanRun := 0 }

/-- The fabric with nothing loaded. [log entry 160: DESIGN CHOICE] -/
def FabSt.reset : FabSt :=
  { quads := Vector.replicate 4 QuadConf.blank, edges := Vector.replicate 4 (Vector.replicate 4 0), ffs := [], bram := [],
    bramErr := [], outs := [], latches := [], held := Vector.replicate 4 0, sampled := Vector.replicate 4 0, resets := Vector.replicate 2 0,
    sync := Vector.replicate 4 0, taps := Vector.replicate 4 0, phvSel := Vector.replicate 4 0,
    phvMid := Vector.replicate 4 0, phv := Vector.replicate 4 0, padIn := [], padOut := [], safe := [], strobes := [] }

/-- The block right after reset, before POR_RELEASE (R367, R448). The values that the manual does not give are named in
log entries 11 to 15. [log entries 12: DESIGN CHOICE; 13: PRESUMED] -/
def State.reset : State :=
  { pending := [], mode := .boot, free := 0, regs := [], epoch := 0, log := [], logNext := 0, logDone := 0, folded := [],
    bows := Vector.replicate 16 Bow.reset, pe := [], peErr := [], scrErr := [], courses := Vector.replicate 64 CourseSt.reset,
    pcourse := Vector.ofFn (fun (i : Fin 68) => if i.val < 64 then PState.active else PState.spareOff),
    lmap := Vector.ofFn (fun (i : Fin 64) => Fin.castLE (by decide) i),
    migration := none, flight := [], heldBack := [],
    torus := { nc := 0, worms := [], returns := [], turns := [], failed := [], replays := [], holds := [] },
    fp := Vector.replicate 4 FpSt.reset, fabLoad := none, fabGlobal := GlobalConf.blank, fabLive := 0,
    snap := none, fab := FabSt.reset,
    peers := Vector.replicate 2 PeerSt.reset, store := [], shadow := [], storeErr := [],
    lease := { block := 0, st := .none, retained := false }, scrubRow := 0, scrubLeft := 0, wipeEnd := none, clearEnd := none,
    dresult := Vector.replicate 4 { rvalid := false, rdata := 0, status := 0, busy := false },
    reconfig := none, idMove := none, host := [], msix := [], msixPend := 0,
    sq := Vector.replicate 64 { idlePolls := 0, badPolls := 0, refetch := false, chain := none, cq := 0 },
    cq := Vector.replicate 64 { held := [], since := 0, overrun := false },
    st := Vector.replicate 32 { words := 0, mover := 0, written := 0, dropped := 0, since := 0 },
    accepted := [], abortWaits := [], movers := Vector.replicate 8 [], ackWaits := [],
    before := .boot,
    guard := { num := 0, den := 1, ramp := none, heldAt := none, chans := Vector.replicate 16 GuardChan.reset,
               drvOut := Vector.replicate 32 0 },
    refs := Vector.replicate 8 { a := false, b := false, e := 0, cycle := 0, t := 0, fwd := 0, seen := false, frac := 0, sinceZ := none },
    sched := [], nextArm := 0,
    timers := Vector.replicate 16 { lo := Vector.replicate 3 0, sinceRise := 0, widthRead := true },
    ev := 0, pulse := Vector.replicate 16 0, etio := 0, etioLive := 0, frac := 0, ppsRun := 0, ppsSeen := false,
    faults := [], bootFailed := false,
    pins := { safeDriveEn := false, ready := false, faultN := true, sentinelN := true, thermN := true,
              storeBusy := false, wakeN := true }
    adminQ := [], refused := false, startup := [], keysGone := false, ownerCk := [], ownerKey := none, lcChanged := false,
    vault := #v[{ seq := 0, dir := [0, 0], crc := 0x7BD5C66F }, { seq := 1, dir := [0, 0], crc := 0xE0708A00 }]
    firmware := Vector.replicate 2 [], caldata := [], forced := [], fullBoot := false, lifecycle := none,
    keepLink := false,
    policy := { low := 0, crit := 0, high := 0, eccRate := 0, courseTest := false, storeTest := false, exclude := 0 }
    passes := Vector.replicate 68 0, tested := Vector.replicate 68 0, highMs := Vector.replicate 96 0, margins := Vector.replicate 96 [], gaps := Vector.replicate 64 0,
    brown := { rails := 0, hold := false, past := false, out := false, held := [] }, adjacent := 0, lows := 0, uncorr := [], corr := [],
    fwSwitch := none, watchdog := none, patchLoad := none,
    nonce := 0, jtag := { ir := 0x02, control := false, taken := false, status := 0, data := 0 }, bar4 := 0, bootPass := none }

end Sys2Proof.Machine
end

