-- ==== Sys2Proof/Machine/Layout.lean ====
section
/-! DEFINITION. The register tables of the manual: for every BAR0 offset (and, from 0x100000, every offset of a
course's register file) the fields with their access code and reset value (R4 to R6). Bits no field names are reserved. -/

namespace Sys2Proof.Machine

/-- Access codes (R6). -/
inductive Acc | rw | ro | w1c | w1s | wo | rwl
deriving DecidableEq, Repr

structure RegField where
  hi    : Nat
  lo    : Nat
  acc   : Acc
  reset : Nat
deriving DecidableEq, Repr

def fld (hi lo : Nat) (acc : Acc) (reset : Nat := 0) : RegField := { hi, lo, acc, reset }

def rw32 : Option (List RegField) := some [fld 31 0 .rw]
def ro32 : Option (List RegField) := some [fld 31 0 .ro]

/-- Registers of bow n by offset in its block (R89, R214, R231). -/
def bowLayout (n o : Nat) : Option (List RegField) :=
  if o = 0x000 then some [fld 3 0 .ro n, fld 4 4 .ro]
  else if o = 0x004 then some [fld 2 0 .ro, fld 5 3 .ro, fld 6 6 .ro, fld 7 7 .ro, fld 14 8 .ro, fld 18 15 .ro, fld 19 19 .ro]
  else if o = 0x008 then some [fld 0 0 .rwl 1, fld 1 1 .rwl 1, fld 14 8 .rwl 64]
  else if o = 0x010 then some [fld 9 0 .ro 4, fld 10 10 .w1c]
  else if o = 0x040 ∨ o = 0x060 then some [fld 7 0 .ro, fld 8 8 .ro]
  else if o = 0x044 ∨ o = 0x064 then some [fld 12 0 .ro]
  else if o = 0x048 ∨ o = 0x04C ∨ o = 0x068 ∨ o = 0x06C then ro32
  else if o = 0x050 ∨ o = 0x070 then some [fld 15 0 .ro]
  else if o = 0x080 ∨ o = 0x084 ∨ o = 0x088 ∨ o = 0x08C then rw32
  else if o = 0x090 then some [fld 15 0 .rw]
  else if o = 0x0A0 then some [fld 31 0 .ro 0x65400001]
  else if o = 0x0A4 then ro32
  else if o = 0x0A8 then some [fld 8 0 .ro, fld 14 9 .ro, fld 15 15 .ro, fld 23 16 .rw]
  else if o = 0x0AC then some [fld 12 0 .ro, fld 17 13 .ro, fld 18 18 .w1c, fld 19 19 .ro]
  else if o = 0x0C0 then some [fld 0 0 .rwl 1, fld 6 1 .rwl 32, fld 7 7 .rwl]
  else if o = 0x0C4 ∨ o = 0x0C8 ∨ o = 0x0CC ∨ o = 0x0D4 ∨ o = 0x0D8 ∨ o = 0x0E0 ∨ o = 0x0E4 then rw32
  else if o = 0x0D0 then some [fld 7 0 .rw, fld 15 8 .rw, fld 23 16 .rw, fld 31 24 .rw]
  else if o = 0x0DC then some [fld 10 0 .rw]
  else if 0x100 ≤ o ∧ o < 0x180 then some [fld 11 0 .ro, fld 19 12 .ro, fld 20 20 .ro]
  else none

/-- The register file of logical course n by offset (R53 to R58). -/
def courseLayout (n o : Nat) : Option (List RegField) :=
  if o = 0x000 then some [fld 5 0 .ro n, fld 14 8 .ro n, fld 19 16 .ro, fld 20 20 .ro, fld 21 21 .ro]
  else if o = 0x010 then some [fld 1 0 .rw, fld 3 2 .rw, fld 5 4 .rw, fld 7 6 .rw]
  else if o = 0x014 ∨ o = 0x018 ∨ o = 0x01C ∨ o = 0x020 then rw32
  else if o = 0x040 then rw32
  else if o = 0x044 then some [fld 15 0 .rw, fld 16 16 .w1c]
  else if o = 0x048 then some [fld 13 0 .ro, fld 17 14 .ro, fld 18 18 .ro]
  else if o = 0x050 then some [fld 0 0 .rw 1, fld 1 1 .w1s, fld 2 2 .w1c]
  else if o = 0x054 then some [fld 13 0 .ro]
  else if 0x100 ≤ o ∧ o < 0x180 then
    if o % 0x20 = 0x00 then some [fld 0 0 .wo, fld 1 1 .wo, fld 2 2 .rw, fld 4 3 .rw, fld 5 5 .rw, fld 6 6 .rw,
      fld 7 7 .rw, fld 13 8 .rw 40, fld 15 14 .rw, fld 16 16 .rw, fld 21 17 .rw]
    else if o % 0x20 = 0x04 then some [fld 13 0 .rw]
    else if o % 0x20 = 0x08 then some [fld 9 0 .rw, fld 20 10 .rw 1024]
    else if o % 0x20 = 0x0C then some [fld 20 0 .rw, fld 24 21 .rw]
    else if o % 0x20 = 0x10 then some [fld 1 0 .ro, fld 9 2 .ro, fld 20 10 .ro, fld 21 21 .ro, fld 31 22 .rw]
    else if o % 0x20 = 0x14 then some [fld 7 0 .rw]
    else if o % 0x20 = 0x18 then rw32
    else some [fld 15 0 .rw, fld 31 16 .rw]
  else if 0x180 ≤ o ∧ o < 0x190 then some [fld 15 0 .rw, fld 18 16 .rw, fld 19 19 .rw, fld 21 20 .rw]
  else none

/-- CAPO_GROUPn and CAPO_CSTATEm (R89). -/
def capoLayout (o : Nat) : Option (List RegField) :=
  if 0x800 ≤ o ∧ o < 0x840 then some [fld 2 0 .ro, fld 5 3 .ro, fld 8 6 .ro, fld 11 9 .ro, fld 12 12 .ro, fld 13 13 .ro,
    fld 14 14 .ro, fld 20 16 .ro 20]
  else if 0x840 ≤ o ∧ o < 0x860 then some [fld 31 0 .ro 0x11111111]
  else none

/-- Host interface registers (R366). [log entries 128: DESIGN CHOICE; 141: PRESUMED] -/
def hifLayout (o : Nat) : Option (List RegField) :=
  if o = 0x1000 then some [fld 6 0 .rw 10, fld 23 8 .rw 100, fld 31 31 .w1s]
  else if o = 0x1004 then some [fld 3 0 .ro 2, fld 6 4 .ro, fld 9 7 .ro]
  else if o = 0x1008 then some [fld 0 0 .w1c, fld 1 1 .w1c, fld 2 2 .w1c, fld 3 3 .w1c, fld 4 4 .w1c]
  else if o = 0x100C then some [fld 4 0 .rw 0x1F]
  else if o = 0x1010 ∨ o = 0x1014 then ro32
  else if o = 0x1018 then some [fld 15 0 .rw, fld 31 16 .rw]
  else if 0x2000 ≤ o ∧ o < 0x3000 then
    let r := o % 0x40
    if r = 0x00 then some [fld 31 12 .rw]
    else if r = 0x04 ∨ r = 0x0C ∨ r = 0x14 then rw32
    else if r = 0x08 then some [fld 31 2 .rw]
    else if r = 0x10 then some [fld 31 6 .rw]
    else if r = 0x18 then some [fld 0 0 .rw, fld 5 1 .rw 4, fld 11 6 .rw]
    else if r = 0x1C then rw32
    else if r = 0x20 then some [fld 1 0 .ro, fld 3 2 .ro, fld 8 4 .ro]
    else if r = 0x24 then rw32
    else none
  else if (0x3000 ≤ o ∧ o < 0x4000) ∨ (0x4000 ≤ o ∧ o < 0x4800) then
    let r := o % 0x40
    if r = 0x00 then some [fld 31 12 .rw]
    else if r = 0x04 ∨ r = 0x0C then rw32
    else if r = 0x08 then some [fld 31 2 .rw]
    else if r = 0x10 then some [fld 0 0 .rw, fld 5 1 .rw 4, fld 11 6 .rw, fld 19 12 .rw 1, fld 29 20 .rw]
    else if o < 0x4000 then
      if r = 0x14 then ro32 else if r = 0x18 then some [fld 8 0 .ro, fld 31 16 .rw] else none
    else
      if r = 0x14 then some [fld 19 0 .rw]
      else if r = 0x18 then some [fld 0 0 .ro, fld 4 1 .ro, fld 5 5 .ro, fld 6 6 .ro]
      else if r = 0x1C ∨ r = 0x20 then ro32
      else if r = 0x24 then rw32
      else none
  else if 0x8000 ≤ o ∧ o < 0x8400 then
    -- the MSI-X table of 64 vectors, in the layout of the PCI Express specification (R338; log entry 141: PRESUMED)
    if o % 16 = 0 then some [fld 31 2 .rw] else if o % 16 = 12 then some [fld 0 0 .rw 1] else rw32
  else if 0x9000 ≤ o ∧ o < 0x9008 then ro32
  else none

/-- Error bits of the uncorrectable and of the correctable status registers of AER. -/
def aerUncorr : List Nat := [4, 5, 12, 13, 14, 15, 16, 17, 18, 19, 20]
def aerCorr : List Nat := [0, 6, 7, 8, 12, 13]

/-- One-bit fields. -/
def bitFields (acc : Acc) (set : List Nat) (bits : List Nat) : List RegField :=
  bits.map (fun b => fld b b acc (set.contains b).toNat)

/-- Configuration space of the PCI Express function (R336, R338): the header, and the capabilities for power management at
0x40, MSI-X at 0x50 and PCI Express at 0x70, and AER at 0x100, in the layouts of the PCI Express specification.
[log entry 182: PRESUMED] -/
def pciLayout (o : Nat) : Option (List RegField) :=
  match o with
  | 0x00 => some [fld 31 0 .ro 0x65401F3C]
  | 0x04 => some ([fld 1 1 .rw, fld 2 2 .rw, fld 6 6 .rw, fld 8 8 .rw, fld 10 10 .rw, fld 20 20 .ro 1] ++
      bitFields .w1c [] [24, 27, 28, 29, 30, 31])
  | 0x08 => some [fld 31 0 .ro 0x11800001]
  | 0x0C => some [fld 7 0 .rw]
  | 0x10 => some [fld 3 0 .ro 4, fld 31 20 .rw]
  | 0x18 => some [fld 3 0 .ro 4, fld 31 12 .rw]
  | 0x20 => some [fld 3 0 .ro 12, fld 31 26 .rw]
  | 0x14 | 0x1C | 0x24 => rw32
  | 0x2C => some [fld 31 0 .ro 0x00001F3C]
  | 0x34 => some [fld 7 0 .ro 0x40]
  | 0x3C => some [fld 7 0 .rw]
  | 0x40 => some [fld 31 0 .ro 0x00035001]
  | 0x44 => some [fld 1 0 .rw, fld 3 3 .ro 1]
  | 0x50 => some [fld 29 0 .ro 0x003F7011, fld 30 30 .rw, fld 31 31 .rw]
  | 0x54 => some [fld 31 0 .ro 0x8000]
  | 0x58 => some [fld 31 0 .ro 0x9000]
  | 0x70 => some [fld 31 0 .ro 0x00020010]
  | 0x74 => some [fld 31 0 .ro 0x10008022]
  | 0x78 => some ([fld 3 0 .rw, fld 4 4 .rw 1, fld 7 5 .rw, fld 8 8 .rw 1, fld 14 12 .rw 2, fld 21 21 .ro] ++
      bitFields .w1c [] [16, 17, 18, 19])
  | 0x7C => some [fld 31 0 .ro 0x00000844]
  | 0x80 => some [fld 1 0 .rw, fld 3 3 .rw, fld 6 6 .rw, fld 7 7 .rw, fld 19 16 .ro, fld 25 20 .ro]
  | 0x94 => some [fld 31 0 .ro 0x1F]
  | 0x98 => some [fld 3 0 .rw, fld 4 4 .rw]
  | 0x9C => some [fld 31 0 .ro 0x1E]
  | 0xA0 => some [fld 3 0 .rw 4]
  | 0x100 => some [fld 31 0 .ro 0x00020001]
  | 0x104 => some (bitFields .w1c [] aerUncorr)
  | 0x108 => some (bitFields .rw [] aerUncorr)
  | 0x10C => some (bitFields .rw [4, 5, 13, 17, 18] aerUncorr)
  | 0x110 => some (bitFields .w1c [] aerCorr)
  | 0x114 => some (bitFields .rw [13] aerCorr)
  | 0x118 => some [fld 4 0 .ro]
  | _ => if o < 0x1000 then some [fld 31 0 .ro] else none

/-- NIs in use at node n, port p (R239). -/
def niUsed (n p : Nat) : Bool :=
  if p = 0 then true
  else if p = 1 then true
  else if p = 2 then
    if n < 32 then n % 2 = 1 ∨ n = 0 ∨ n = 10 ∨ n = 20 ∨ n = 30 ∨ n = 4 ∨ n = 14 ∨ n = 24 ∨ n = 28 else true
  else n ≥ 32

/-- Logical identity served at node n, port p at shipment (R239, R240). -/
def niIdent (n p : Nat) : Nat :=
  if n < 32 then
    if p < 2 then 2 * n + p
    else if p = 2 then
      if n % 2 = 1 then 0x1000 + n / 2
      else if n % 10 = 0 then 0x3000 + n / 10
      else if n = 4 then 0x6000 else if n = 14 then 0x6004 else if n = 24 then 0x7000 else if n = 28 then 0x8000 else 0
    else 0
  else
    if p = 0 then 0xA000 + n + 32
    else if p < 3 then 0x2000 + (n - 32)
    else if n = 32 then 0x4000 else if n = 33 then 0x5000 else 0x9000 + (n - 34)

/-- Local ports of node n that are enabled at reset (R239, R257). -/
def portEnable (n : Nat) : Nat :=
  (niUsed n 0).toNat + 2 * (niUsed n 1).toNat + 4 * (niUsed n 2).toNat + 8 * (niUsed n 3).toNat

/-- Network registers (R257), offsets from 0x2_0000. -/
def nocLayout (o : Nat) : Option (List RegField) :=
  if o < 36 * 0x80 then
    let r := o % 0x80
    if r = 0x00 then some [fld 3 0 .ro (portEnable (o / 0x80)), fld 6 4 .ro 4, fld 9 7 .ro 4, fld 12 10 .ro 4,
      fld 15 13 .ro 4, fld 17 16 .ro, fld 18 18 .ro]
    else if r = 0x04 then some [fld 31 0 .ro 0x11111111]
    else if r = 0x08 ∨ r = 0x0C ∨ r = 0x10 then rw32
    else if r = 0x14 then some [fld 7 0 .rw, fld 15 8 .rw, fld 23 16 .rw, fld 31 24 .rw]
    else if r = 0x18 then some [fld 15 0 .rw, fld 23 16 .ro]
    else none
  else if 0x2000 ≤ o ∧ o < 0x2000 + 144 * 0x20 then
    let i := (o - 0x2000) / 0x20
    let r := o % 0x20
    if r = 0x00 then some [fld 1 0 .ro (if niUsed (i / 4) (i % 4) then 2 else 3), fld 2 2 .ro,
      fld 31 16 .ro (niIdent (i / 4) (i % 4))]
    else if r = 0x04 ∨ r = 0x0C ∨ r = 0x10 then rw32
    else if r = 0x08 then some [fld 15 0 .rw, fld 23 16 .ro]
    else if r = 0x14 then some [fld 15 0 .rw]
    else none
  else if o = 0x3800 then some [fld 1 0 .ro, fld 7 2 .ro, fld 15 8 .ro]
  else none

/-- Shared Store registers (R279), offsets from 0x3_0000. -/
def storeLayout (o : Nat) : Option (List RegField) :=
  if o = 0x000 then some [fld 0 0 .rwl, fld 1 1 .rw 1, fld 2 2 .w1s, fld 3 3 .w1c]
  else if o = 0x004 then some [fld 0 0 .ro, fld 1 1 .ro, fld 5 2 .ro]
  else if o = 0x010 then rw32
  else if o = 0x014 then some [fld 15 0 .rw, fld 16 16 .w1c]
  else if o = 0x018 then some [fld 20 0 .ro, fld 21 21 .ro]
  else if 0x040 ≤ o ∧ o < 0x080 then some [fld 15 0 .rw, fld 31 16 .rw]
  else if o = 0x080 then rw32
  else if o = 0x090 then some [fld 8 0 .ro, fld 10 9 .ro, fld 11 11 .ro]
  else if 0x100 ≤ o ∧ o < 0x300 then
    let r := o % 0x20
    if r = 0x00 ∨ r = 0x04 then some [fld 20 0 .rw]
    else if r = 0x08 then some [fld 15 0 .rw 1]
    else if r = 0x0C then some [fld 0 0 .rw]
    else if r = 0x10 ∨ r = 0x14 then some [fld 20 0 .rw, fld 21 21 .rw]
    else if r = 0x18 then some [fld 15 0 .rw, fld 31 16 .rw]
    else none
  else none

/-- Peer-link registers (R441), offsets from 0x8_0000. -/
def peerLayout (o : Nat) : Option (List RegField) :=
  if o = 0x000 then some [fld 2 0 .rwl, fld 6 3 .rwl 1, fld 7 7 .rwl 1, fld 9 8 .rwl]
  else if o = 0x100 ∨ o = 0x140 then some [fld 2 0 .ro, fld 5 3 .ro, fld 6 6 .ro, fld 7 7 .w1c]
  else if o = 0x104 ∨ o = 0x144 ∨ o = 0x108 ∨ o = 0x148 ∨ o = 0x10C ∨ o = 0x14C then rw32
  else none

/-- Debug registers (R442), offsets from 0x9_0000. -/
def dbgLayout (o : Nat) : Option (List RegField) :=
  if o = 0x000 then some [fld 0 0 .rw, fld 1 1 .rw, fld 2 2 .ro]
  else if o = 0x004 then some [fld 15 0 .w1s]
  else if o = 0x008 then some [fld 15 0 .wo]
  else if o = 0x00C then some [fld 3 0 .wo, fld 4 4 .wo]
  else if o = 0x010 then some [fld 15 0 .ro]
  else if o = 0x014 then some [fld 15 0 .rw, fld 31 16 .rw]
  else if 0x100 ≤ o ∧ o < 0x500 then
    let r := o % 0x40
    if r < 0x10 then some [fld 12 0 .rw, fld 13 13 .rw, fld 15 14 .rw]
    else if r < 0x18 then some [fld 12 0 .rw, fld 13 13 .rw]
    else if r = 0x18 then some [fld 2 0 .ro, fld 5 3 .ro, fld 18 6 .ro]
    else if r = 0x1C then some [fld 5 0 .rw, fld 6 6 .rw]
    else if r = 0x20 then rw32
    else if r = 0x24 then some [fld 7 0 .rw]
    else none
  else if 0x800 ≤ o ∧ o < 0x820 then ro32
  else if 0x840 ≤ o ∧ o < 0x8A0 then some [fld 31 0 .wo]
  else if o = 0x8A0 then some [fld 0 0 .wo, fld 1 1 .wo, fld 3 2 .ro]
  else none

/-- Fabric registers (R309), offsets from 0x4_0000. -/
def fabLayout (o : Nat) : Option (List RegField) :=
  if o = 0x000 then some [fld 3 0 .ro, fld 7 4 .ro, fld 11 8 .ro, fld 15 12 .ro]
  else if o = 0x004 then some [fld 0 0 .ro, fld 2 1 .ro, fld 5 3 .ro, fld 13 6 .ro, fld 21 14 .ro]
  else if o = 0x008 then some [fld 12 0 .ro]
  else if o = 0x010 ∨ o = 0x014 ∨ o = 0x018 ∨ o = 0x01C then ro32
  else if o = 0x020 then some [fld 7 0 .ro]
  else if o = 0x030 then some [fld 1 0 .ro, fld 5 2 .ro, fld 7 6 .ro]
  else if o = 0x034 ∨ o = 0x038 then ro32
  else if o = 0x040 ∨ o = 0x044 ∨ o = 0x048 ∨ o = 0x04C then some [fld 11 0 .rw, fld 23 12 .rw, fld 31 24 .rw]
  else if o = 0x050 then some [fld 15 0 .rw, fld 31 16 .rw]
  else if o = 0x054 then rw32
  else if 0x100 ≤ o ∧ o < 0x140 then ro32
  else none

/-- Timebase, scheduler, latch and event-timer registers (R335), offsets from 0x5_0000. -/
def tbLayout (o : Nat) : Option (List RegField) :=
  if o = 0x000 then some [fld 0 0 .rwl, fld 1 1 .rwl]
  else if o = 0x004 then some [fld 0 0 .ro, fld 1 1 .ro, fld 2 2 .ro, fld 3 3 .w1c, fld 4 4 .w1c]
  else if o = 0x008 ∨ o = 0x00C ∨ o = 0x018 ∨ o = 0x01C ∨ o = 0x028 ∨ o = 0x02C then ro32
  else if o = 0x010 ∨ o = 0x020 ∨ o = 0x024 then rw32
  else if 0x100 ≤ o ∧ o < 0x200 then
    let r := o % 0x20
    if r = 0x00 then some [fld 1 0 .rw, fld 3 2 .rw, fld 4 4 .rw, fld 5 5 .rw, fld 6 6 .rw, fld 23 8 .rw 1]
    else if r = 0x04 ∨ r = 0x0C then ro32
    else if r = 0x08 then some [fld 7 0 .ro]
    else if r = 0x10 then some [fld 31 0 .rw 0x10000000]
    else if r = 0x14 then some [fld 0 0 .ro, fld 1 1 .ro, fld 2 2 .w1c, fld 3 3 .w1c]
    else none
  else if o = 0x400 then some [fld 8 0 .ro, fld 31 16 .rw]
  else if o = 0x404 ∨ o = 0x408 then rw32
  else if o = 0x40C then ro32
  else if o = 0x600 ∨ o = 0x604 then some [fld 4 0 .rwl 17, fld 5 5 .rwl, fld 12 8 .rwl 17, fld 13 13 .rwl,
    fld 20 16 .rwl 17, fld 21 21 .rwl, fld 28 24 .rwl 17, fld 29 29 .rwl]
  else if o = 0x608 then some [fld 7 0 .ro]
  else if 0x800 ≤ o ∧ o < 0x1000 then
    let r := o % 0x80
    if r = 0x00 ∨ r = 0x04 ∨ r = 0x48 then ro32
    else if r = 0x4C then some [fld 15 0 .ro]
    else if 0x08 ≤ r ∧ r < 0x48 then (if r % 8 = 0 then ro32 else some [fld 7 0 .ro])
    else none
  else if 0x1000 ≤ o ∧ o < 0x1400 then
    let r := o % 0x40
    if r = 0x00 then some [fld 1 0 .rw, fld 2 2 .rw, fld 3 3 .rw, fld 4 4 .rw, fld 9 5 .rw, fld 14 10 .rw, fld 19 15 .rw,
      fld 21 20 .rw, fld 23 22 .rw, fld 25 24 .rw, fld 26 26 .rwl, fld 27 27 .rw]
    else if r = 0x04 ∨ r = 0x0C ∨ r = 0x14 then rw32
    else if r = 0x08 ∨ r = 0x10 ∨ r = 0x18 then some [fld 7 0 .rw]
    else if r = 0x1C ∨ r = 0x24 ∨ r = 0x2C then ro32
    else if r = 0x20 ∨ r = 0x28 ∨ r = 0x30 then some [fld 7 0 .ro]
    else if r = 0x34 then some [fld 0 0 .w1c, fld 1 1 .w1c, fld 2 2 .w1c, fld 3 3 .w1c, fld 4 4 .ro, fld 5 5 .ro,
      fld 6 6 .ro, fld 7 7 .ro, fld 8 8 .ro]
    else if r = 0x38 then some [fld 31 0 .rwl]
    else some [fld 7 0 .rwl]
  else none

/-- Configuration and security registers (R393), offsets from 0x6_0000. -/
def cfgLayout (o : Nat) : Option (List RegField) :=
  if o = 0x000 then some [fld 1 0 .ro, fld 5 2 .ro, fld 13 6 .ro, fld 14 14 .ro, fld 15 15 .ro, fld 16 16 .ro, fld 17 17 .ro]
  else if o = 0x004 then some [fld 1 0 .ro, fld 3 2 .ro, fld 4 4 .ro, fld 5 5 .ro, fld 13 6 .ro]
  else if 0x010 ≤ o ∧ o < 0x030 then
    if o % 8 = 0 then ro32 else if o % 8 = 4 then some [fld 7 0 .ro, fld 10 8 .ro, fld 11 11 .ro, fld 12 12 .ro] else none
  else if o = 0x030 then some [fld 2 0 .ro, fld 3 3 .ro, fld 4 4 .ro, fld 12 5 .ro]
  else if o = 0x034 then some [fld 4 0 .ro, fld 12 8 .ro 0x1E, fld 20 16 .ro 0x1F]
  else if o = 0x038 then some [fld 15 0 .ro, fld 25 16 .ro 100]
  else if o = 0x040 ∨ o = 0x044 then ro32
  else if o = 0x048 then some [fld 19 0 .ro]
  else none

/-- Service, monitor and Guard registers (R424), offsets from 0x7_0000. -/
def svcLayout (o : Nat) : Option (List RegField) :=
  if o = 0x000 then some [fld 1 0 .ro, fld 2 2 .ro, fld 3 3 .ro, fld 4 4 .ro, fld 8 5 .ro, fld 9 9 .ro]
  else if o = 0x004 then some [fld 0 0 .w1c, fld 1 1 .w1c, fld 2 2 .w1c, fld 3 3 .w1c, fld 4 4 .w1c]
  else if o = 0x008 then some [fld 4 0 .rw 0x1F]
  else if o = 0x010 ∨ o = 0x014 ∨ o = 0x018 then ro32
  else if 0x040 ≤ o ∧ o < 0x064 then ro32
  else if 0x080 ≤ o ∧ o < 0x0C0 then
    let m := (o - 0x080) / 4
    some [fld 6 0 .ro (4 * m), fld 14 8 .ro (4 * m + 1), fld 22 16 .ro (4 * m + 2), fld 30 24 .ro (4 * m + 3)]
  else if o = 0x0C0 then some [fld 5 0 .ro, fld 14 8 .ro, fld 22 16 .ro, fld 25 24 .ro, fld 28 26 .ro]
  else if o = 0x0D0 then ro32
  else if 0x1000 ≤ o ∧ o < 0x1600 then
    let r := o % 16
    if r = 0 then some [fld 7 0 .ro, fld 15 8 .rw 0xFF, fld 23 16 .ro]
    else if r = 4 then some [fld 11 0 .ro, fld 23 12 .ro]
    else if r = 8 then some [fld 15 0 .ro, fld 31 16 .ro]
    else none
  else if o = 0x4000 then some [fld 0 0 .ro, fld 2 1 .ro, fld 3 3 .ro, fld 7 4 .ro, fld 11 8 .ro]
  else if o = 0x4004 then some [fld 23 0 .ro]
  else if o = 0x4008 ∨ o = 0x400C ∨ o = 0x4010 then ro32
  else if o = 0x4014 then some [fld 13 0 .ro, fld 27 14 .ro]
  else if 0x4100 ≤ o ∧ o < 0x4180 then rw32
  else if 0x4200 ≤ o ∧ o < 0x4300 then (if o % 8 = 0 then ro32 else some [fld 7 0 .ro])
  else none

/-- The fields of the register at a byte offset of BAR0, from 0x100000 of the course register files, or from 0x110000 of
configuration space; none where
no register lies (R339, R52). [log entry 12: DESIGN CHOICE] -/
def regLayout (o : Nat) : Option (List RegField) :=
  if o % 4 ≠ 0 then none
  else if o < 0x1000 then capoLayout o
  else if o < 0x10000 then hifLayout o
  else if o < 0x20000 then bowLayout ((o - 0x10000) / 0x1000) (o % 0x1000)
  else if o < 0x30000 then nocLayout (o - 0x20000)
  else if o < 0x40000 then storeLayout (o - 0x30000)
  else if o < 0x50000 then fabLayout (o - 0x40000)
  else if o < 0x60000 then tbLayout (o - 0x50000)
  else if o < 0x70000 then cfgLayout (o - 0x60000)
  else if o < 0x80000 then svcLayout (o - 0x70000)
  else if o < 0x90000 then peerLayout (o - 0x80000)
  else if o < 0x100000 then dbgLayout (o - 0x90000)
  else if o < 0x110000 then courseLayout ((o - 0x100000) / 0x400) (o % 0x400)
  else if o < 0x111000 then pciLayout (o - 0x110000)
  else none

/-- Value of a register in which every field holds its reset value. -/
def resetOfFields : List RegField → Nat
  | [] => 0
  | f :: fs => f.reset % 2 ^ (f.hi + 1 - f.lo) * 2 ^ f.lo ||| resetOfFields fs

/-- Reset value of the register at an offset (0 where no register lies). -/
def regReset (o : Nat) : Reg32 :=
  match regLayout o with
  | some fs => BitVec.ofNat 32 (resetOfFields fs)
  | none => 0

/-- Bits [hi:lo] of a field as a mask. -/
def fieldMask (f : RegField) : Nat := (2 ^ (f.hi + 1 - f.lo) - 1) * 2 ^ f.lo

/-- Bits of a register that some field of one of the given access codes covers. -/
def maskOf (accs : List Acc) : List RegField → Nat
  | [] => 0
  | f :: fs => (if accs.contains f.acc then fieldMask f else 0) ||| maskOf accs fs

end Sys2Proof.Machine
end

