-- ==== Sys2Proof/Machine/Ops.lean ====
section
/-! DEFINITION. The named operations over memories, registers, the Logbook, modes, events and completions. -/

namespace Sys2Proof.Machine

/-! ### Sparse memories -/

/-- What key `k` of a memory reads as, `d` giving the value of an unlisted key. [log entry 15: DEDUCED] -/
def cget {w : Nat} (d : Nat → BitVec w) : Cells w → Nat → BitVec w
  | [], k => d k
  | (a, v) :: m, k => if a = k then v else cget d m k

/-- Write key `k`, keeping the keys rising and listing no default value. -/
def cset {w : Nat} (d : Nat → BitVec w) : Cells w → Nat → BitVec w → Cells w
  | [], k, v => if v = d k then [] else [(k, v)]
  | (a, u) :: m, k, v =>
    if k < a then (if v = d k then (a, u) :: m else (k, v) :: (a, u) :: m)
    else if k = a then (if v = d k then m else (k, v) :: m)
    else (a, u) :: cset d m k v

/-- Keys above `lo` rise strictly and no entry holds its default. -/
def cwfFrom {w : Nat} (d : Nat → BitVec w) : Nat → Cells w → Bool
  | _, [] => true
  | lo, (a, v) :: m => decide (lo ≤ a) && v != d a && cwfFrom d (a + 1) m

def cwf {w : Nat} (d : Nat → BitVec w) (m : Cells w) : Bool := cwfFrom d 0 m

/-- The default of every memory but the registers: zero. [log entry 15: DEDUCED] -/
def zeroes {w : Nat} : Nat → BitVec w := fun _ => 0

/-- Drop the entries whose key lies in [lo, hi], so that they read as their default. -/
def cclear {w : Nat} (lo hi : Nat) (m : Cells w) : Cells w := m.filter (fun e => e.1 < lo || hi < e.1)

/-- Write consecutive keys. -/
def csetList {w : Nat} (d : Nat → BitVec w) (m : Cells w) (k : Nat) : List (BitVec w) → Cells w
  | [] => m
  | v :: vs => csetList d (cset d m k v) (k + 1) vs

/-- Read `n` consecutive keys. -/
def cgetList {w : Nat} (d : Nat → BitVec w) (m : Cells w) (k : Nat) : Nat → List (BitVec w)
  | 0 => []
  | n + 1 => cget d m k :: cgetList d m (k + 1) n

/-- The memories of the fabric are in canonical form. -/
def FabSt.wf (f : FabSt) : Bool :=
  cwf zeroes f.ffs && cwf zeroes f.bram && cwf zeroes f.outs && cwf zeroes f.latches && cwf zeroes f.padIn && cwf zeroes f.padOut &&
  cwf zeroes f.safe && cwf zeroes f.strobes

/-- The registers, the planes of the PEs, the Shared Store with its shadow, host memory and the fabric's memories are in
canonical form. -/
def Memory.wf (s : State) : Bool :=
  cwf regReset s.regs && cwf zeroes s.pe && cwf zeroes s.store && cwf zeroes s.shadow && cwf zeroes s.host && s.fab.wf

/-! ### Registers -/

def reg (s : State) (o : Nat) : Reg32 := cget regReset s.regs o

def setReg (s : State) (o : Nat) (v : Reg32) : State := { s with regs := cset regReset s.regs o v }

/-- Bits [hi:lo] of the register at `o`. -/
def regBits (s : State) (o hi lo : Nat) : Nat := bitsOf (reg s o).toNat hi lo

/-- `v` with bits [hi:lo] replaced by the low bits of `x`. -/
def putBits (v hi lo x : Nat) : Nat :=
  v - bitsOf v hi lo * 2 ^ lo + x % 2 ^ (hi + 1 - lo) * 2 ^ lo

def setRegBits (s : State) (o hi lo x : Nat) : State :=
  setReg s o (BitVec.ofNat 32 (putBits (reg s o).toNat hi lo x))

/-- Add to a saturating counter field. -/
def countUp (s : State) (o hi lo n : Nat) : State :=
  setRegBits s o hi lo (min (regBits s o hi lo + n) (2 ^ (hi + 1 - lo) - 1))

/-- Add to a saturating 64-bit counter in a LO and a HI register. -/
def countUp64 (s : State) (lo hi n : Nat) : State :=
  let v := min ((reg s hi).toNat * 2 ^ 32 + (reg s lo).toNat + n) (2 ^ 64 - 1)
  setReg (setReg s lo (BitVec.ofNat 32 v)) hi (BitVec.ofNat 32 (v / 2 ^ 32))

/-- A register field that holds the larger of its value and `n`. -/
def raiseTo (s : State) (o hi lo n : Nat) : State :=
  setRegBits s o hi lo (max (regBits s o hi lo) (min n (2 ^ (hi + 1 - lo) - 1)))

/-- Write a 64-bit value to a LO and a HI register. -/
def setReg64 (s : State) (lo hi : Nat) (v : BitVec 64) : State :=
  setReg (setReg s lo (v.extractLsb' 0 32)) hi (v.extractLsb' 32 32)

/-- Write a 40-bit value to a LO and a HI register (R4). -/
def setReg40 (s : State) (lo hi : Nat) (v : Word) : State :=
  setReg (setReg s lo (v.extractLsb' 0 32)) hi ((v.extractLsb' 32 8).setWidth 32)

/-- A 40-bit value of a LO and a HI register (R4). -/
def reg40 (s : State) (lo hi : Nat) : Word :=
  ((reg s hi).extractLsb' 0 8 ++ reg s lo : BitVec 40)

def reg64 (s : State) (lo hi : Nat) : BitVec 64 := (reg s hi ++ reg s lo : BitVec 64)

/-! ### Status codes (R7) -/

abbrev Status := BitVec 8
def stOK : Status := 0x00
def stLateAbort : Status := 0x01
def stAborted : Status := 0x02
def stBadDescriptor : Status := 0x10
def stBadAddress : Status := 0x11
def stNoResource : Status := 0x12
def stDomainOff : Status := 0x20
def stCollided : Status := 0x21
def stUndefRead : Status := 0x22
def stEccUncorrected : Status := 0x23
def stAuthFail : Status := 0x30
def stVersionReject : Status := 0x31
def stTimeout : Status := 0x40
def stHoldActive : Status := 0x41
def stInternal : Status := 0xFF

/-- The status codes of R7. -/
def statusCodes : List Status :=
  [stOK, stLateAbort, stAborted, stBadDescriptor, stBadAddress, stNoResource, stDomainOff, stCollided, stUndefRead,
   stEccUncorrected, stAuthFail, stVersionReject, stTimeout, stHoldActive, stInternal]

/-- A status that reaches the device from outside it: one of R7, else INTERNAL. [log entry 148: DESIGN CHOICE] -/
def knownStatus (st : Status) : Status := if statusCodes.contains st then st else stInternal

/-- The first failing check of an ordered list (R9). -/
def firstFail : List (Bool × Status) → Option Status
  | [] => none
  | (bad, st) :: rest => if bad then some st else firstFail rest

/-! ### Interrupts, events and the Logbook -/

/-- A register of configuration space (R336). -/
def pciReg (o : Nat) : Nat := 0x110000 + o

/-- The function may send memory requests: Bus Master Enable is set, in D0 (R336, R340).
[log entries 58: PRESUMED; 182: PRESUMED] -/
def busMaster (s : State) : Bool := (reg s (pciReg 0x04)).getLsbD 2 && regBits s (pciReg 0x44) 1 0 == 0

/-- The message of a vector can be sent: MSI-X Enable is set, and neither Function Mask nor the vector's mask bit (R361).
[log entry 141: PRESUMED] -/
def vectorOpen (s : State) (v : BitVec 6) : Bool :=
  busMaster s && (reg s (pciReg 0x50)).getLsbD 31 && !(reg s (pciReg 0x50)).getLsbD 30 &&
  !(reg s (0x800C + 16 * v.toNat)).getLsbD 0

/-- Send an MSI-X message, or set the vector's pending bit (R361, R362). [log entry 141: PRESUMED] -/
def sendMsix (s : State) (v : BitVec 6) : State :=
  if vectorOpen s v then { s with msix := v :: s.msix }
  else { s with msixPend := s.msixPend ||| BitVec.ofNat 64 (2 ^ v.toNat) }

/-- Pending messages whose vectors have opened are sent. -/
def flushMsix (s : State) : State :=
  (List.range 64).foldl (fun s v =>
    if s.msixPend.getLsbD v && vectorOpen s (BitVec.ofNat 6 v) then
      sendMsix { s with msixPend := s.msixPend &&& ~~~(BitVec.ofNat 64 (2 ^ v)) } (BitVec.ofNat 6 v)
    else s) s

/-- An error is reported through AER: its status bit, and the device's error bits (R365).
[log entry 182: PRESUMED] -/
def aerNote (s : State) (bit : Nat) : State :=
  setRegBits (setRegBits s (pciReg 0x104) bit bit 1) (pciReg 0x78) 17 17 1

/-- Set a bit of HIF_EVENT; its message is sent when it sets while enabled (R362). -/
def hifEvent (s : State) (bit : Nat) : State :=
  if (reg s 0x1008).getLsbD bit then s
  else
    let t := setRegBits s 0x1008 bit bit 1
    if (reg s 0x100C).getLsbD bit then sendMsix t 0 else t

/-- SOURCE of a Logbook entry (R421). -/
def logSource (block inst : Nat) : BitVec 16 := BitVec.ofNat 16 (block * 256 + inst % 256)

/-- Append an entry; the latest 16,384 are kept, newest first (R423). -/
def appendLog (s : State) (e : LogEntry) : State :=
  { s with log := (e :: s.log).take 16384, logNext := s.logNext + 1 }

/-- Ticks of a millisecond: an entry of the same SOURCE and EVENT within it is folded (R423). -/
def msTicks : Nat := 262144

/-- A suppression period ends: the entries folded into it are recorded in one SUPPRESSED entry (R423). -/
def endFold (s : State) (source event : BitVec 16) : State :=
  match s.folded.find? (fun f => f.1 == source && f.2.1 == event) with
  | some f =>
    let t := if f.2.2.2 = 0 then s else appendLog s { epoch := s.epoch, source, event := 0x0003, status := stOK,
                                                      detail := BitVec.ofNat 24 f.2.2.2 }
    { t with folded := t.folded.filter (fun g => !(g.1 == source && g.2.1 == event)) }
  | none => s

/-- More than a millisecond passes within a command: every suppression period ends. [log entry 95: DESIGN CHOICE] -/
def endFolds (s : State) : State := s.folded.foldl (fun s f => endFold s f.1 f.2.1) s

/-- Write a Logbook entry, or fold it into an open suppression period (R423). -/
def logEvent (s : State) (source event : BitVec 16) (status : Status) (detail : BitVec 24) : State :=
  match s.folded.find? (fun f => f.1 == source && f.2.1 == event) with
  | some f =>
    if (s.epoch - f.2.2.1).toNat < msTicks then
      { s with folded := s.folded.map (fun g =>
          if g.1 == source && g.2.1 == event then (g.1, g.2.1, g.2.2.1, g.2.2.2 + 1) else g) }
    else
      let t := if f.2.2.2 = 0 then s else appendLog s { epoch := s.epoch, source, event := 0x0003, status := stOK,
                                                        detail := BitVec.ofNat 24 f.2.2.2 }
      let t := appendLog t { epoch := s.epoch, source, event, status, detail }
      { t with folded := t.folded.map (fun g =>
          if g.1 == source && g.2.1 == event then (source, event, s.epoch, 0) else g) }
  | none =>
    let t := appendLog s { epoch := s.epoch, source, event, status, detail }
    { t with folded := (source, event, s.epoch, 0) :: t.folded }

/-- SOURCE of an entry about a register: the block and instance that the register belongs to (R421).
[log entry 78: DESIGN CHOICE] -/
def regSource (o : Nat) : BitVec 16 :=
  if o < 0x1000 then 0
  else if o < 0x2000 then logSource 0x08 0
  else if o < 0x10000 then logSource 0x08 (o % 0x1000 / 0x40)
  else if o < 0x20000 then logSource 0x02 ((o - 0x10000) / 0x1000)
  else if o < 0x22000 then logSource 0x04 ((o - 0x20000) / 0x80)
  else if o < 0x30000 then logSource 0x05 ((o - 0x22000) / 0x20)
  else if o < 0x40000 then logSource 0x03 0
  else if o < 0x50000 then logSource 0x06 0
  else if o < 0x60000 then logSource 0x07 0
  else if o < 0x70000 then logSource 0x0A 0
  else if o < 0x74000 then logSource 0x09 0
  else if o < 0x80000 then logSource 0x0B 0
  else if o < 0x90000 then logSource 0x0D 0
  else if o < 0x100000 then 0
  else logSource 0x01 ((o - 0x100000) / 0x400)

/-- Ticks of an hour. -/
def hourTicks : Nat := 3600000 * msTicks

/-- Events of the past hour. -/
def pastHour (s : State) (l : List (BitVec 16 × BitVec 64)) : List (BitVec 16 × BitVec 64) :=
  l.filter (fun e => (s.epoch - e.2).toNat < hourTicks)

/-- An uncorrectable error of a store quadrant or a course (R419), and a corrected error of a course (R405). -/
def noteUncorr (s : State) (source : BitVec 16) : State := { s with uncorr := (source, s.epoch) :: pastHour s s.uncorr }
def noteCorr (s : State) (source : BitVec 16) : State := { s with corr := (source, s.epoch) :: pastHour s s.corr }

/-- Record an ignored register write (R5): DETAIL holds the BAR0 offset. [log entry 78: DESIGN CHOICE] -/
def regWarn (s : State) (o : Nat) : State :=
  logEvent s (match regLayout o with | some _ => regSource o | none => 0) 0x0002 stOK (BitVec.ofNat 24 o)

/-- Record an ignored register-access packet write, with its target as SOURCE (R422). -/
def regWarnAt (s : State) (source : BitVec 16) (o : Nat) : State :=
  logEvent s source 0x0002 stOK (BitVec.ofNat 24 o)

/-- Mode codes of HIF_STATUS (R366). -/
def modeCode : Mode → Nat
  | .off => 0 | .standby => 1 | .boot => 2 | .calibrate => 3 | .hold => 4 | .idle => 5 | .run => 6 | .service => 7
  | .sentinel => 8 | .halt => 9 | .sleep => 10 | .erase => 11

/-- READY is high in HOLD after a clean boot and in IDLE, RUN, SERVICE and HALT (R368). -/
def readyPin (s : State) : Bool := match s.mode with
  | .hold => (reg s 0x60000).getLsbD 14 && !s.refused
  | .idle | .run | .service | .halt => true
  | _ => false

/-- READY and SENTINEL_N follow the mode: SENTINEL_N goes low in SENTINEL and high on entry to HOLD (R402, R403). -/
def settlePins (s : State) : State :=
  { s with pins := { s.pins with ready := readyPin s, sentinelN := match s.mode with
      | .sentinel => false
      | .hold => true
      | _ => s.pins.sentinelN } }

/-- Change the operating mode: recorded in the Logbook, and HIF_EVENT.MODE_CHANGE sets (R20, R366). -/
def setMode (s : State) (m : Mode) : State :=
  if s.mode = m then settlePins s
  else
    let old := modeCode s.mode
    let t := hifEvent (settlePins { s with mode := m }) 4
    let t := setRegBits t 0x1004 3 0 (modeCode m)
    logEvent t 0 0x0001 stOK (BitVec.ofNat 24 (modeCode m + 16 * old))

/-! ### Faults (R419) -/

/-- FAULT_N is low while a fault is present or a boot attempt has failed (R368, R419). -/
def settleFaultN (s : State) : State :=
  { s with pins := { s.pins with faultN := s.faults.isEmpty && !s.bootFailed } }

def raiseFault (s : State) (f : FaultRow) : State :=
  settleFaultN (if s.faults.contains f then s else { s with faults := f :: s.faults })

def clearFault (s : State) (f : FaultRow) : State :=
  settleFaultN { s with faults := s.faults.filter (fun g => g != f) }

/-- Set a bit of SVC_ALERT (R424). [log entry 40: DEDUCED] -/
def svcAlert (s : State) (bit : Nat) : State := setRegBits s 0x70004 bit bit 1

/-- Number of a row of R419's table, from 1. -/
def faultNumber : FaultRow → Nat
  | .link => 1 | .thermal => 2 | .domain => 3 | .group => 4 | .ecc => 5 | .lfClock => 6 | .watchdog => 7

/-- A fault of R419 is found: recorded, FAULT_N low, SVC_ALERT.FAULT set. -/
def foundFault (s : State) (f : FaultRow) (source : BitVec 16) : State :=
  raiseFault (svcAlert (logEvent s source 0x0045 stInternal (BitVec.ofNat 24 (faultNumber f))) 3) f

/-! ### Descriptors (R349) -/

/-- `n` little-endian bytes of a descriptor from byte offset `o`. -/
def dle (d : Desc) (o n : Nat) : Nat := (d.bytes.toNat >>> (8 * o)) % 2 ^ (8 * n)

def descTag (d : Desc) : BitVec 32 := BitVec.ofNat 32 (dle d 4 4)
def descType (d : Desc) : Nat := dle d 0 1
def descIrq (d : Desc) : Bool := (dle d 1 1).testBit 0
def descCode (d : Desc) : Nat := dle d 2 2

/-- Register offsets of a submission ring, a completion ring and a stream ring (R366). -/
def sqBase (n : Nat) : Nat := 0x2000 + n * 0x40
def cqBase (m : Nat) : Nat := 0x3000 + m * 0x40
def stBase (n : Nat) : Nat := 0x4000 + n * 0x40

/-- Put a completion into the queue of a completion ring; a 257th is dropped, counted and recorded (R357).
[log entry 36: DESIGN CHOICE] -/
def pushCompletion (s : State) (m : Fin 64) (c : Completion) : State :=
  let q := s.cq[m]
  if q.held.length < 256 then
    { s with cq := s.cq.set m { q with held := q.held ++ [c] } }
  else
    let t := { s with cq := s.cq.set m { q with overrun := true } }
    let t := countUp t (cqBase m + 0x18) 31 16 1
    let t := logEvent t (logSource 0x08 m) 0x0062 stNoResource (BitVec.ofNat 24 m)
    hifEvent t 1

/-- Remove the oldest descriptor equal to `d` from the accepted ones. -/
def dropDesc (d : Desc) : List Desc → List Desc
  | [] => []
  | x :: xs => if x = d then xs else x :: dropDesc d xs

/-- A STARTUP descriptor of the admin pass ended badly: the first such end is kept (R368).
[log entry 95: DESIGN CHOICE] -/
def noteStartup (s : State) (st : Status) (detail : BitVec 24) : State :=
  match s.bootPass with
  | some p => if st = stOK ∨ st = stLateAbort ∨ p.bad.isSome then s
      else { s with bootPass := some { p with bad := some (st, detail) } }
  | none => s

/-- Post a descriptor's completion to the ring that its submission ring names (R357); those of STARTUP go to the Logbook
(R378). -/
def postCompletion (s : State) (d : Desc) (c : Completion) : State :=
  if d.startup then noteStartup (logEvent s (logSource 0x09 0) 0x0030 c.status c.detail) c.status c.detail
  else pushCompletion s (s.sq[Fin.ofNat 64 d.ring.toNat]).cq c

/-- The completion of a descriptor that is no kernel. -/
def completionOf (d : Desc) (status : Status) (detail : BitVec 24) (result : BitVec 64) : Completion :=
  { tag := descTag d, status, ring := d.ring.setWidth 8, type := BitVec.ofNat 8 (descType d), cflags := 0, detail,
    extra := 0, result, irq := descIrq d }

/-- The ABORTs that waited for a target complete with OK after its completion (R356). -/
def releaseAborts (s : State) (target : Desc) : State :=
  let ws := s.abortWaits.filter (fun w => w.2 == target)
  ws.foldl (fun s w => postCompletion { s with accepted := dropDesc w.1 s.accepted } w.1 (completionOf w.1 stOK 0 0))
    { s with abortWaits := s.abortWaits.filter (fun w => w.2 != target) }

/-- Deliver a descriptor's completion (R356, R357). -/
def deliverCompletion (s : State) (d : Desc) (c : Completion) : State := releaseAborts (postCompletion s d c) d

/-- Complete a descriptor (R357). -/
def complete (s : State) (d : Desc) (status : Status) (detail : BitVec 24) (result : BitVec 64) : State :=
  deliverCompletion { s with accepted := dropDesc d s.accepted } d (completionOf d status detail result)

/-- Complete a descriptor with a status alone. -/
def completeSt (s : State) (d : Desc) (status : Status) : State := complete s d status 0 0

/-- BAD_DESCRIPTOR detail: byte offset of the first offending field and the cause (R363). [log entry 49: DEDUCED] -/
def badDetail (off cause : Nat) : BitVec 24 := BitVec.ofNat 24 (off + 256 * cause)

/-- Free values of the step: read one index of the counter. [log entry 131: DESIGN CHOICE] -/
def takeFree (s : State) : Nat × State := (s.free, { s with free := s.free + 1 })

/-! ### Bows and contexts -/

def bow (s : State) (b : Fin 16) : Bow := s.bows[b]
def setBow (s : State) (b : Fin 16) (v : Bow) : State := { s with bows := s.bows.set b v }
def ctxOf (w : Bow) : Ctx → Context
  | .n => w.n
  | .u => w.u
def putCtx (w : Bow) (c : Ctx) (v : Context) : Bow :=
  match c with
  | .n => { w with n := v }
  | .u => { w with u := v }
def ctx (s : State) (b : Fin 16) (c : Ctx) : Context := ctxOf (bow s b) c
def setCtx (s : State) (b : Fin 16) (c : Ctx) (v : Context) : State := setBow s b (putCtx (bow s b) c v)

/-- BAR0 offset of a register of bow b. -/
def bowReg (b : Fin 16) (o : Nat) : Nat := 0x10000 + b.val * 0x1000 + o

/-- Key of a register of the file of logical course c. -/
def crsReg (c : Fin 64) (o : Nat) : Nat := 0x100000 + c.val * 0x400 + o

def course (s : State) (c : Fin 64) : CourseSt := s.courses[c]
def setCourse (s : State) (c : Fin 64) (v : CourseSt) : State := { s with courses := s.courses.set c v }
def chan (s : State) (c : Fin 64) (n : Fin 4) : Chan := (course s c).chans[n]
def setChan (s : State) (c : Fin 64) (n : Fin 4) (v : Chan) : State :=
  setCourse s c { course s c with chans := (course s c).chans.set n v }

/-- Logical course at column x and row y of the course grid (R1). -/
def courseAt (x y : Nat) : Fin 64 := Fin.ofNat 64 (y * 8 + x)

/-- Courses of a rectangle, row by row. -/
def rectCourses (r : Rect) : List (Fin 64) :=
  (List.range r.h).flatMap (fun j => (List.range r.w).map (fun i => courseAt (r.x0.toNat + i) (r.y0.toNat + j)))

/-- Whether a logical course lies in a rectangle. -/
def inRect (r : Rect) (c : Fin 64) : Bool := (rectCourses r).contains c

/-- Apply a function to every course of a list. -/
def forCourses (s : State) (cs : List (Fin 64)) (f : State → Fin 64 → State) : State := cs.foldl f s

/-- Whether debug access is open: always but in FIELD until unlocked and in RETIRED (R434, R386). -/
def debugOpen (s : State) : Bool :=
  let lc := regBits s 0x60030 2 0
  if lc = 2 then (reg s 0x90000).getLsbD 2 else lc != 4

/-! ### RUN, IDLE and SERVICE (R397) -/

/-- A context of some bow holds a kernel. -/
def anyKernel (s : State) : Bool := s.bows.toList.any (fun w => w.n.job.isSome || w.u.job.isSome)

/-- The gain now as a fraction (R413, R415): RAMP_UP_MS and RAMP_MS are in GUARD_RAMP. -/
def gainAt (s : State) : Nat × Nat :=
  match s.guard.ramp with
  | none => (s.guard.num, s.guard.den)
  | some r =>
    let now := match s.guard.heldAt with
      | some h => h
      | none => s.epoch
    let dt := (now - r.t0).toNat
    if r.up then
      let d := regBits s 0x74014 27 14 * msTicks
      if dt ≥ d then (1, 1) else (dt, d)
    else
      let d := regBits s 0x74014 13 0 * msTicks
      if dt ≥ d then (0, 1) else (s.guard.num * (d - dt), s.guard.den * d)

/-- RUN, IDLE or SERVICE as R397 decides, in a mode of that set; other modes stay. -/
def settleMode (s : State) : State :=
  match s.mode with
  | .idle | .run | .service =>
    if regBits s 0x70000 8 5 ≠ 0 then setMode s .service
    else if anyKernel s || ((reg s 0x74010) != 0 && (gainAt s).1 != 0) then setMode s .run
    else setMode s .idle
  | _ => s

/-- START_OUTPUTS or AUTOSTART has taken effect since the last reset (R21). [log entry 64: DEDUCED] -/
def outputsStarted (s : State) : Bool := (reg s 0x70000).getLsbD 4

/-! ### The Guard's ramp (R333, R415, R416) -/

/-- Offset of a register of event timer t (R335). -/
def etReg (t : Fin 16) (o : Nat) : Nat := 0x51000 + t.val * 0x40 + o

/-- Guarded timers take SAFE_CMP as their compare, which arms the match (R330, R333). -/
def forceTimers (s : State) : State :=
  (List.finRange 16).foldl (fun s t =>
    if (reg s (etReg t 0)).getLsbD 26 then
      let s := setReg40 s (etReg t 0x14) (etReg t 0x18) (reg40 s (etReg t 0x38) (etReg t 0x3C))
      setRegBits (setRegBits s (etReg t 0x34) 6 6 1) (etReg t 0x34) 7 7 1
    else s) s

/-- Start a ramp down from the present gain with a cause (R415, R416); a ramp in progress goes on unchanged, except
that an abort takes over from a soft stop. -/
def startRamp (s : State) (cause channel : Nat) : State :=
  let t := logEvent s (logSource 0x0B 0) 0x0050 stOK (BitVec.ofNat 24 (cause + 256 * channel))
  let ramping := regBits s 0x74000 2 1 = 2 ∧ regBits s 0x74000 7 4 ≠ 9
  if ramping then t
  else
    let g := gainAt s
    let t := { t with guard := { t.guard with num := g.1, den := g.2, ramp := some { up := false, t0 := s.epoch },
                                              heldAt := none } }
    let t := setRegBits (setRegBits (setRegBits t 0x74000 2 1 2) 0x74000 7 4 cause) 0x74000 11 8 channel
    let t := setReg64 (setRegBits t 0x74000 3 3 0) 0x74008 0x7400C s.epoch
    forceTimers t

/-! ### Halting (R437, R438) -/

/-- A context stops; a preempted one stays preempted. -/
def haltCtx (c : Context) : Context :=
  match c.run with
  | .running | .stalled => { c with run := .halted, stepping := false }
  | _ => c

/-- With a halted bow the device is in HALT, from the modes that R398 names; active outputs stop softly (R416). -/
def enterHalt (s : State) : State :=
  match s.mode with
  | .idle | .run | .service =>
    let active : Bool := (gainAt s).1 != 0
    let s := setMode { s with before := s.mode } .halt
    if active then startRamp s 9 0 else s
  | _ => s

/-- A bow halts: DBG_HIT names the source, the index and the address. -/
def haltBow (s : State) (b : Fin 16) (source index addr : Nat) : State :=
  let w := bow s b
  let s := setBow s b { w with n := haltCtx w.n, u := haltCtx w.u }
  let s := setRegBits s 0x90010 b.val b.val 1
  enterHalt (setReg s (0x90118 + b.val * 0x40) (BitVec.ofNat 32 (source + 8 * index + 64 * addr)))

end Sys2Proof.Machine
end

