-- ==== Sys2Proof/Machine/Operands.lean ====
section
/-! DEFINITION. The instruction word, the operand modes and their checks (R90 to R100, R103, R112, R113, R115). -/

namespace Sys2Proof.Machine

/-! ### The word (R90) -/

/-- The 80-bit word of an opcode and the fields of an issued instruction. -/
def encodeWord (op : BitVec 8) (x : Issue) : IWord :=
  x.cond ++ op ++ x.width ++ x.dst ++ x.src1 ++ x.src2 ++ x.invert ++ x.hint

/-- The fields of an 80-bit word as an issue of context `c` of bow `b`. -/
def decodeWord (b : Fin 16) (c : Ctx) (w : IWord) : BitVec 8 × Issue :=
  (w.extractLsb' 68 8,
   { bow := b, ctx := c, cond := w.extractLsb' 76 4, width := w.extractLsb' 62 6, dst := w.extractLsb' 42 20,
     src1 := w.extractLsb' 22 20, src2 := w.extractLsb' 2 20, invert := w.extractLsb' 1 1, hint := w.extractLsb' 0 1 })

/-- Mode and field of an operand specification. -/
def modeOf (o : BitVec 20) : Nat := (o.extractLsb' 16 4).toNat
def fieldOf (o : BitVec 20) : BitVec 16 := o.extractLsb' 0 16

/-- Operand width: 0 means 64 (R90). -/
def widthOf (x : Issue) : Nat := if x.width = 0 then 64 else x.width.toNat

/-! ### What the instruction tables permit (R92 to R94, R122, R131, R137, R143, R150, R154) -/

/-- Classes of R92. -/
inductive OpClass | array | scalar | control | system
deriving DecidableEq, Repr

/-- Bit k set: mode k permitted; 0: the position is not used and must be zero. Bit 9: mode 5 naming an A register. -/
structure OpSpec where
  cls  : OpClass
  dst  : Nat
  src1 : Nat
  src2 : Nat
  /-- permitted widths, or none where the entry gives no width -/
  wlo  : Nat
  whi  : Nat
deriving DecidableEq, Repr

def mM : Nat := 0x003
def mP : Nat := 0x004
def mL : Nat := 0x018
def mS : Nat := 0x020
def mI : Nat := 0x040
def mK : Nat := 0x080
def mT : Nat := 0x100
def mA : Nat := 0x200
/-- Any source mode of the array class, and of the scalar class. -/
def mAny : Nat := 0x1FF
def mSAny : Nat := mS + mI + mM
/-- Source modes of the FP40 group: M P L S T. -/
def mFp : Nat := mM + mP + mL + mS + mT

def arr (dst src1 src2 wlo whi : Nat) : OpSpec := { cls := .array, dst, src1, src2, wlo, whi }
def sca (dst src1 src2 wlo whi : Nat) : OpSpec := { cls := .scalar, dst, src1, src2, wlo, whi }
def con (dst src1 src2 : Nat) : OpSpec := { cls := .control, dst, src1, src2, wlo := 0, whi := 0 }
def sys (dst src1 src2 : Nat) : OpSpec := { cls := .system, dst, src1, src2, wlo := 0, whi := 0 }

/-- The table entry of an opcode; none where it is not assigned (R117). -/
def opSpec (op : Nat) : Option OpSpec :=
  if op ≤ 0x03 ∨ (0x06 ≤ op ∧ op ≤ 0x0D) then some (arr mM mAny mAny 1 64)
  else if op = 0x04 ∨ op = 0x05 then some (arr mM mAny 0 1 64)
  else if 0x10 ≤ op ∧ op ≤ 0x15 then some (arr (mK + mM) mAny mAny 1 64)
  else if (0x18 ≤ op ∧ op ≤ 0x1A) ∨ op = 0x1C ∨ op = 0x1D then some (arr mM mAny mAny 1 64)
  else if 0x20 ≤ op ∧ op ≤ 0x26 then some (arr (mM + mK) mAny mAny 1 64)
  else if op = 0x27 then some (arr (mM + mK) mAny 0 1 64)
  else if 0x30 ≤ op ∧ op ≤ 0x33 then some (arr mM mAny (mS + mI) 1 64)
  else if op = 0x38 then some (arr 0 mAny mAny 1 14)
  else if op = 0x39 then some (arr (mM + mK) 0 0 1 16)
  else if op = 0x3A ∨ op = 0x3C then some (arr 0 mAny 0 1 1)
  else if op = 0x3B ∨ op = 0x3D then some (arr (mM + mK) 0 0 1 1)
  else if (0x40 ≤ op ∧ op ≤ 0x43) ∨ op = 0x45 ∨ op = 0x48 ∨ op = 0x49 then some (arr mM mFp mFp 40 40)
  else if op = 0x44 ∨ op = 0x46 ∨ op = 0x47 ∨ op = 0x58 then some (arr mM mFp 0 40 40)
  else if 0x4A ≤ op ∧ op ≤ 0x4D then some (arr (mK + mM) mFp mFp 40 40)
  else if op = 0x50 ∨ op = 0x51 then some (arr mM (mAny - mK) 0 1 64)
  else if op = 0x52 ∨ op = 0x53 then some (arr mM mFp 0 1 64)
  else if op = 0x54 ∨ op = 0x55 then some (arr mM mFp 0 32 32)
  else if op = 0x56 then some (arr mM (mM + mP + mL) 0 64 64)
  else if op = 0x57 then some (arr mM mFp 0 64 64)
  else if op = 0x60 then some (arr (mM + mK) mAny 0 1 64)
  else if op = 0x61 ∨ op = 0x62 then some (arr mM mAny mI 1 64)
  else if op = 0x70 then some (arr mS mAny 0 1 40)
  else if op = 0x71 then some (arr 0 mAny 0 1 64)
  else if op = 0x72 then some (arr mS mAny mS 1 40)
  else if op = 0x73 then some (arr mS mAny 0 1 1)
  else if op = 0x74 ∨ op = 0x75 then some (arr mS mAny 0 1 64)
  else if op = 0x78 ∨ op = 0x79 then some (arr 0 0 0 0 0)
  else if (0x80 ≤ op ∧ op ≤ 0x83) ∨ (0x86 ≤ op ∧ op ≤ 0x89) ∨ (0x90 ≤ op ∧ op ≤ 0x9A) then
    some (sca (mS + mM) mSAny mSAny 1 40)
  else if op = 0x84 ∨ op = 0x8A then some (sca (mS + mM) mSAny 0 1 40)
  else if op = 0x85 ∨ op = 0x8B then some (sca 0 mSAny mSAny 1 40)
  else if op = 0x9C then some (sca mS mSAny mSAny 1 40)
  else if (0xA0 ≤ op ∧ op ≤ 0xA3) ∨ op = 0xA6 ∨ op = 0xA7 then some (sca (mS + mM) (mS + mM) (mS + mM) 40 40)
  else if op = 0xA4 ∨ op = 0xA9 ∨ op = 0xAA then some (sca (mS + mM) (mS + mM) 0 40 40)
  else if op = 0xA5 then some (sca 0 (mS + mM) (mS + mM) 40 40)
  else if op = 0xA8 then some (sca mS (mS + mM) (mS + mM) 40 40)
  else if op = 0xAB then some (sca (mS + mM) (mS + mM) 0 1 40)
  else if op = 0xAC ∨ op = 0xB0 ∨ op = 0xB1 then some (sca (mS + mM) mSAny 0 1 40)
  else if op = 0xB2 then some (sca mS mI 0 0 0)
  else if op = 0xB4 then some (sca 0 (mS + mI) 0 0 0)
  else if op = 0xB5 then some (sca (mS + mM) 0 0 0 0)
  else if op = 0xB8 then some (sca mA (mA + mI) 0 0 0)
  else if op = 0xB9 then some (sca mA (mA + mI) (mA + mI) 0 0)
  else if op = 0xBA then some (sca 0 (mA + mI) (mA + mI) 0 0)
  else if op = 0xBB then some (sca mS mA 0 0 0)
  else if op = 0xBC then some (sca mA mS 0 0 0)
  else if op = 0xC0 ∨ op = 0xC2 ∨ op = 0xCE ∨ op = 0xCF then some (con 0 mI 0)
  else if op = 0xC1 ∨ op = 0xC3 then some (con 0 mS 0)
  else if op = 0xC4 ∨ op = 0xC6 ∨ op = 0xCC then some (con 0 0 0)
  else if op = 0xC5 then some (con mA mI 0)
  else if op = 0xC8 then some (con 0 (mS + mI) 0)
  else if op = 0xE0 ∨ op = 0xE4 ∨ op = 0xEF then some (sys 0 0 0)
  else if op = 0xE1 then some (sys mS mI 0)
  else if op = 0xE2 then some (sys 0 (mS + mI) mI)
  else if op = 0xE3 then some (sys mS 0 0)
  else if op = 0xE5 then some (sys (mS + mM) mS 0)
  else if op = 0xE6 then some (sys 0 mS (mS + mI + mM))
  else if op = 0xE7 ∨ op = 0xE8 ∨ op = 0xE9 then some (sys mS mS (mS + mI))
  else if op = 0xEA then some (sys mS mS 0)
  else if op = 0xEB then some (sys 0 mS (mS + mI))
  else if op = 0xEC then some (sys 0 mI mS)
  else none

/-- The opcode that the fetched word holds: the constructor's, or an unassigned one (R116, R117). -/
def opOf (op : Nat) (x : Issue) : Nat :=
  match x.raw with
  | some o => if (opSpec o.toNat).isNone then o.toNat else op
  | none => op

/-! ### Reserved fields (R91, R94, R97, R99) -/

/-- An operand specification in a position with this mode set is free of reserved values. -/
def operandOk (set : Nat) (o : BitVec 20) : Bool :=
  if set = 0 then o == 0
  else
    let m := modeOf o
    let f := (fieldOf o).toNat
    match m with
    | 0 => set.testBit 0 && f < 0x4000
    | 1 => set.testBit 1
    | 2 => set.testBit 2 && f < 0x4000
    | 3 => set.testBit 3
    | 4 => set.testBit 4 && bitsOf f 13 11 != 0
    | 5 => (set.testBit 5 && f < 16) || (set.testBit 9 && f < 8)
    | 6 => set.testBit 6
    | 7 => set.testBit 7 && f < 8
    | 8 => set.testBit 8 && f < 4
    | _ => false

/-- Source pairs that R99 permits. -/
def pairOk (a b : Nat) : Bool :=
  let link := fun m => m == 3 || m == 4 || m == 8
  let bc := fun m => m == 5 || m == 6
  !((link a && link b) || (bc a && bc b) || (a == 7 && b == 7))

/-- Signed value of a 16-bit immediate. -/
def immInt (o : BitVec 20) : Int := (fieldOf o).toInt
def immNat (o : BitVec 20) : Nat := (fieldOf o).toNat

/-- Reserved values that single entries name beside their table row. -/
def entryOk (op : Nat) (x : Issue) : Bool :=
  if (0x18 ≤ op ∧ op ≤ 0x1D) ∧ (modeOf x.src1 = 8 ∨ modeOf x.src2 = 8) then widthOf x ≤ 40
  else if op = 0x61 ∨ op = 0x62 then 1 ≤ immNat x.src2 && immNat x.src2 ≤ widthOf x
  else if op = 0xC8 then x.dst.toNat < 2
  else if op = 0xCF then immNat x.src1 < 2
  else if op = 0xE3 then (fieldOf x.dst).toNat < 15
  else if op = 0xE1 then immNat x.src1 ≤ 10
  else if op = 0xE2 then immNat x.src2 ≤ 4
  else if op = 0xEC then immNat x.src1 ≤ 8
  else true

/-- Row 3 of R115 for one instruction: condition with the class, invert, hint, width, operands, pairing. -/
def fieldsOk (op : Nat) (sp : OpSpec) (x : Issue) : Bool :=
  let perPe : Bool := 1 ≤ x.cond.toNat && x.cond.toNat ≤ 7
  (!perPe || sp.cls == .array) &&
  (x.invert == 0 || perPe) &&
  (x.hint == 0 || op == 0xC0 || op == 0xC1 || op == 0xC5) &&
  (if sp.whi = 0 then x.width == 0 else decide (sp.wlo ≤ widthOf x ∧ widthOf x ≤ sp.whi)) &&
  (if op = 0xC8 then true else operandOk sp.dst x.dst) &&
  operandOk sp.src1 x.src1 && operandOk sp.src2 x.src2 &&
  (sp.cls != .array || sp.src1 == 0 || sp.src2 == 0 || pairOk (modeOf x.src1) (modeOf x.src2)) &&
  entryOk op x

/-- The REP rule of R108: an assigned control-flow or system opcode after a REP. -/
def repFollowBad (w : IWord) : Bool :=
  match opSpec (w.extractLsb' 68 8).toNat with
  | some sp => sp.cls == .control || sp.cls == .system
  | none => false

/-! ### Conditions (R103) -/

/-- Whether a scalar condition holds; AL and per-PE conditions never skip. -/
def condHolds (cond : BitVec 4) (bf : BitVec 10) : Bool :=
  match cond.toNat with
  | 0x8 => bf.getLsbD 0
  | 0x9 => !bf.getLsbD 0
  | 0xA => bf.getLsbD 1 ^^ bf.getLsbD 3
  | 0xB => !(bf.getLsbD 1 ^^ bf.getLsbD 3)
  | 0xC => bf.getLsbD 2
  | 0xD => !bf.getLsbD 2
  | 0xE => bf.getLsbD 4
  | 0xF => !bf.getLsbD 4
  | _ => true

/-! ### Addresses (R95 to R97) -/

/-- Base of a DIRECT, INDEXED, NEIGHBOUR or OCTAVE array operand. -/
def planeBase (a : Vector AWord 8) (o : BitVec 20) : Int :=
  let f := fieldOf o
  match modeOf o with
  | 0 => f.toNat
  | 1 => (a[(f.extractLsb' 13 3).toNat]'(f.extractLsb' 13 3).isLt).toNat + (f.extractLsb' 0 13).toInt
  | 3 => (f.extractLsb' 0 14).toNat
  | 4 => (a[(f.extractLsb' 8 3).toNat]'(f.extractLsb' 8 3).isLt).toNat + (f.extractLsb' 0 8).toNat
  | _ => 0

/-- The modes whose planes R95 and R97 check. -/
def checkedMode (o : BitVec 20) : Bool :=
  match modeOf o with
  | 0 | 1 | 3 | 4 => true
  | _ => false

/-- A field of `n` planes fits. -/
def planesOk (a : Vector AWord 8) (o : BitVec 20) (n : Nat) : Bool :=
  !checkedMode o || (0 ≤ planeBase a o && planeBase a o + n ≤ 16384)

/-- Data-memory address of a scalar DIRECT or INDEXED operand. -/
def wordAddr (a : Vector AWord 8) (o : BitVec 20) : Int := planeBase a o

def isMem (o : BitVec 20) : Bool := modeOf o == 0 || modeOf o == 1

/-- Widths in planes of destination, first and second source of an array instruction (R93, R126 to R128, R131). The source of
SEXT and ZEXT is checked over all w planes. [log entry 153: DESIGN CHOICE] -/
def arrayWidths (op : Nat) (x : Issue) : Nat × Nat × Nat :=
  let w := widthOf x
  if (0x10 ≤ op ∧ op ≤ 0x15) ∨ (0x4A ≤ op ∧ op ≤ 0x4D) then (1, w, w)
  else if 0x18 ≤ op ∧ op ≤ 0x1D then (2 * w, w, w)
  else if op = 0x50 ∨ op = 0x51 then (40, w, 0)
  else if op = 0x52 ∨ op = 0x53 then (w, 40, 0)
  else if op = 0x54 then (40, 32, 0)
  else if op = 0x55 then (32, 40, 0)
  else if op = 0x56 then (40, 64, 0)
  else if op = 0x57 then (64, 40, 0)
  else (w, w, w)

end Sys2Proof.Machine
end

