-- ==== Sys2Proof/Machine/Array.lean ====
section
/-! DEFINITION. The PE array: planes and flags by key, operand sources with links and boundaries, plane writes with
their undo entries, and the two shapes of a routine, direct and from scratch (R23 to R33, R37 to R41, R50, R94 to R102). -/

namespace Sys2Proof.Machine

/-! ### Keys of `State.pe`: planes 0 to 16383, then the flags, LAR, the context save latch, the micro-scratch banks and the
working bits of the microcode (R23, R74, R193, R200) -/

def keyC : Nat := 16384
def keyX : Nat := 16385
/-- F1 to F7. -/
def keyF (k : Nat) : Nat := 16385 + k
/-- IV, DZ, OF, UF, IX for i = 0 to 4. -/
def keySticky (i : Nat) : Nat := 16393 + i
/-- Bit i of LAR. -/
def keyLar (i : Nat) : Nat := 16398 + i
/-- The 28 saved items stand at 16384 to 16411, their latch copies 28 keys above. -/
def latchOffset : Nat := 28
/-- Bit i of the micro-scratch bank of a context (R200). -/
def keyScratch (c : Ctx) (i : Nat) : Nat := 16440 + (match c with | .n => 0 | .u => 128) + i
/-- The working bits WC and WX of a context (R200). -/
def keyWc (c : Ctx) : Nat := 16696 + (match c with | .n => 0 | .u => 2)
def keyWx (c : Ctx) : Nat := 16697 + (match c with | .n => 0 | .u => 2)
/-- The overflow latch O (R193), and the PEs in which its value is not defined. -/
def keyO : Nat := 16700
def keyOLost : Nat := 16701

/-! ### Masks -/

/-- A one at the first column of each of `h` rows. -/
def repRows (h : Nat) : Nat := (2 ^ (256 * h) - 1) / (2 ^ 256 - 1)

/-- PEs of a rectangle of PEs. -/
def peRect (x y w h : Nat) : Plane := BitVec.ofNat 65536 ((2 ^ w - 1) * repRows h * 2 ^ (y * 256 + x))

/-- PEs of a logical course (R1). -/
def courseMask (c : Fin 64) : Plane := peRect (c.val % 8 * 32) (c.val / 8 * 32) 32 32

/-- PEs of a group. -/
def groupMask (r : Rect) : Plane := peRect (r.x0.toNat * 32) (r.y0.toNat * 32) (r.w * 32) (r.h * 32)

/-- Indices of the PEs of a group, row by row. -/
def groupPes (r : Rect) : List Nat :=
  (List.range (r.h * 32)).flatMap (fun j =>
    (List.range (r.w * 32)).map (fun i => (r.y0.toNat * 32 + j) * 256 + r.x0.toNat * 32 + i))

/-- Position of local PE index j of a course in a plane, in ROW or COLUMN order (R46). -/
def localPe (c : Fin 64) (column : Bool) (j : Nat) : Nat :=
  let x := if column then j / 32 else j % 32
  let y := if column then j % 32 else j / 32
  (c.val / 8 * 32 + y) * 256 + c.val % 8 * 32 + x

/-- Take the bits of `v` where `m` is 1, of `o` elsewhere. -/
def blend (m o v : Plane) : Plane := (o &&& ~~~m) ||| (v &&& m)

/-! ### Stored bits and errors (R31 to R33) -/

/-- The plane of stored-bit differences of the errors that `p` selects, at a plane address. -/
def errPlane (es : List PeError) (p : PeError → Bool) (a : Nat) : Plane :=
  es.foldl (fun acc e =>
    if e.plane.toNat = a ∧ p e then
      let rows := fun (r : Nat) => BitVec.ofNat 65536 (bitsOf e.flip.toNat (32 * r + 31) (32 * r)) <<<
        ((e.course.val / 8 * 32 + 2 * e.group.toNat + r) * 256 + e.course.val % 8 * 32)
      acc ^^^ rows 0 ^^^ rows 1
    else acc) 0

/-- An error that SECDED corrects: one flipped bit. -/
def singleBit (e : PeError) : Bool := e.flip &&& (e.flip - 1) == 0

/-- A plane as RP1 or RP2 delivers it: single-bit errors corrected, others as stored. -/
def deliver (es : List PeError) (pe : Cells 65536) (a : Nat) : Plane :=
  if es.isEmpty then cget zeroes pe a else cget zeroes pe a ^^^ errPlane es (fun e => !singleBit e) a

/-- A plane as an indirect read takes it: the stored bits (R31). -/
def stored (es : List PeError) (pe : Cells 65536) (a : Nat) : Plane :=
  if es.isEmpty then cget zeroes pe a else cget zeroes pe a ^^^ errPlane es (fun _ => true) a

/-- The planes as a routine in progress sees them: their data and the bit errors that are left (R29, R32). -/
structure View where
  pe   : Cells 65536
  errs : List PeError

def viewOf (s : State) : View := { pe := s.pe, errs := s.peErr }

def View.deliver (v : View) (a : Nat) : Plane := Machine.deliver v.errs v.pe a
def View.stored (v : View) (a : Nat) : Plane := Machine.stored v.errs v.pe a

/-! ### Operand sources (R94, R98) -/

inductive Src
  | absent
  | mem (base : Nat)
  | indirect (off : Nat)
  | link (dir dist base : Nat)
  /-- a broadcast value, sign-extended to 64 bits -/
  | bcast (v : Nat)
  | flag (k : Nat)
  | port (ch : Fin 4)
deriving DecidableEq, Repr

/-- What an instruction sees of the machine while its routine runs. -/
structure Env where
  st   : State
  rect : Rect
  gm   : Plane
  /-- enable E of R26 -/
  en   : Plane
  /-- LAR of each PE of the group as it stood at the first array cycle (R100) -/
  lars : List (Nat × Nat)

/-- LAR of one PE. -/
def larAt (pe : Cells 65536) (p : Nat) : Nat :=
  (List.range 14).foldl (fun acc i => acc + ((cget zeroes pe (keyLar i)).getLsbD p).toNat * 2 ^ i) 0

/-- The 64-bit value of a SCALAR or IMMEDIATE operand (R98). -/
def bcastValue (s : Vector Word 16) (o : BitVec 20) : Nat :=
  if modeOf o = 5 then ((s[(o.extractLsb' 0 4).toNat]'(o.extractLsb' 0 4).isLt).signExtend 64).toNat
  else ((fieldOf o).signExtend 64).toNat

/-- The source that an operand specification names. -/
def srcOf (c : Context) (o : BitVec 20) : Src :=
  match modeOf o with
  | 0 => .mem (planeBase c.a o).toNat
  | 1 => .mem (planeBase c.a o).toNat
  | 2 => .indirect (fieldOf o).toNat
  | 3 => .link (o.extractLsb' 14 2).toNat 1 (planeBase c.a o).toNat
  | 4 => .link (o.extractLsb' 14 2).toNat (2 ^ (o.extractLsb' 11 3).toNat) (planeBase c.a o).toNat
  | 5 => .bcast (bcastValue c.s o)
  | 6 => .bcast (bcastValue c.s o)
  | 7 => .flag (o.extractLsb' 0 3).toNat
  | 8 => .port (Fin.ofNat 4 (o.extractLsb' 0 2).toNat)
  | _ => .absent

/-- Flag Fk: F0 is 1 everywhere (R23). -/
def flagPlane (pe : Cells 65536) (k : Nat) : Plane :=
  if k = 0 then BitVec.allOnes 65536 else cget zeroes pe (keyF k)

/-- The boundary plane for a direction (R39, R40): `own` is the reading PE's own plane. -/
def boundary (e : Env) (dir : Nat) (own : Plane) : Plane :=
  (rectCourses e.rect).foldl (fun acc c =>
    let cm := courseMask c
    let pat := (reg e.st (crsReg c (0x14 + 4 * dir))).toNat
    let pos := c.val / 8 * 32 * 256 + c.val % 8 * 32
    let v : Plane := match regBits e.st (crsReg c 0x10) (2 * dir + 1) (2 * dir) with
      | 0 => 0
      | 1 => cm
      | 2 =>
        if dir = 0 ∨ dir = 2 then BitVec.ofNat 65536 (pat * repRows 32 * 2 ^ pos)
        else BitVec.ofNat 65536 ((List.range 32).foldl (fun a r =>
          a + (pat.testBit r).toNat * (2 ^ 32 - 1) * 2 ^ (256 * r + pos)) 0)
      | _ => own &&& cm
    acc ||| v) 0

/-- A plane moved one link: every PE receives the bit of the PE at distance `d` on side `dir`. -/
def shiftPlane (dir d : Nat) (v : Plane) : Plane :=
  match dir with
  | 0 => v <<< (256 * d)
  | 1 => (v >>> d) &&& peRect 0 0 (256 - d) 256
  | 2 => v >>> (256 * d)
  | _ => (v <<< d) &&& peRect d 0 (256 - d) 256

/-- A linked read (R37, R39). -/
def linked (e : Env) (pe : View) (dir d a : Nat) : Plane :=
  let own := pe.deliver a
  let valid := shiftPlane dir d e.gm &&& e.gm
  blend valid (boundary e dir own) (shiftPlane dir d (own &&& e.gm))

/-- Bit i of a channel's READY bank at every PE of a course (R50). -/
def bankPlane (s : State) (c : Fin 64) (ch : Fin 4) (i : Nat) : Plane :=
  let k := chan s c ch
  if k.st = 3 then
    let first := regBits s (crsReg c (0x108 + 0x20 * ch.val)) 9 0
    let column := (reg s (crsReg c (0x100 + 0x20 * ch.val))).getLsbD 5
    (k.bank.foldl (fun (acc : Plane × Nat) v =>
      (if v.getLsbD (min i 39) then acc.1 ||| (1#65536 <<< localPe c column acc.2) else acc.1, acc.2 + 1)) (0, first)).1
  else 0

/-- Bit i of a source in every PE, memory read as `pe` stands. -/
def srcBit (e : Env) (pe : View) (s : Src) (i : Nat) : Plane :=
  match s with
  | .absent => 0
  | .mem b => pe.deliver (b + i)
  | .indirect off =>
    e.lars.foldl (fun acc pl =>
      if (pe.stored ((pl.2 + off + i) % 16384)).getLsbD pl.1 then acc ||| (1#65536 <<< pl.1) else acc) 0
  | .link dir d b => linked e pe dir d (b + i)
  | .bcast v => if v.testBit (min i 63) then BitVec.allOnes 65536 else 0
  | .flag k => if i = 0 then flagPlane pe.pe k else 0
  | .port ch => (rectCourses e.rect).foldl (fun acc c => acc ||| bankPlane e.st c ch i) 0

/-! ### Writes -/

/-- Apply a write to the planes alone. -/
def wrPe (pe : Cells 65536) (w : Wr) : Cells 65536 := cset zeroes pe w.key (blend w.mask (cget zeroes pe w.key) w.val)

/-- The destination of an array instruction: planes from a base, or a flag. -/
inductive Dst
  | planes (base : Nat)
  | flag (k : Nat)
  | none
deriving DecidableEq, Repr

def dstOf (c : Context) (o : BitVec 20) : Dst :=
  match modeOf o with
  | 0 => .planes (planeBase c.a o).toNat
  | 1 => .planes (planeBase c.a o).toNat
  | 7 => .flag (o.extractLsb' 0 3).toNat
  | _ => .none

/-- The write of result bit i (R98): a flag keeps bit 0 only, and F0 nothing. -/
def putBit (d : Dst) (m : Plane) (i : Nat) (v : Plane) : List Wr :=
  match d with
  | .planes b => [{ key := b + i, mask := m, val := v, log := true }]
  | .flag k => if i = 0 ∧ k ≠ 0 then [{ key := keyF k, mask := m, val := v, log := true }] else []
  | .none => []

def putFlag (key : Nat) (m v : Plane) : Wr := { key, mask := m, val := v, log := true }

/-- OR into a sticky flag. -/
def orSticky (pe : Cells 65536) (i : Nat) (m v : Plane) : Wr :=
  putFlag (keySticky i) m (cget zeroes pe (keySticky i) ||| v)

/-- Courses of a group that hold an error at a plane. -/
def errsAt (es : List PeError) (r : Rect) (a : Nat) : List PeError :=
  es.filter (fun e => e.plane.toNat = a && inRect r e.course)

/-- A plane write re-encodes the groups it touches (R30): a single-bit error goes, other stored bits become the data. -/
def View.reencode (v : View) (r : Rect) (a : Nat) : View :=
  if a < 16384 ∧ ¬ (errsAt v.errs r a).isEmpty then
    { pe := cset zeroes v.pe a (cget zeroes v.pe a ^^^ errPlane (errsAt v.errs r a) (fun e => !singleBit e) a)
      errs := v.errs.filter (fun e => !(e.plane.toNat = a && inRect r e.course)) }
  else v

/-- A write as the later reads of the same instruction see it (R29). -/
def View.write (r : Rect) (v : View) (w : Wr) : View :=
  let t := v.reencode r w.key
  { t with pe := wrPe t.pe w }

/-- The errors that checked reads of planes find, one for each read (R32, R33). -/
def View.found (v : View) (r : Rect) (planes : List Nat) : List PeError :=
  if v.errs.isEmpty then [] else planes.flatMap (errsAt v.errs r)

/-- Planes of memory that an operand reads at one bit through a checked port: none for PE_INDIRECT (R31, R32). -/
def planesRead (s : Src) (i : Nat) : List Nat :=
  match s with
  | .mem b => [b + i]
  | .link _ _ b => [b + i]
  | _ => []

/-- What a pass of a routine gives: the state of its step, its writes in order, and the errors that its reads found. -/
structure Pass (σ : Type) where
  st     : σ
  writes : List Wr
  found  : List PeError

/-- The loop of a direct routine: bit i is read in array cycle i and written in cycle i + 1, so a read sees the writes
of bits below i − 1 (R29, R102, R188). `pend` is the write that takes place in this cycle, after its reads; `ad` names the
planes that the cycle reads. -/
def dloop {σ : Type} (r : Rect) (rd : Nat → View → Plane × Plane) (ad : Nat → List Nat)
    (step : σ → Nat → Plane → Plane → σ × List Wr) : Nat → Nat → View → List Wr → σ → Pass σ
  | 0, _, _, _, st => { st, writes := [], found := [] }
  | n + 1, i, v, pend, st =>
    let ab := rd i v
    let t := step st i ab.1 ab.2
    let rest := dloop r rd ad step n (i + 1) (pend.foldl (View.write r) v) t.2 t.1
    { st := rest.st, writes := t.2 ++ rest.writes, found := v.found r (ad i) ++ rest.found }

/-- Both sources at bit i. -/
def rd2 (e : Env) (s1 s2 : Src) (i : Nat) (v : View) : Plane × Plane := (srcBit e v s1 i, srcBit e v s2 i)

/-- The planes that both sources read at bit i, RP1 before RP2. -/
def ad2 (s1 s2 : Src) (i : Nat) : List Nat := planesRead s1 i ++ planesRead s2 i

/-- A pass over n bits from the state at issue. -/
def pass {σ : Type} (e : Env) (rd : Nat → View → Plane × Plane) (ad : Nat → List Nat)
    (step : σ → Nat → Plane → Plane → σ × List Wr) (n : Nat) (st : σ) : Pass σ :=
  dloop e.rect rd ad step n 0 (viewOf e.st) [] st

/-- Bit i of a source as it stands at issue. -/
def srcNow (e : Env) (s : Src) (i : Nat) : Plane := srcBit e (viewOf e.st) s i

/-- Bits 0 to n − 1 of a source, all read before any write. -/
def readAll (e : Env) (s : Src) (n : Nat) : List Plane := (List.range n).map (srcNow e s)

/-- The errors that reads of bits of a source find before any write. -/
def foundIn (e : Env) (s : Src) (bits : List Nat) : List PeError :=
  (viewOf e.st).found e.rect (bits.flatMap (planesRead s))

/-- The value that a list of planes holds at one PE. -/
def valueAt : List Plane → Nat → Nat
  | [], _ => 0
  | p :: ps, i => (p.getLsbD i).toNat + 2 * valueAt ps i

/-- Enabled PEs of the group. -/
def enabledPes (e : Env) : List Nat := (groupPes e.rect).filter (fun p => e.en.getLsbD p)

/-- Bit j of each PE's result as a plane. -/
def planeOf (vals : List (Nat × Nat)) (j : Nat) : Plane :=
  vals.foldl (fun acc pv => if pv.2.testBit j then acc ||| (1#65536 <<< pv.1) else acc) 0

/-- Commit of a scratch routine (R120, R201): `n` result planes, then C and X cleared and sticky flags ORed, in the PEs
with E = 1. Each element of `vals` is a PE with its result and its sticky flags. -/
def commitScratch (e : Env) (d : Dst) (n : Nat) (vals : List (Nat × Nat × Nat)) (x : Plane) (sticky : List Nat) : List Wr :=
  let rs := vals.map (fun v => (v.1, v.2.1))
  let fs := vals.map (fun v => (v.1, v.2.2))
  (List.range n).flatMap (fun j => putBit d e.en j (planeOf rs j)) ++
  [putFlag keyC e.en 0, putFlag keyX e.en x] ++
  sticky.map (fun i => orSticky e.st.pe i e.en (planeOf fs i))

/-! ### Writing the state -/

/-- Record an undo entry while the bow's window is open (R221): `s` is the state whose planes the write port reads, any
single-bit error corrected. -/
def logUndo (s : State) (b : Fin 16) (w : Wr) : State :=
  match (bow s b).window with
  | some win =>
    if w.log then setBow s b { bow s b with window := some { win with undo := (w.key, cget zeroes s.pe w.key) :: win.undo } }
    else s
  | none => s

/-- A plane write of a group re-encodes the groups it touches (R30). -/
def reencode (s : State) (r : Rect) (a : Nat) : State :=
  let v := (viewOf s).reencode r a
  { s with pe := v.pe, peErr := v.errs }

/-- One write of an instruction of bow b, with its undo entry and the re-encoding of its groups. -/
def applyWr (b : Fin 16) (r : Rect) (s : State) (w : Wr) : State :=
  let t := logUndo (reencode s r w.key) b w
  { t with pe := wrPe t.pe w }

def applyWrs (s : State) (b : Fin 16) (r : Rect) (ws : List Wr) : State := ws.foldl (applyWr b r) s

/-! ### ECC of reads (R32, R33) -/

/-- Count an error found by a read of a course; `scrub` marks the scrubber's reads. -/
def countPeError (s : State) (e : PeError) (scrub : Bool) : State :=
  if singleBit e then
    let t := noteCorr (countUp s (crsReg e.course 0x40) 31 0 1) (logSource 0x01 e.course)
    let k := course t e.course
    if scrub ∨ k.eccQueue.length ≥ 4 then t
    else setCourse t e.course { k with eccQueue := k.eccQueue ++ [(e.group, e.plane)] }
  else
    let t := countUp s (crsReg e.course 0x44) 15 0 1
    let t := setRegBits t (crsReg e.course 0x44) 16 16 1
    let t := setReg t (crsReg e.course 0x48)
      (BitVec.ofNat 32 (e.plane.toNat + e.group.toNat * 2 ^ 14 + scrub.toNat * 2 ^ 18))
    logEvent (noteUncorr t (logSource 0x01 e.course)) (logSource 0x01 e.course) 0x0010 stEccUncorrected (e.plane.setWidth 24)

end Sys2Proof.Machine
end

