-- ==== Sys2Proof/Machine/Timebase.lean ====
section
/-! DEFINITION. The timebase: epoch, phase references and event timers (R310 to R320, R328 to R335), and the tick. -/

namespace Sys2Proof.Machine

/-! ### Modes of the timebase -/

/-- The timebase runs from the 32.768 kHz clock alone: before the PLL locks, and in STANDBY and SLEEP (R310, R327). -/
def lfMode (s : State) : Bool :=
  !(reg s 0x50004).getLsbD 0 || s.mode == .standby || s.mode == .sleep

/-- Modes in which timers that count tt advance by low-frequency steps (R334). -/
def lfTimers (s : State) : Bool := s.mode == .halt || s.mode == .sleep || s.mode == .standby

/-! ### The epoch (R311) -/

/-- One count of the epoch: TB_TRIM is added to the fractional accumulator, whose carry is −1, 0 or 1.
[log entry 2: DESIGN CHOICE] -/
def epochStep (s : State) : State :=
  let acc : Int := s.frac.toNat + (reg s 0x50010).toInt
  { s with epoch := s.epoch + 1 + BitVec.ofInt 64 (acc / 2 ^ 32), frac := BitVec.ofInt 32 acc }

/-! ### Phase references (R316 to R320) -/

def phReg (n : Fin 8) (o : Nat) : Nat := 0x50100 + n.val * 0x20 + o
def phRef (s : State) (n : Fin 8) : PhRef := s.refs[n]
def setRef (s : State) (n : Fin 8) (r : PhRef) : State := { s with refs := s.refs.set n r }

def phSource (s : State) (n : Fin 8) : Nat := regBits s (phReg n 0) 1 0
def phMode (s : State) (n : Fin 8) : Nat := regBits s (phReg n 0) 3 2
def phEpc (s : State) (n : Fin 8) : Nat := regBits s (phReg n 0) 23 8
def phPeriod (s : State) (n : Fin 8) : Nat := (reg s (phReg n 0x0C)).toNat
def phLimit (s : State) (n : Fin 8) : Nat := (reg s (phReg n 0x10)).toNat

/-- The fraction of R318 while the reference runs. -/
def phFraction (s : State) (n : Fin 8) : Nat :=
  let r := phRef s n
  let t := phPeriod s n
  if r.fwd < 2 ∨ t = 0 then r.e.toNat * 65536 / phEpc s n
  else (r.e.toNat * t + min r.t (min (t - 1) (phLimit s n))) * 65536 / (t * phEpc s n)

/-- The value of a phase reference (R317, R318). -/
def phValue (s : State) (n : Fin 8) : Word :=
  let r := phRef s n
  if phMode s n = 0 then r.cycle ++ r.frac else r.cycle ++ BitVec.ofNat 16 (phFraction s n)

/-- The quantity that a REF or WAITPH selector names: 0 to 7 a reference, 8 the epoch (R158, R321). -/
def refValue (s : State) (sel : Nat) : Word :=
  if sel < 8 then phValue s (Fin.ofNat 8 sel) else s.epoch.extractLsb' 0 40

/-- A target is reached: it lies less than half the range behind (R158, R323). -/
def reached (q target : Word) : Bool := !(q - target).getLsbD 39

/-- A forward edge (R317). -/
def forwardEdge (s : State) (n : Fin 8) : State :=
  let r := phRef s n
  let s := if r.seen then setReg s (phReg n 0x0C) (BitVec.ofNat 32 (min r.t (2 ^ 32 - 1))) else s
  let wrap : Bool := r.e.toNat + 1 ≥ phEpc s n
  let s := setRef s n { r with e := if wrap then 0 else r.e + 1, cycle := if wrap then r.cycle + 1 else r.cycle, t := 0,
                               fwd := min 2 (r.fwd + 1), seen := true, sinceZ := r.sinceZ.map (· + 1) }
  setRegBits s (phReg n 0x14) 1 0 0

/-- A reverse edge (R317). -/
def reverseEdge (s : State) (n : Fin 8) : State :=
  let r := phRef s n
  let wrap : Bool := r.e == 0
  let s := setRef s n { r with e := if wrap then BitVec.ofNat 16 (phEpc s n - 1) else r.e - 1,
                               cycle := if wrap then r.cycle - 1 else r.cycle, fwd := 0,
                               sinceZ := r.sinceZ.map (· + 1) }
  setRegBits s (phReg n 0x14) 1 1 1

/-- The quadrature state as a position in the cycle 00, 10, 11, 01 of A and B: A leads B in the forward direction.
[log entry 28: DESIGN CHOICE] -/
def quadPos (a b : Bool) : Nat := match a, b with
  | false, false => 0
  | true, false => 1
  | true, true => 2
  | false, true => 3

/-- The sampled levels of a reference change (R316, R317). [log entry 29: DEDUCED] -/
def phEdge (n : Fin 8) (a b : Bool) (s : State) : State :=
  let r := phRef s n
  let t := setRef s n { r with a, b }
  match phMode s n with
  | 1 => if a ≠ r.a ∧ (a || (reg s (phReg n 0)).getLsbD 4) then forwardEdge t n else t
  | 2 =>
    if a ≠ r.a ∧ b ≠ r.b then setRegBits t (phReg n 0x14) 2 2 1
    else if a = r.a ∧ b = r.b then t
    else
      let forward : Bool := (quadPos a b == (quadPos r.a r.b + 1) % 4) ^^ (reg s (phReg n 0)).getLsbD 6
      if forward then forwardEdge t n else reverseEdge t n
  | _ => t

/-- A rising edge of Z in the forward direction (R319). [log entry 29: DEDUCED] -/
def phZEdge (n : Fin 8) (s : State) : State :=
  let r := phRef s n
  let cfg := reg s (phReg n 0)
  if phMode s n = 0 ∨ phSource s n ≠ 2 ∨ !cfg.getLsbD 5 ∨ (reg s (phReg n 0x14)).getLsbD 1 then s
  else
    let bad : Bool := match r.sinceZ with
      | some k => k != phEpc s n
      | none => false
    let up : Bool := 2 * r.e.toNat ≥ phEpc s n
    let s := setRef s n { r with e := 0, cycle := if up then r.cycle + 1 else r.cycle, sinceZ := some 0 }
    if bad then setRegBits s (phReg n 0x14) 3 3 1 else s

/-- A RUNNING quadrant drives a signal of R296. -/
def signalDriven (s : State) (i : Nat) : Bool := (List.finRange 4).any (fun q =>
  regBits s 0x40000 (4 * q.val + 3) (4 * q.val) == 2 && (s.fab.quads[q]).taps.any (fun e => e.1 == i))

/-- The time since the last edge exceeds LIMIT (R318). -/
def phStall (n : Fin 8) (s : State) : State :=
  if phMode s n ≠ 0 ∧ (phRef s n).t > phLimit s n then setRegBits s (phReg n 0x14) 0 0 1 else s

/-- The levels of A and B of a source as it is selected: those that the timebase holds of the fabric's signals, or those of the
balls, which come from outside (R316). [log entry 186: DESIGN CHOICE] -/
def sampleRef (n : Fin 8) (src : Nat) (s : State) : State :=
  let r := phRef s n
  if src = 2 then
    let v := s.fab.sampled[3]
    setRef s n { r with a := v.getLsbD n.val, b := v.getLsbD (8 + n.val) }
  else
    let f := takeFree s
    let v := Config.phrefLevel f.1
    setRef f.2 n { r with a := v.getLsbD n.val, b := v.getLsbD ((n.val + 1) % 8) }

/-- A write of TB_PH_CFG (R316, R317); the second value says that it is to be recorded. [log entry 30: DEDUCED] -/
def phModeWrite (n : Fin 8) (v : Reg32) (s : State) : State × Bool :=
  let o := phReg n 0
  let src := bitsOf v.toNat 1 0
  let mode := bitsOf v.toNat 3 2
  let reservedBits : Bool := bitsOf v.toNat 7 7 ≠ 0 ∨ bitsOf v.toNat 31 24 ≠ 0
  if mode = 3 ∨ src = 3 ∨ (src = 1 ∧ (n.val % 2 = 1 ∨ mode ≠ 2)) ∨ bitsOf v.toNat 23 8 = 0 then (s, true)
  else
    let old := phMode s n
    let others := v.toNat &&& 0x00FFFF73
    let ignored : Bool := old ≠ 0 ∧ others ≠ (reg s o).toNat &&& 0x00FFFF73
    let kept := if old = 0 then others else (reg s o).toNat &&& 0x00FFFF73
    let frac := BitVec.ofNat 16 (phFraction s n)
    let s := if kept % 4 ≠ phSource s n then sampleRef n (kept % 4) s else s
    let r := phRef s n
    let s := setReg s o (BitVec.ofNat 32 (kept + 4 * mode))
    let s := if old = 0 ∧ mode ≠ 0 then
        setRegBits (setRef s n { r with e := 0, cycle := 0, t := 0, fwd := 0, seen := false, frac := 0, sinceZ := none })
          (phReg n 0x14) 1 0 0
      else if old ≠ 0 ∧ mode = 0 then setRef s n { r with frac }
      else s
    (s, ignored || reservedBits)

/-! ### Event timers (R328 to R334) -/

/-- What a counted tick works on. -/
structure EtCount where
  c      : Word
  down   : Bool
  armed  : Bool
  skip   : Bool
  /-- output level, and whether a match has fired -/
  out    : Bool
  hit    : Bool
  /-- what a low-frequency step applies (R334): 0 nothing, 1 the period action, 2 the match action, 3 period then match,
  4 match then period; and the action of the latest match -/
  order  : Nat
  act    : Nat
deriving DecidableEq, Repr

/-- The count moves once (R329): new count, direction, PERIOD_SKIP, period start, reversal.
[log entry 54: DESIGN CHOICE] -/
def etMove (dir : Nat) (period c : Word) (down : Bool) : Word × Bool × Bool × Bool × Bool :=
  let p : Nat := if period = 0 then (if dir = 2 then 2 ^ 40 - 1 else 2 ^ 40) else period.toNat
  match dir with
  | 1 => if c = 0 then (BitVec.ofNat 40 (p - 1), down, false, true, false) else (c - 1, down, false, false, false)
  | 2 =>
    if down then
      let d := c - 1
      if d = 0 then (d, false, false, true, false) else (d, true, false, false, false)
    else if c.toNat ≥ p then (c - 1, true, c.toNat > p, false, true)
    else (c + 1, false, false, false, false)
  | _ => if c.toNat + 1 ≥ p then (0, down, c.toNat + 1 > p, true, false) else (c + 1, down, false, false, false)

/-- An armed match fires with the count c (R330). -/
def etDue (dir : Nat) (down : Bool) (c cmp : Word) : Bool :=
  if dir = 1 ∨ (dir = 2 ∧ down) then reached cmp c else reached c cmp

/-- Apply an output action: 1 set, 2 clear, 3 toggle (R331). -/
def etAct (code : Nat) (out : Bool) : Bool := match code with
  | 1 => true
  | 2 => false
  | 3 => !out
  | _ => out

/-- The action of a match under a configuration (R331). -/
def etMatchAct (cfg : Nat) (down : Bool) : Nat :=
  if bitsOf cfg 1 0 = 2 ∧ down then bitsOf cfg 25 24 else bitsOf cfg 23 22

/-- The order of the latest period start and the latest match after one more tick. -/
def etOrder (o : Nat) (period fire : Bool) : Nat :=
  let o := if period then (if o = 0 ∨ o = 1 then 1 else 4) else o
  if fire then (if o = 0 ∨ o = 2 then 2 else 3) else o

/-- One counted tick under a configuration: the count moves, a period start or a reversal arms the match, the match is
looked at, and the actions of a period start and then of a match change the output. -/
def etTickCount (cfg : Nat) (period cmp : Word) (e : EtCount) : EtCount :=
  let dir := bitsOf cfg 1 0
  let m := etMove dir period e.c e.down
  let armed := e.armed || m.2.2.2.1 || m.2.2.2.2
  let fire := armed && etDue dir m.2.1 m.1 cmp
  let out := if m.2.2.2.1 then etAct (bitsOf cfg 21 20) e.out else e.out
  { c := m.1, down := m.2.1, armed := armed && !fire, skip := e.skip || m.2.2.1
    out := if fire then etAct (etMatchAct cfg m.2.1) out else out, hit := e.hit || fire
    order := etOrder e.order m.2.2.2.1 fire, act := if fire then etMatchAct cfg m.2.1 else e.act }

/-- `n` counted ticks. -/
def etTicks (cfg : Nat) (period cmp : Word) : Nat → EtCount → EtCount
  | 0, e => e
  | n + 1, e => etTicks cfg period cmp n (etTickCount cfg period cmp e)

def etCmp (s : State) (t : Fin 16) : Word := reg40 s (etReg t 0x14) (etReg t 0x18)
def etCountOf (s : State) (t : Fin 16) : Word := reg40 s (etReg t 0x04) (etReg t 0x08)
def etDir (s : State) (t : Fin 16) : Nat := regBits s (etReg t 0) 1 0

/-- The state of a timer before counting. [log entry 54: DESIGN CHOICE] -/
def etStart (s : State) (t : Fin 16) : EtCount :=
  let st := reg s (etReg t 0x34)
  { c := etCountOf s t, down := st.getLsbD 4, armed := st.getLsbD 7, skip := false, out := st.getLsbD 8, hit := false, order := 0, act := 0 }

/-- Write the counting's outcome back. -/
def etFinish (s : State) (t : Fin 16) (e : EtCount) : State :=
  let s := setReg40 s (etReg t 0x04) (etReg t 0x08) e.c
  let st := (reg s (etReg t 0x34)).toNat
  let st := putBits (putBits (putBits st 4 4 e.down.toNat) 7 7 e.armed.toNat) 8 8 e.out.toNat
  let st := if e.hit then putBits st 0 0 1 else st
  let st := if e.skip then putBits st 2 2 1 else st
  setReg s (etReg t 0x34) (BitVec.ofNat 32 st)

/-- The output after a low-frequency step: each action applies once, the later one last (R334). -/
def etStepOut (cfg : Nat) (out : Bool) (e : EtCount) : Bool :=
  let period := etAct (bitsOf cfg 21 20)
  let fired := etAct e.act
  match e.order with
  | 1 => period out
  | 2 => fired out
  | 3 => fired (period out)
  | 4 => period (fired out)
  | _ => out

/-- A running timer counts `n` ticks. -/
def etAdvance (n : Nat) (t : Fin 16) (s : State) : State :=
  let cfg := (reg s (etReg t 0)).toNat
  let e0 := etStart s t
  let e := etTicks cfg (reg40 s (etReg t 0x0C) (etReg t 0x10)) (etCmp s t) n e0
  let s := etFinish s t (if n = 1 then e else { e with out := etStepOut cfg e0.out e })
  let k := s.timers[t]
  { s with timers := s.timers.set t { k with sinceRise := BitVec.ofNat 40 (min (k.sinceRise.toNat + n) (2 ^ 40 - 1)) } }

/-- The match is looked at without a counted tick (R330); `late` marks the tick of a compare write. -/
def etLook (late : Bool) (t : Fin 16) (s : State) : State :=
  let e := etStart s t
  if e.armed && etDue (etDir s t) e.down e.c (etCmp s t) then
    let s := etFinish s t { e with armed := false, hit := true, out := etAct (etMatchAct (reg s (etReg t 0)).toNat e.down) e.out }
    if late && e.c != etCmp s t then setRegBits s (etReg t 0x34) 1 1 1 else s
  else s

/-- OUT of a timer. -/
def etOut (s : State) (t : Fin 16) : Bool := (reg s (etReg t 0x34)).getLsbD 8

/-! ### ETIO balls (R326, R333) -/

def etioOwner (s : State) (k : Nat) : Nat := regBits s (0x50600 + k / 4 * 4) (8 * (k % 4) + 4) (8 * (k % 4))
def etioIdle (s : State) (k : Nat) : Bool := (reg s (0x50600 + k / 4 * 4)).getLsbD (8 * (k % 4) + 5)

/-- Actions on the balls are gated: before outputs start, and in HOLD and SENTINEL (R326). -/
def etioHeld (s : State) : Bool := !outputsStarted s || s.mode == .hold || s.mode == .sentinel

/-- Output balls are at IDLE: while actions are gated, and in STANDBY and SLEEP (R396).
[log entry 186: DESIGN CHOICE] -/
def etioSafe (s : State) : Bool := etioHeld s || s.mode == .standby || s.mode == .sleep

/-- The level that the device drives on an ETIO ball; none for an input. -/
def etioDrive (s : State) (k : Nat) : Option Bool :=
  let o := etioOwner s k
  if o < 16 then
    let t := Fin.ofNat 16 o
    if s.mode = .sentinel then
      some (if (reg s (etReg t 0)).getLsbD 26 then etOut s t else etioIdle s k)
    else some (if etioSafe s then etioIdle s k else etOut s t)
  else if o = 16 then
    some (if etioSafe s || !s.etioLive.getLsbD k then etioIdle s k else s.etio.getLsbD k)
  else none

/-! ### Counted ticks (R328, R334) -/

/-- The level of an input of the timers: an ETIO ball, a PHREF ball, or a fabric input as last sampled. -/
def etInput (s : State) (code : Nat) : Bool :=
  if code < 8 then
    match etioDrive s code with
    | some v => v
    | none => (Config.ballLevel s.epoch.toNat).getLsbD code
  else if code < 16 then (Config.phrefLevel s.epoch.toNat).getLsbD (code - 8)
  else s.fab.sampled[0].getLsbD (8 + code)

/-- GATE_EN is clear, or GIN is at GATE_LEVEL (R328). -/
def etGateOpen (s : State) (t : Fin 16) : Bool :=
  let cfg := (reg s (etReg t 0)).toNat
  !cfg.testBit 3 || etInput s (bitsOf cfg 14 10) == cfg.testBit 4

/-- One counted tick (R329 to R331). -/
def etTick (t : Fin 16) (s : State) : State :=
  let cfg := reg s (etReg t 0)
  if !cfg.getLsbD 27 || (!cfg.getLsbD 2 && lfTimers s) || !etGateOpen s t then s else etAdvance 1 t s

/-- The effect of 8,000 ticks (R334). -/
def etLfStep (t : Fin 16) (s : State) : State :=
  let cfg := reg s (etReg t 0)
  if !cfg.getLsbD 27 || cfg.getLsbD 2 || !lfTimers s || !etGateOpen s t then s else etAdvance 8000 t s

/-- The staged low half and the offset of the low register of a 40-bit timer value (R315). -/
def timerIndex : TimerReg → Fin 3 × Nat
  | .period => (0, 0x0C)
  | .cmp => (1, 0x14)
  | .safe => (2, 0x38)

/-- A write of the low half is staged (R315); of the compare not while it is forced (R333). The second value says that the
write is to be recorded. -/
def etStage (t : Fin 16) (r : TimerReg) (v : Reg32) (s : State) : State × Bool :=
  let k := s.timers[t]
  if r = .cmp ∧ (reg s (etReg t 0x34)).getLsbD 6 then (s, true)
  else ({ s with timers := s.timers.set t { k with lo := k.lo.set (timerIndex r).1 v } }, false)

/-- A write of the high half commits the value (R315, R330, R333): SAFE_CMP obeys the set-up lock. The second value says
that the write is to be recorded. -/
def etCommitWrite (t : Fin 16) (r : TimerReg) (hi : Reg32) (s : State) : State × Bool :=
  let o := etReg t (timerIndex r).2
  let v : Word := (hi.extractLsb' 0 8 ++ s.timers[t].lo[(timerIndex r).1] : BitVec 40)
  let extra : Bool := hi.toNat ≥ 256
  match r with
  | .period => (etLook false t (setReg40 s o (o + 4) v), extra)
  | .cmp =>
    if (reg s (etReg t 0x34)).getLsbD 6 then (s, true)
    else (etLook true t (setRegBits (setReg40 s o (o + 4) v) (etReg t 0x34) 7 7 1), extra)
  | .safe =>
    if (reg s 0x1000).getLsbD 31 && v != reg40 s o (o + 4) then (s, true) else (setReg40 s o (o + 4) v, extra)

/-- A rising edge of CAPIN (R332). -/
def etCaptureUp (t : Fin 16) (s : State) : State :=
  let s := setReg40 s (etReg t 0x1C) (etReg t 0x20) (etCountOf s t)
  let k := s.timers[t]
  { s with timers := s.timers.set t { k with sinceRise := 0 } }

/-- A falling edge of CAPIN (R332). -/
def etCaptureDown (t : Fin 16) (s : State) : State :=
  let k := s.timers[t]
  let s := setReg40 s (etReg t 0x24) (etReg t 0x28) (etCountOf s t)
  let s := setReg40 s (etReg t 0x2C) (etReg t 0x30) k.sinceRise
  let s := if k.widthRead then s else setRegBits s (etReg t 0x34) 3 3 1
  { s with timers := s.timers.set t { k with widthRead := false } }

/-! ### ETIO actions (R326) -/

/-- TB_ETIO_STATE: the levels of the balls; the level of an input comes from outside. -/
def etioState (s : State) : Nat :=
  (List.range 8).foldl (fun v k =>
    let lvl := match etioDrive s k with
      | some b => b
      | none => (Config.ballLevel s.epoch.toNat).getLsbD k
    v + lvl.toNat * 2 ^ k) 0

/-- One ETIO action of the scheduler: 5 set, 6 clear, 7 toggle (R326). -/
def etioAction (s : State) (code k : Nat) : State :=
  if etioOwner s k ≠ 16 ∨ etioHeld s then countUp s 0x50400 31 16 1
  else
    let old := if s.etioLive.getLsbD k then s.etio.getLsbD k else etioIdle s k
    let lvl := if code = 5 then true else if code = 6 then false else !old
    let bit : BitVec 8 := BitVec.ofNat 8 (2 ^ k)
    { s with etio := if lvl then s.etio ||| bit else s.etio &&& ~~~bit, etioLive := s.etioLive ||| bit }

/-- A ball is given to the scheduler: its internal state is its IDLE level again. -/
def etioGive (s : State) (k : Nat) : State := { s with etioLive := s.etioLive &&& ~~~(BitVec.ofNat 8 (2 ^ k)) }

/-! ### Event lines (R322) -/

def setEv (s : State) (n : Fin 16) (lvl : Bool) (width : BitVec 8) : State :=
  let bit : BitVec 16 := BitVec.ofNat 16 (2 ^ n.val)
  { s with ev := if lvl then s.ev ||| bit else s.ev &&& ~~~bit, pulse := s.pulse.set n width }

/-! ### Discipline (R312) -/

/-- A trim within ±858,993 (R311). [log entry 21: DESIGN CHOICE] -/
def clampTrim (v : Reg32) : Reg32 :=
  if v.toInt > 858993 then 858993 else if v.toInt < -858993 then BitVec.ofInt 32 (-858993) else v

/-- A PPS edge of the selected polarity captures the epoch; the firmware then sets TB_TRIM within R311.
[log entry 21: DESIGN CHOICE] -/
def ppsCapture (falling : Bool) (s : State) : State :=
  let ctl := reg s 0x50000
  if !ctl.getLsbD 0 || falling != ctl.getLsbD 1 then s
  else
    let d := (s.epoch - reg64 s 0x50018 0x5001C).toNat
    let good : Bool := s.ppsSeen && 262143998 ≤ d && d ≤ 262144002
    let run := if good then s.ppsRun + 1 else 0
    let i := takeFree s
    let s := setReg64 { i.2 with ppsRun := run, ppsSeen := true } 0x50018 0x5001C s.epoch
    setRegBits (setReg s 0x50010 (clampTrim (Config.ppsTrim i.1))) 0x50004 2 2 (if run ≥ 8 then 1 else 0)

/-! ### The tick -/

/-- One tt passes, or one low-frequency tick where the timebase runs from the 32.768 kHz clock alone: the epoch and the
time since the latest forward edge of each running reference advance, references stall (R318), armed matches are looked at
(R330), and a gain that leaves or reaches 0 changes between RUN and IDLE (R397). -/
def timeTick (s : State) : State :=
  let lf := lfMode s
  let n := if lf then 8000 else 1
  let t := if lf then { s with epoch := s.epoch + 8000 } else epochStep s
  let t := { t with refs := Vector.ofFn (fun i => if phMode s i = 0 then t.refs[i] else { t.refs[i] with t := t.refs[i].t + n }) }
  let t := (List.finRange 8).foldl (fun s n => phStall n s) t
  let t := (List.finRange 16).foldl (fun s n => etLook false n s) t
  if t.guard.ramp.isSome then settleMode t else t

/-! ### Meanings -/

/-- Record a write of a register where it is to be recorded. -/
def warned (o : Nat) (r : State × Bool) : State := if r.2 then regWarn r.1 o else r.1

/-- The PLL locks (R310). -/
def execTbPllLock (s : State) : Host.Outcome State Fault Refusal := .next (setRegBits s 0x50004 0 0 1)

/-- The 32.768 kHz clock stops (R310, R419). -/
def execLfClockFail (s : State) : Host.Outcome State Fault Refusal :=
  .next (raiseFault (svcAlert (logEvent (setRegBits s 0x50004 4 4 1) (logSource 0x07 0) 0x0072 stInternal 1) 3) .lfClock)

/-- The 32.768 kHz clock returns (R422). -/
def execLfClockRestored (s : State) : Host.Outcome State Fault Refusal :=
  .next (if s.faults.contains .lfClock then clearFault (logEvent s (logSource 0x07 0) 0x0072 stOK 0) .lfClock else s)

def execPpsEdge (falling : Bool) (s : State) : Host.Outcome State Fault Refusal := .next (ppsCapture falling s)

/-- No PPS edge within 1.5 s of the previous one (R312): TB_TRIM holds. -/
def execPpsMissing (s : State) : Host.Outcome State Fault Refusal :=
  .next (if (reg s 0x50000).getLsbD 0 && s.ppsSeen then
    setRegBits (setRegBits { s with ppsRun := 0 } 0x50004 3 3 1) 0x50004 2 2 0 else s)

/-- A reference with the fabric source has edges only while a RUNNING quadrant drives the signal (R296).
[log entry 28: DESIGN CHOICE] -/
def execPhrefEdge (n : Fin 8) (a b : Bool) (s : State) : Host.Outcome State Fault Refusal :=
  .next (if phSource s n ≠ 2 ∨ signalDriven s n.val ∨ signalDriven s (8 + n.val) then phEdge n a b s else s)
def execPhrefZEdge (n : Fin 8) (s : State) : Host.Outcome State Fault Refusal :=
  .next (if signalDriven s (16 + n.val) then phZEdge n s else s)
def execPhrefStall (n : Fin 8) (s : State) : Host.Outcome State Fault Refusal := .next (phStall n s)
def execPhrefModeWrite (n : Fin 8) (value : Reg32) (s : State) : Host.Outcome State Fault Refusal :=
  .next (warned (phReg n 0) (phModeWrite n value s))

/-- The width of a running pulse expires (R322). -/
def execEvPulseEnd (line : Fin 16) (s : State) : Host.Outcome State Fault Refusal :=
  .next (if s.pulse[line] = 0 then s else setEv s line false 0)

def execEtTick (t : Fin 16) (s : State) : Host.Outcome State Fault Refusal := .next (etTick t s)
def execEtCommit (t : Fin 16) (reg : TimerReg) (hi : Reg32) (s : State) : Host.Outcome State Fault Refusal :=
  .next (warned (etReg t (timerIndex reg).2 + 4) (etCommitWrite t reg hi s))
def execEtCaptureRise (t : Fin 16) (s : State) : Host.Outcome State Fault Refusal := .next (etCaptureUp t s)
def execEtCaptureFall (t : Fin 16) (s : State) : Host.Outcome State Fault Refusal := .next (etCaptureDown t s)
def execEtLfStep (t : Fin 16) (s : State) : Host.Outcome State Fault Refusal := .next (etLfStep t s)

end Sys2Proof.Machine
end

