-- ==== Sys2Proof/Machine/Issue.lean ====
section
/-! DEFINITION. Issuing an instruction: the checks of R115 in their order, skips, waits, stops of run-ahead (R219),
traps (R69, R70), REP (R105 to R107), the delivery of scalar reads (R109) and the advance of the PC. -/

namespace Sys2Proof.Machine

/-! ### Deliveries (R109, R110) -/

/-- Write a delivered value; one from outside the window also reaches the checkpoint of the context's open window (R226). -/
def deliverTo (s : State) (b : Fin 16) (c : Ctx) (d : Delivery) : State :=
  let k := ctx s b c
  let s := setCtx s b c { k with s := k.s.set d.reg.toNat d.value d.reg.isLt }
  match (bow s b).window with
  | some win =>
    if d.spec || win.ctx != c then s
    else setBow s b { bow s b with window := some { win with ck := { win.ck with s := win.ck.s.set d.reg.toNat d.value d.reg.isLt } } }
  | none => s

/-- Deliveries whose slot is the next one are written, in issue order (R109: at the start of instruction i + 4).
[log entry 35: DEDUCED] -/
def deliverDue (s : State) (b : Fin 16) (c : Ctx) : State :=
  let k := ctx s b c
  let due := k.deliveries.filter (fun d => decide (d.left ≤ 1))
  due.foldl (fun s d => deliverTo s b c d)
    (setCtx s b c { k with deliveries := k.deliveries.filter (fun d => !decide (d.left ≤ 1)) })

/-- One issue slot passes for the deliveries still pending. [log entry 35: DEDUCED] -/
def passSlot (s : State) (b : Fin 16) (c : Ctx) : State :=
  let k := ctx s b c
  setCtx s b c { k with deliveries := k.deliveries.map (fun d => { d with left := d.left - 1 }) }

/-- Every pending delivery completes (R110). -/
def flushDeliveries (s : State) (b : Fin 16) (c : Ctx) : State :=
  let k := ctx s b c
  k.deliveries.foldl (fun s d => deliverTo s b c d) (setCtx s b c { k with deliveries := [] })

/-! ### The PC -/

/-- The REP sequence whose repeated instruction stands at the PC. -/
def activeRep (c : Context) : Option Rep :=
  match c.rep with
  | some r => if r.pc = c.pc then some r else none
  | none => none

/-- The context after an issue slot that falls through: the next repetition, or the next instruction (R106). -/
def advance (c : Context) : Context :=
  match activeRep c with
  | some r =>
    if r.left.toNat ≤ 1 then { c with pc := c.pc + 1, rep := none }
    else { c with rep := some { r with left := r.left - 1 } }
  | none => { c with pc := c.pc + 1 }

def advanceAt (s : State) (b : Fin 16) (c : Ctx) : State := setCtx s b c (advance (ctx s b c))

/-! ### Kernel ends (R70, R73, R74, R83, R357) -/

/-- Kernel descriptor fields (R351). -/
def kImage (d : Desc) : BitVec 21 := BitVec.ofNat 21 (dle d 0x08 4)
def kEntry (d : Desc) : Nat := dle d 0x0C 2
def kFlag (d : Desc) (i : Nat) : Bool := (dle d 0x0E 2).testBit i
def kPinned (d : Desc) : Bool := kFlag d 0
def kUrgent (d : Desc) : Bool := kFlag d 1
def kPin (d : Desc) : Bool := kFlag d 2
def kReload (d : Desc) : Bool := kFlag d 3
def kTrigger (d : Desc) : Bool := kFlag d 4
def kHasDeadline (d : Desc) : Bool := kFlag d 5
def kWidth (d : Desc) : Nat := dle d 0x10 1 % 16
def kHeight (d : Desc) : Nat := dle d 0x10 1 / 16
def kBow (d : Desc) : Fin 16 := Fin.ofNat 16 (dle d 0x12 1)
def kDeadline (d : Desc) : Nat := dle d 0x30 8

/-- A kernel that pins its image: PIN, a deadline, or a trigger (R67). -/
def kernelPins (d : Desc) : Bool := kPin d || kHasDeadline d || kTrigger d

/-- The pin of a kernel ends with its completion (R67): lines that no other kernel of the bow pins may be replaced. -/
def unpinImage (s : State) (j : Job) : State :=
  match j.pin with
  | some b =>
    let w := bow s b
    let pins := w.pins.erase (kImage j.desc)
    let free := w.lines.map (fun l => if l.base = kImage j.desc then { l with pinned := false } else l)
    setBow s b { w with pins := pins, lines := if pins.contains (kImage j.desc) then w.lines else free }
  | none => s

/-- Completion of a kernel with what its job reports. -/
def postJob (s : State) (j : Job) (status : Status) (detail : BitVec 24) (bf : BitVec 10) : State :=
  let d := j.desc
  let missed := kHasDeadline d && kDeadline d < s.epoch.toNat
  let flags : Nat := 2 * j.late.toNat + 4 * missed.toNat + 8 * j.testYield.toNat + 16 * j.patchWait.toNat
  deliverCompletion { s with accepted := dropDesc d s.accepted } d
    { tag := descTag d, status, ring := d.ring.setWidth 8, type := 1, cflags := BitVec.ofNat 8 flags, detail,
      extra := if j.testYield then j.added else 0, result := bf.setWidth 64, irq := descIrq d }

/-- Completion of a kernel, whose pin ends with it. -/
def completeJob (s : State) (j : Job) (status : Status) (detail : BitVec 24) (bf : BitVec 10) : State :=
  postJob (unpinImage s j) j status detail bf

/-- Status and detail of a kernel that has ended: LATE_ABORT where an abort came after its end (R84), else of one that
ended in a trap handler those of R71 by the cause. [log entry 147: DEDUCED] -/
def endingStatus (e : Ending) : Status × BitVec 24 :=
  if e.job.abortLate then (stLateAbort, 0)
  else match e.cause with
    | some c => (if c = 8 then stEccUncorrected else if c = 4 ∨ c = 5 then stBadAddress else stInternal, c.setWidth 24)
    | none => (stOK, 0)

/-- The completion of a kernel that has ended (R71, R83, R84). -/
def completeEnding (s : State) (e : Ending) : State := completeJob s e.job (endingStatus e).1 (endingStatus e).2 e.bf

/-- A TAG of a context: bit 7 names the context. -/
def ctxTag (c : Ctx) (n : BitVec 7) : BitVec 8 := (match c with | .n => (0 : BitVec 1) | .u => 1) ++ n

/-- The number of the next request: the first from `nextTag` on that no outstanding request bears. -/
def askNum (c : Ctx) (k : Context) : BitVec 7 :=
  match (List.range 128).find? (fun i => !k.asks.any (fun a => a.tag == ctxTag c (k.nextTag + BitVec.ofNat 7 i))) with
  | some i => k.nextTag + BitVec.ofNat 7 i
  | none => k.nextTag

/-- TAG of the next request. [log entry 138: DESIGN CHOICE] -/
def askTag (c : Ctx) (k : Context) : BitVec 8 := ctxTag c (askNum c k)

/-- A request of a kernel that has ended: its response is dropped, but a line still enters the instruction store. -/
def orphan (a : Ask) : Ask := match a.kind with
  | .line _ _ => a
  | _ => { a with kind := .gone }

/-- A context at kernel entry (R82). LASTSTATUS, which R82 does not name, starts at 0.
[log entry 142: DESIGN CHOICE] -/
def enterKernel (c : Context) (j : Job) : Context :=
  let d := j.desc
  { c with
    run := .running, pc := BitVec.ofNat 13 (kEntry d)
    s := Vector.ofFn (fun (i : Fin 16) => if i.val < 8 then BitVec.ofNat 40 (dle d (0x40 + 8 * i.val) 8) else 0)
    a := Vector.ofFn (fun (i : Fin 8) => if i.val = 7 then BitVec.ofNat 16 (dle d 0x14 2) else 0)
    lk := 0, rc := 0, bf := 0, fpctl := BitVec.ofNat 4 (dle d 0x13 1), stackLo := BitVec.ofNat 14 (dle d 0x16 2)
    plo := BitVec.ofNat 14 (dle d 0x18 2), phi := BitVec.ofNat 14 (dle d 0x1A 2)
    dlo := BitVec.ofNat 14 (dle d 0x1C 2), dhi := BitVec.ofNat 14 (dle d 0x1E 2)
    rep := none, micro := none, th := false, lastStatus := 0, ackBad := none
    asks := c.asks.map orphan, deliveries := [], gOut := [], wait := none
    bpSkip := false, stepping := false, aborting := false
    history := if c.prevImage = some (kImage d) then c.history else []
    prevImage := some (kImage d), job := some j }

/-- The 28 items of every PE of a group go to the save latch, or come back from it (R74). -/
def copyLatch (s : State) (r : Rect) (restore : Bool) : State :=
  let gm := groupMask r
  { s with pe := (List.range 28).foldl (fun pe i =>
      let live := 16384 + i
      let save := live + latchOffset
      if restore then cset zeroes pe live (blend gm (cget zeroes pe live) (cget zeroes pe save))
      else cset zeroes pe save (blend gm (cget zeroes pe save) (cget zeroes pe live))) s.pe }

/-- An urgent kernel enters U. -/
def enterUrgent (s : State) (b : Fin 16) (j : Job) : State :=
  let s := match (bow s b).group with
    | some r => copyLatch s r false
    | none => s
  let w := bow s b
  setBow s b { w with u := enterKernel w.u j }

/-- Context c gives up its kernel. -/
def vacate (c : Context) : Context := { c with run := .idle, job := none, wait := none, rep := none, micro := none, aborting := false }

/-- A bow takes no launch and starts no kernel while it is halted (R438). -/
def haltedBow (s : State) (b : Fin 16) : Bool := (reg s 0x90010).getLsbD b.val

/-- A deadline kernel whose DEADLINE the epoch has reached (R83). -/
def expired (s : State) (d : Desc) : Bool := kHasDeadline d && kDeadline d ≤ s.epoch.toNat

/-- Jobs of a list complete with a status. -/
def completeJobs (s : State) (js : List Job) (st : Status) : State :=
  js.foldl (fun s j => completeJob s j st 0 0) s

/-- Waiting launches whose deadline has come complete with TIMEOUT (R83). -/
def expireLaunches (s : State) (b : Fin 16) : State :=
  let w := bow s b
  completeJobs (setBow s b { w with launches := w.launches.filter (fun j => !expired s j.desc) })
    (w.launches.filter (fun j => expired s j.desc)) stTimeout

/-- A swap of the bow's patch set holds every kernel start (R212). -/
def swapHeld (w : Bow) : Bool := w.swapEnd.isSome

/-- The oldest waiting launch enters U, if U is free and the bow runs (R73, R83, R212). -/
def nextLaunch (s : State) (b : Fin 16) : State :=
  let s := expireLaunches s b
  let w := bow s b
  match w.launches with
  | j :: js =>
    if w.u.job.isNone && !haltedBow s b && !swapHeld w then enterUrgent (setBow s b { w with launches := js }) b j else s
  | [] => s

/-- The kernel of a descriptor is still armed, held by a brownout, waiting or running as an urgent kernel of bow b. -/
def urgentLives (s : State) (b : Fin 16) (d : Desc) : Bool :=
  s.sched.any (fun e => e.kernel && e.desc == d) || s.brown.held.any (fun j => j.desc == d) ||
  (bow s b).launches.any (fun j => j.desc == d) || (bow s b).u.job.any (fun j => j.desc == d)

/-- A bow armed for expansion is armed until the kernel that it is armed for has ended (R87). -/
def disarm (s : State) (b : Fin 16) : State :=
  let w := bow s b
  match w.armed with
  | some a => if urgentLives s b a.2 then s else setBow s b { w with armed := none }
  | none => s

/-- Ticks to the time at which a scheduler entry is expected to fire: on a phase reference, at the rate of the latest
interval between its edges (R78, R212). [log entry 143: DESIGN CHOICE] -/
def ticksTo (s : State) (e : SchedEntry) : Nat :=
  let d := (e.target - refValue s e.ref.toNat).toNat
  if reached (refValue s e.ref.toNat) e.target then 0
  else if e.ref.toNat ≥ 8 then d
  else
    let n := Fin.ofNat 8 e.ref.toNat
    d * (phPeriod s n * phEpc s n) / 65536

/-- The scheduler predicts a launch for the bow within the next 20 µs, 5,243 ticks (R78, R212).
[log entry 143: DESIGN CHOICE] -/
def launchPredicted (s : State) (b : Fin 16) : Bool :=
  s.sched.any (fun e => e.kernel && (kUrgent e.desc || kPinned e.desc) && kBow e.desc == b && decide (ticksTo s e < 5243))

/-- An urgent launch waits or runs on the bow. -/
def urgentBusy (w : Bow) : Bool := w.u.job.isSome || !w.launches.isEmpty

/-- The context that has the bow: U while it holds a kernel, else N. -/
def holder (w : Bow) : Context := if w.u.job.isSome then w.u else w.n

/-- A REP that may not be interrupted is in progress: its repetitions have not ended, be it in the handler of a trap that
one of them took (R107). [log entry 144: DESIGN CHOICE] -/
def repHolds (c : Context) : Bool := match c.rep with
  | some r => !r.intr && (r.pc == c.pc || (c.th && r.pc == c.trapPc && r.left != 0))
  | none => false

/-- The bow stands at a preemption point: no open window, and no REP in progress that may not be interrupted (R72, R106,
R107, R437). -/
def atBoundary (w : Bow) : Bool := w.window.isNone && !repHolds (holder w)

/-- A deferred clock step is made at a preemption point once no urgent launch waits, runs or is predicted (R78). -/
def settleClock (s : State) (b : Fin 16) : State :=
  let w := bow s b
  match w.clockNext with
  | some c =>
    if w.group.isNone || urgentBusy w || !atBoundary w || launchPredicted s b then s
    else setBow s b { w with clock := c, clockNext := none }
  | none => s

/-- The context has ended: U hands the bow to the oldest waiting launch or back to N; N to a launch that came in the same
cycle, or to the queue (R73, R74). -/
def leaveContext (s : State) (b : Fin 16) (c : Ctx) : State :=
  match c with
  | .n =>
    let w := bow s b
    settleMode (settleClock (nextLaunch (setBow s b { w with n := vacate w.n }) b) b)
  | .u =>
    let s := match (bow s b).group with
      | some r => copyLatch s r true
      | none => s
    let w := bow s b
    let s := nextLaunch (disarm (setBow s b { w with u := vacate w.u }) b) b
    let w := bow s b
    let back := if w.u.job.isNone && w.n.run == .preempted then
        { w.n with run := if haltedBow s b then .halted else if w.n.wait.isSome then .stalled else .running }
      else w.n
    settleMode (settleClock (setBow s b { w with n := back }) b)

/-- The kernel of a context ends with a status, once its pending deliveries are complete (R70, R84, R110). -/
def endKernel (s : State) (b : Fin 16) (c : Ctx) (status : Status) (detail : BitVec 24) : State :=
  let s := flushDeliveries s b c
  let k := ctx s b c
  match k.job with
  | some j => leaveContext (completeJob s j status detail k.bf) b c
  | none => s

/-! ### Traps (R69, R70) -/

/-- Take a trap at the PC with the instruction's word; while TH is set the context stops instead. -/
def takeTrap (s : State) (b : Fin 16) (c : Ctx) (word : IWord) (cause : BitVec 8) : State :=
  let s := flushDeliveries s b c
  let k := ctx s b c
  if k.th then
    let s := logEvent s (logSource 0x02 b.val) 0x0012 stInternal (cause.setWidth 24)
    endKernel s b c stInternal (cause.setWidth 24)
  else
    setCtx s b c { k with run := .running, trapPc := k.pc, trapWord := word, trapCause := cause, th := true,
                          pc := (cause.setWidth 13) * 2 }

def causeField : BitVec 8 := 2
def causeMicro : BitVec 8 := 3
def causeAddress : BitVec 8 := 4
def causeStack : BitVec 8 := 5
def causeFetch : BitVec 8 := 6
def causeSoftware : BitVec 8 := 7
def causeEcc : BitVec 8 := 8

/-- Record a micro fault in BOW_MFAULT and the Logbook (R204, R214). -/
def recordMicro (s : State) (b : Fin 16) (c : Ctx) (m : MicroFault) : State :=
  let s := setReg s (bowReg b 0x0AC) (BitVec.ofNat 32
    (m.upc.toNat + m.code.toNat * 2 ^ 13 + 2 ^ 18 + (if c = .u then 2 ^ 19 else 0)))
  logEvent s (logSource 0x02 b.val) 0x0011 stInternal (BitVec.ofNat 24 (m.code.toNat + m.upc.toNat * 2 ^ 8))

/-! ### Data memory (R68, R113, R220) -/

/-- A data-memory word: the newest entry of the store buffer of an open window, else the memory.
[log entry 15: DEDUCED] -/
def dmemRead (s : State) (b : Fin 16) (a : Nat) : Word :=
  let w := bow s b
  let hit : Option (BitVec 14 × Word) := match w.window with
    | some win => win.sbuf.find? (fun e => e.1.toNat == a)
    | none => none
  match hit with
  | some e => e.2
  | none => cget zeroes w.dmem a

/-- The store buffer of the open window holds an entry for a data-memory word (R220). -/
def buffered (w : Bow) (a : Nat) : Bool :=
  match w.window with
  | some win => win.sbuf.any (fun e => e.1.toNat == a)
  | none => false

/-- A data-memory word that the next read takes from the memory holds an uncorrectable error (R68, R220). -/
def dmemFails (w : Bow) (a : Nat) : Bool :=
  !buffered w a && w.dmemErr.any (fun d => d.addr.toNat == a && d.multi)

/-- A single-bit error of a data-memory word that is read is corrected and written back (R68, R220). -/
def correctDmem (s : State) (b : Fin 16) (addrs : List Nat) : State :=
  let w := bow s b
  setBow s b { w with dmemErr := w.dmemErr.filter (fun d =>
    d.multi || buffered w d.addr.toNat || !addrs.contains d.addr.toNat) }

/-- Store a data-memory word: to the store buffer while a window is open. -/
def dmemWrite (s : State) (b : Fin 16) (a : Nat) (v : Word) : State :=
  let w := bow s b
  match w.window with
  | some win => setBow s b { w with window := some { win with sbuf := (BitVec.ofNat 14 a, v) :: win.sbuf } }
  | none => setBow s b { w with dmem := cset zeroes w.dmem a v, dmemErr := w.dmemErr.filter (fun x => x.addr.toNat != a) }

/-! ### What an instruction reads and writes -/

/-- Scalar opcodes that read BF, beside a scalar condition. -/
def readsBf (op : Nat) (x : Issue) : Bool :=
  op = 0x81 || op = 0x83 || (op = 0xE1 && immNat x.src1 = 2) || (op = 0xE2 && immNat x.src2 = 2)

/-- Instructions that wait for G; END and SETCTL of BF wait for every capture as well, since BF leaves the context or
is replaced. [log entry 34: DEDUCED] -/
def readsG (op : Nat) (x : Issue) : Bool :=
  x.cond = 0xE || x.cond = 0xF || (op = 0xE1 && immNat x.src1 = 2) || (op = 0xE2 && immNat x.src2 = 2) || op = 0xE0

/-- BR on GS or GC (R215). -/
def isGBranch (op : Nat) (x : Issue) : Bool := op = 0xC0 && (x.cond = 0xE || x.cond = 0xF)

/-- The bow would predict a branch on G now (R215, R217): at most one window is open, and a stepped context predicts
nothing. -/
def predicts (s : State) (b : Fin 16) (c : Context) : Bool :=
  (reg s (bowReg b 0x0C0)).getLsbD 0 && (bow s b).window.isNone && !c.stepping

/-- Addresses of data memory that the instruction reads. -/
def dmemReads (op : Nat) (x : Issue) (c : Context) : List Nat :=
  match opSpec op with
  | none => []
  | some sp =>
    if sp.cls = .array then []
    else
      (if sp.src1 &&& mM != 0 && isMem x.src1 then [(wordAddr c.a x.src1).toNat] else []) ++
      (if sp.src2 &&& mM != 0 && isMem x.src2 then [(wordAddr c.a x.src2).toNat] else []) ++
      (if op = 0xB5 then [c.a[7].toNat] else [])

/-- Addresses of data memory that the instruction stores to. -/
def dmemStores (op : Nat) (x : Issue) (c : Context) : List Nat :=
  match opSpec op with
  | none => []
  | some sp =>
    if sp.cls = .array then []
    else
      (if sp.dst &&& mM != 0 && isMem x.dst then [(wordAddr c.a x.dst).toNat] else []) ++
      (if op = 0xB4 then [(c.a[7] - 1).toNat] else [])

/-- Operand positions that name the S register `dst` names. -/
def touches (op : Nat) (x : Issue) (dst : BitVec 20) : Bool :=
  match opSpec op with
  | none => false
  | some sp =>
    let hit := fun (set : Nat) (o : BitVec 20) =>
      set.testBit 5 && modeOf o == 5 && modeOf dst == 5 && fieldOf o == fieldOf dst
    hit sp.dst x.dst || hit sp.src1 x.src1 || hit sp.src2 x.src2

/-- A response that the instruction needs is outstanding (R145, R156). [log entry 34: DEDUCED] -/
def needsResponse (op : Nat) (x : Issue) (c : Context) : Bool :=
  c.asks.any (fun k => match k.kind with
    | .load d _ _ =>
      touches op x d || (isMem d && (dmemReads op x c ++ dmemStores op x c).contains (fieldOf d).toNat) ||
      readsBf op x || op == 0xE0 || (op == 0xE1 && immNat x.src1 == 7) || (0x8 ≤ x.cond.toNat && x.cond.toNat ≤ 0xD)
    | .post => false
    | .gone => false
    | .line _ _ => false)

/-- Value of an A-register or 16-bit immediate operand (R149). -/
def aValue (c : Context) (o : BitVec 20) : AWord :=
  if modeOf o = 5 then c.a[(o.extractLsb' 0 3).toNat]'(o.extractLsb' 0 3).isLt else fieldOf o

/-- Value of an S register named by an operand. -/
def sValue (c : Context) (o : BitVec 20) : Word := c.s[(o.extractLsb' 0 4).toNat]'(o.extractLsb' 0 4).isLt

/-- The value an instruction would write to A7, if it writes A7 (R113). -/
def newA7 (op : Nat) (x : Issue) (c : Context) : Option AWord :=
  let names7 := modeOf x.dst == 5 && (x.dst.extractLsb' 0 3).toNat == 7
  match op with
  | 0xB4 => some (c.a[7] - 1)
  | 0xB5 => some (c.a[7] + 1)
  | 0xB8 => if names7 then some (aValue c x.src1) else none
  | 0xB9 => if names7 then some (aValue c x.src1 + aValue c x.src2) else none
  | 0xBC => if names7 then some ((sValue c x.src1).extractLsb' 0 16) else none
  | 0xC5 => if names7 then some (c.a[7] - 1) else none
  | _ => none

/-- Control target of an instruction, if it has one (R112, R150). A target above 0x1FFF, which only a handler may name, goes
to its low 13 bits, as RETT 1 from 0x1FFF does. [log entry 154: DESIGN CHOICE] -/
def controlTarget (op : Nat) (x : Issue) (c : Context) : Option Nat :=
  match op with
  | 0xC0 | 0xC2 | 0xC5 => some (immNat x.src1)
  | 0xC1 | 0xC3 => some (sValue c x.src1).toNat
  | 0xC4 => some c.lk.toNat
  | _ => none

/-- Operand bits that R156 reserves, and RETT outside a handler (R152): RESERVED_FIELD at issue. -/
def valueReserved (op : Nat) (x : Issue) (c : Context) : Bool :=
  let v := (sValue c x.src1).toNat
  match op with
  | 0xCF => !c.th
  | 0xE5 | 0xE6 | 0xE7 | 0xE8 => v ≥ 2 ^ 21
  | 0xE9 => v ≥ 2 ^ 5
  | 0xEA | 0xEB => v ≥ 2 ^ 35 || bitsOf v 27 24 != 0
  | _ => false

/-- Coordinates that GETPE reads (R140). -/
def getpeBad (r : Option Rect) (x : Issue) (c : Context) : Bool :=
  let v := (sValue c x.src2).toNat
  match r with
  | some r =>
    v ≥ 2 ^ 16 || !(r.x0.toNat * 32 ≤ v % 256 && v % 256 < (r.x0.toNat + r.w) * 32 &&
      r.y0.toNat * 32 ≤ v / 256 && v / 256 < (r.y0.toNat + r.h) * 32)
  | none => true

/-- Row 5 of R115; a bow without a group runs no array instruction (R232). A target is not checked while TH is set
(R112), but the bits of S above a target are (R150). -/
def rangeBad (op : Nat) (x : Issue) (w : Bow) (u : Bool) (c : Context) : Bool :=
  match opSpec op with
  | none => false
  | some sp =>
    if sp.cls = .array then
      let n := arrayWidths op x
      let d := planeBase c.a x.dst
      w.group.isNone || (sp.dst &&& mM != 0 && !planesOk c.a x.dst n.1) ||
      (sp.src1 != 0 && !planesOk c.a x.src1 n.2.1) ||
      (sp.src2 != 0 && !planesOk c.a x.src2 n.2.2) ||
      (u && sp.dst &&& mM != 0 && isMem x.dst && (d < c.plo.toNat || d + n.1 > c.phi.toNat + 1)) ||
      (op == 0x72 && getpeBad w.group x c)
    else
      let bad := fun (set : Nat) (o : BitVec 20) =>
        set &&& mM != 0 && isMem o && (wordAddr c.a o < 0 || wordAddr c.a o > 16383)
      let v := (sValue c x.src1).toNat
      bad sp.dst x.dst || bad sp.src1 x.src1 || bad sp.src2 x.src2 ||
      (op == 0xB5 && c.a[7].toNat > 16383) || (op == 0xB4 && (c.a[7] - 1).toNat > 16383) ||
      (u && (dmemStores op x c).any (fun a => a < c.dlo.toNat || a > c.dhi.toNat)) ||
      (match controlTarget op x c with
        | some t => !c.th && (t > 0x1FFF || t < 0x20)
        | none => false) ||
      ((op == 0xC1 || op == 0xC3) && v ≥ 2 ^ 13) ||
      ((op == 0xE5 || op == 0xE6 || op == 0xE7 || op == 0xE8) && v ≥ 0x1F0000) ||
      ((op == 0xEA || op == 0xEB) && v % 4 != 0)

/-- The instruction can fall through from 0x1FFF (R112). -/
def fallsOff (op : Nat) (x : Issue) (c : Context) : Bool :=
  c.pc = 0x1FFF && !((op == 0xC0 || op == 0xC4 || op == 0xE0) && x.cond == 0)

/-- Streams that the instruction's PORT operands name (R94). -/
def portsOf (op : Nat) (x : Issue) : List (Fin 4) :=
  match opSpec op with
  | none => []
  | some sp =>
    let p := fun (set : Nat) (o : BitVec 20) =>
      if set.testBit 8 && modeOf o == 8 then [Fin.ofNat 4 (o.extractLsb' 0 2).toNat] else []
    p sp.src1 x.src1 ++ p sp.src2 x.src2

/-- Stream n of a group is READY (R50). -/
def streamReady (s : State) (r : Rect) (n : Fin 4) : Bool :=
  let cs := rectCourses r
  cs.any (fun c => (chan s c n).st == 3) &&
  cs.all (fun c =>
    let k := chan s c n
    let ctl := reg s (crsReg c (0x100 + 0x20 * n.val))
    !((k.st == 1 || k.st == 2) && !ctl.getLsbD 2 && ctl.getLsbD 6))

/-- The line of the instruction at the PC, where the store holds it (R63). -/
def lineAt (w : Bow) (c : Context) : Option Line :=
  match c.job with
  | some j => w.lines.find? (fun l => l.base == kImage j.desc && l.num.toNat == c.pc.toNat / 8)
  | none => none

/-- The fetch of the instruction at the PC misses (R64); the trap table is resident (R62). -/
def lineMissing (w : Bow) (c : Context) : Bool := c.pc.toNat ≥ 0x20 && (lineAt w c).isNone

/-- The line of the instruction at the PC is marked invalid (R65). -/
def lineInvalid (w : Bow) (c : Context) : Bool :=
  c.pc.toNat ≥ 0x20 && (match lineAt w c with
    | some l => !l.ok
    | none => false)

/-- Requests after a miss on line `n` of an image: the line, and the next one unless it is present (R64). -/
def lineAsks (w : Bow) (base : BitVec 21) (n : Nat) : List LineAsk :=
  let others := w.asked.filter (fun q => !(q.base == base && q.num.toNat == n))
  let sent := w.asked.any (fun q => q.base == base && q.num.toNat == n && q.sent)
  let next : Bool := n + 1 < 1024 && !w.lines.any (fun l => l.base == base && l.num.toNat == n + 1) &&
    !others.any (fun q => q.base == base && q.num.toNat == n + 1)
  { base, num := BitVec.ofNat 10 n, prefetch := false, sent } ::
    (if next then { base, num := BitVec.ofNat 10 (n + 1), prefetch := true } :: others else others)

/-- A fetch misses: the line is requested, once, and the miss counted (R64).
[log entries 9: DESIGN CHOICE; 10: DEDUCED; 181: DESIGN CHOICE] -/
def requestLine (s : State) (b : Fin 16) (c : Ctx) : State :=
  let w := bow s b
  let k := ctxOf w c
  match k.job with
  | some j =>
    let n := k.pc.toNat / 8
    if w.asked.any (fun q => q.base == kImage j.desc && q.num.toNat == n && !q.prefetch) then s
    else countUp (setBow s b { w with asked := lineAsks w (kImage j.desc) n }) (bowReg b 0x080) 31 0 1
  | none => s

/-- The first instruction breakpoint that matches (R439). -/
def bpHit (s : State) (b : Fin 16) (c : Ctx) (k : Context) : Option Nat :=
  if debugOpen s && (reg s 0x90000).getLsbD 0 && !k.bpSkip then
    (List.range 4).find? (fun i =>
      let v := reg s (0x90100 + b.val * 0x40 + 4 * i)
      v.getLsbD 13 && (v.extractLsb' 0 13) == k.pc && v.getLsbD (match c with | .n => 14 | .u => 15))
  else none

/-- Sticky flags that a commit writes (R128, R131, R205). -/
def stickies (op : Nat) : Nat :=
  match op with
  | 0x1C | 0x1D | 0x50 | 0x51 | 0x57 | 0x58 => 1
  | 0x44 | 0x52 | 0x53 => 2
  | 0x54 => 3
  | 0x40 | 0x41 | 0x42 | 0x45 | 0x55 | 0x56 => 4
  | 0x43 => 5
  | _ => 0

/-- Undo entries that an instruction takes at its greatest count: planes and flags that its LOG = 1 words write (R219,
R221). [log entry 132: DESIGN CHOICE] -/
def undoBound (op : Nat) (x : Issue) : Nat :=
  let n := if modeOf x.dst = 7 then 1 else (arrayWidths op x).1
  if op ≤ 0x05 ∨ (0x0A ≤ op ∧ op ≤ 0x0D) ∨ (0x18 ≤ op ∧ op ≤ 0x1A) then n + 2
  else if op ≤ 0x09 ∨ op = 0x46 ∨ op = 0x47 then 2 * n + 3
  else if 0x10 ≤ op ∧ op ≤ 0x15 then 3
  else if op = 0x1C ∨ op = 0x1D ∨ (0x40 ≤ op ∧ op ≤ 0x45) ∨ (0x50 ≤ op ∧ op ≤ 0x58) then n + 2 + stickies op
  else if (0x20 ≤ op ∧ op ≤ 0x33) ∨ op = 0x39 ∨ (0x60 ≤ op ∧ op ≤ 0x62) then n
  else if op = 0x38 then 2
  else if 0x3A ≤ op ∧ op ≤ 0x3D then 1
  else if op = 0x48 ∨ op = 0x49 then n + 3
  else if 0x4A ≤ op ∧ op ≤ 0x4D then 4
  else if op = 0x79 then 5
  else 0

/-- BARRIER of R219, but for the trap condition. -/
def barrier (op : Nat) (x : Issue) : Bool :=
  match opSpec op with
  | none => true
  | some sp =>
    (sp.cls == .control && !(op == 0xC0 || op == 0xC5 || op == 0xC2 || op == 0xC4 || op == 0xC6 || op == 0xC8)) ||
    sp.cls == .system || readsG op x || !(portsOf op x).isEmpty || op == 0x38 || op == 0x79

/-- Outcome of the checks before an instruction issues. -/
inductive Verdict
  /-- the context does not issue -/
  | ignore
  /-- the fetch misses -/
  | miss
  /-- a routine stopped at a yield point goes on -/
  | resume
  /-- the instruction waits -/
  | wait
  /-- a breakpoint hits before the instruction -/
  | hit (index : Nat)
  /-- run-ahead stops: the byte of BOW_SPEC_STOPS to count -/
  | stop (field : Nat)
  | trap (cause : BitVec 8)
  | skip
  | exec
deriving DecidableEq, Repr

/-- Instructions that send a request (R156). -/
def sends (op : Nat) : Bool := 0xE5 ≤ op && op ≤ 0xEB

/-- Rows 5 and 6 of R115, the waits for a group's streams, for acknowledgements and for a free TAG, and the ECC check of
data memory (R68). [log entry 138: DESIGN CHOICE] -/
def lateChecks (op : Nat) (x : Issue) (s : State) (w : Bow) (c : Context) : Verdict :=
  if fallsOff op x c || rangeBad op x w (x.ctx == .u) c then .trap causeAddress
  else if (match newA7 op x c with | some v => decide (v.toNat < c.stackLo.toNat) | none => false) then .trap causeStack
  else if (match w.group with
      | some r => (portsOf op x).any (fun n => !streamReady s r n)
      | none => false) then .wait
  else if op == 0xE4 && c.asks.any (fun k => k.kind == .post) then .wait
  else if sends op && c.asks.length ≥ 128 then .wait
  else if (dmemReads op x c).any (dmemFails w) then .trap causeEcc
  else .exec

/-- A skip, which at 0x1FFF would leave the image (R112, R115 row 4). -/
def skipAt (op : Nat) (x : Issue) (c : Context) : Verdict := if fallsOff op x c then .trap causeAddress else .skip

/-- Rows 1 to 6 of R115 and the data-memory ECC check (R68), with the waits that come before them. A branch on G whose
outcome is not known is predicted where its target is in range; out of range, it waits for the outcome, which decides
between rows 4 and 5. The operand bits of R156 and RETT outside a handler are checked between rows 4 and 5, and the
instruction after a REP of count 0 takes an issue slot as a skipped one does.
[log entries 8: DESIGN CHOICE; 174: DESIGN CHOICE; 175: DESIGN CHOICE] -/
def checks (op : Nat) (x : Issue) (follow : Option IWord) (s : State) (w : Bow) (c : Context) : Verdict :=
  if lineInvalid w c then .trap causeFetch
  else
    match opSpec op with
    | none => .trap 1
    | some sp =>
      if !fieldsOk op sp x then .trap causeField
      else if (match follow with | some f => repFollowBad f | none => false) then .trap causeField
      else if (match activeRep c with | some r => r.left == 0 | none => false) then skipAt op x c
      else if needsResponse op x c then .wait
      else if readsG op x && !c.gOut.isEmpty then
        (if isGBranch op x && predicts s x.bow c && !rangeBad op x w (x.ctx == .u) c then
          (if fallsOff op x c then .trap causeAddress else .exec)
        else .wait)
      else if !condHolds x.cond c.bf then
        -- the history of a branch on G is updated all the same (R216)
        (if isGBranch op x && !fallsOff op x c then .exec else skipAt op x c)
      else if valueReserved op x c then .trap causeField
      else lateChecks op x s w c

/-- The instruction that follows a REP meets a BARRIER condition of R219: its own, or a trap under R115. -/
def followBarrier (x : Issue) (s : State) (w : Bow) (c : Context) (f : IWord) : Bool :=
  let d := decodeWord x.bow x.ctx f
  let n : BitVec 16 := if modeOf x.src1 = 6 then fieldOf x.src1 else (sValue c x.src1).extractLsb' 0 16
  barrier d.1.toNat d.2 ||
  (match checks d.1.toNat d.2 none s w { c with pc := c.pc + 1, rep := some { pc := c.pc + 1, left := n, intr := true } } with
    | .trap _ => true
    | _ => false)

/-- The verdict on a run-ahead instruction, with the stops in the order of R219. -/
def aheadVerdict (op : Nat) (x : Issue) (follow : Option IWord) (s : State) (w : Bow) (c : Context) (win : Window) : Verdict :=
  let v := checks op x follow s w c
  if win.slots ≥ regBits s (bowReg x.bow 0x0C0) 6 1 then .stop 0
  else if win.undo.length + undoBound op x > 1024 then .stop 1
  else if (v = .exec ∨ v = .wait) ∧ ¬ (dmemStores op x c).isEmpty ∧ win.sbuf.length ≥ 8 then .stop 2
  else if barrier op x || (match follow with | some f => followBarrier x s w c f | none => false) then .stop 3
  else match v with
    | .trap _ => .stop 3
    | v => v

/-- The opcode is one of the array class. -/
def isArray (op : Nat) : Bool := match opSpec op with
  | some sp => sp.cls == .array
  | none => false

/-- The verdict for a context. [log entries 7: DESIGN CHOICE; 8: DESIGN CHOICE] -/
def verdict (op : Nat) (x : Issue) (follow : Option IWord) (s : State) : Verdict :=
  let w := bow s x.bow
  let c := ctxOf w x.ctx
  let open' := match w.window with
    | some win => win.ctx == x.ctx
    | none => false
  if !(c.run == .running || c.run == .stalled) || c.job.isNone || c.wait.isSome then .ignore
  else if c.micro.isSome then (if isArray op then .resume else .ignore)
  else if open' && (match w.window with | some win => win.stopped || win.latent.isSome | none => false) then .wait
  else if lineMissing w c then .miss
  else
    match bpHit s x.bow x.ctx c with
    | some i => if open' then .wait else .hit i
    | none =>
      match w.window with
      | some win => if open' then aheadVerdict op x follow s w c win else checks op x follow s w c
      | none => checks op x follow s w c

/-- The context stands at its instruction, stalled. [log entry 8: DESIGN CHOICE] -/
def stall (s : State) (b : Fin 16) (c : Ctx) : State :=
  let k := ctx s b c
  setCtx s b c { k with run := .stalled }

/-- The line that an instruction was fetched from becomes the most recently used of its set (R63).
[log entry 9: DESIGN CHOICE] -/
def touchLine (w : Bow) (c : Context) : Bow :=
  match c.job with
  | some j =>
    match w.lines.find? (fun l => l.base == kImage j.desc && l.num.toNat == c.pc.toNat / 8) with
    | some l => if w.lines.head? = some l then w else { w with lines := l :: w.lines.erase l }
    | none => w
  | none => w

/-- The issue slot of an instruction that executes or is skipped. -/
def beginSlot (s : State) (b : Fin 16) (c : Ctx) : State :=
  let s := passSlot s b c
  let k := ctx s b c
  let s := setCtx s b c { k with run := .running, bpSkip := false }
  let s := setBow s b (touchLine (bow s b) k)
  let w := bow s b
  match w.window with
  | some win => if win.ctx = c then setBow s b { w with window := some { win with slots := win.slots + 1 } } else s
  | none => s

/-- A requested halt, or one that a microcode breakpoint asks for, takes effect at a preemption point (R437, R439). -/
def tryHalt (s : State) (b : Fin 16) : State :=
  if !atBoundary (bow s b) || !debugOpen s then s
  else
    match (bow s b).microHit with
    | some h => haltBow (setBow s b { bow s b with microHit := none }) b 4 h.1.toNat h.2.toNat
    | none =>
      if (reg s 0x90004).getLsbD b.val then haltBow (setRegBits s 0x90004 b.val b.val 0) b 1 0 (holder (bow s b)).pc.toNat
      else s

/-- A requested abort ends the kernel at a preemption point (R84, R107). -/
def tryAbort (s : State) (b : Fin 16) (c : Ctx) : State :=
  if (ctx s b c).aborting && atBoundary (bow s b) then endKernel s b c stAborted 0 else s

/-- What waits for an instruction boundary of a context. -/
def atEdge (s : State) (b : Fin 16) (c : Ctx) : State := tryHalt (tryAbort s b c) b

/-- A waiting launch takes the bow from N at a preemption point, or enters where N is idle (R72, R110). -/
def preempt (b : Fin 16) (ac : Nat) (s : State) : State :=
  let s := expireLaunches s b
  let w := bow s b
  if w.launches.isEmpty || w.u.job.isSome || haltedBow s b || !w.powered || !atBoundary w || s.brown.hold || swapHeld w then s
  else if w.n.job.isNone then settleMode (nextLaunch s b)
  else
    let s := flushDeliveries s b .n
    let w := bow s b
    let s := setBow s b { w with n := { w.n with run := .preempted } }
    settleMode (nextLaunch (raiseTo (countUp s (bowReg b 0x08C) 31 0 1) (bowReg b 0x090) 15 0 ac) b)

/-- A µPC executes: the first microcode breakpoint that matches asks for a halt (R439). -/
def noteUpc (s : State) (b : Fin 16) (u : BitVec 13) : State :=
  if debugOpen s && (reg s 0x90000).getLsbD 0 then
    match (List.range 2).find? (fun j =>
        let v := reg s (0x90110 + b.val * 0x40 + 4 * j)
        v.getLsbD 13 && (v.extractLsb' 0 13) == u) with
    | some j => setBow s b { bow s b with microHit := some (BitVec.ofNat 1 j, u) }
    | none => s
  else s

/-- After an instruction: a stepped context halts again (R440), a microcode breakpoint that matched asks for a halt, and
what waits for a preemption point takes effect. -/
def afterIssue (s : State) (x : Issue) : State :=
  let s := match x.upc with
    | some u => noteUpc s x.bow u
    | none => s
  let k := ctx s x.bow x.ctx
  if k.stepping && k.micro.isNone then haltBow (setCtx s x.bow x.ctx { k with stepping := false }) x.bow 2 0 k.pc.toNat
  else atEdge s x.bow x.ctx

/-- The context goes on running. -/
def rerun (s : State) (b : Fin 16) (c : Ctx) : State :=
  let k := ctx s b c
  setCtx s b c { k with run := .running }

/-- Issue an instruction: `eff` is its effect on the state in which its slot has begun and the PC still names it.
[log entry 7: DESIGN CHOICE] -/
def issueRaw (op0 : Nat) (x : Issue) (follow : Option IWord) (eff : State → State) (s : State) : State :=
  let op := opOf op0 x
  let word := encodeWord (BitVec.ofNat 8 op) x
  -- the instruction sees the values delivered at its start
  let t := deliverDue s x.bow x.ctx
  match verdict op x follow t with
  | .ignore => s
  | .miss => stall (requestLine s x.bow x.ctx) x.bow x.ctx
  | .resume => afterIssue (eff (rerun s x.bow x.ctx)) x
  | .wait => stall s x.bow x.ctx
  | .hit i => haltBow s x.bow 3 i (ctx s x.bow x.ctx).pc.toNat
  | .stop f =>
    let s := countUp s (bowReg x.bow 0x0D0) (8 * f + 7) (8 * f) 1
    let w := bow s x.bow
    let s := setBow s x.bow { w with window := w.window.map (fun win => { win with stopped := true }) }
    stall s x.bow x.ctx
  | .trap k =>
    let s := if k = causeEcc then
        logEvent t (logSource 0x02 x.bow.val) 0x0010 stEccUncorrected
          (BitVec.ofNat 24 (((dmemReads op x (ctx t x.bow x.ctx)).find? (dmemFails (bow t x.bow))).getD 0))
      else t
    afterIssue (takeTrap s x.bow x.ctx word k) x
  | .skip => afterIssue (advanceAt (beginSlot t x.bow x.ctx) x.bow x.ctx) x
  | .exec => afterIssue (eff (correctDmem (beginSlot t x.bow x.ctx) x.bow (dmemReads op x (ctx t x.bow x.ctx)))) x

/-- Issue an instruction whose effect leaves the advance of the PC as it is. -/
def issue (op : Nat) (x : Issue) (eff : State → State) (s : State) : State :=
  issueRaw op x none (fun s => advanceAt (eff s) x.bow x.ctx) s

end Sys2Proof.Machine
end

