-- ==== Sys2Proof/Machine/Registers.lean ====
section
/-! DEFINITION. What a register reads as: fields that mirror the structured state are computed, the others are held. -/

namespace Sys2Proof.Machine

/-! ### Bows (R89, R214) -/

def runCode (c : Context) : Nat := match c.run with
  | .idle => 0
  | .running => if c.th then 3 else 1
  | .stalled => 2
  | .preempted => 4
  | .halted => 5

def ctxView (c : Context) (o : Nat) (v : Nat) : Nat :=
  match o with
  | 0x00 => c.trapCause.toNat + 256 * c.th.toNat
  | 0x04 => c.trapPc.toNat
  | 0x08 => c.trapWord.toNat % 2 ^ 32
  | 0x0C => c.trapWord.toNat / 2 ^ 32 % 2 ^ 32
  | 0x10 => c.trapWord.toNat / 2 ^ 64
  | _ => v

def bowView (s : State) (b : Fin 16) (o v : Nat) : Nat :=
  let w := bow s b
  match o with
  | 0x000 => b.val + 16 * w.powered.toNat
  | 0x004 => runCode w.n + 8 * runCode w.u + 64 * w.held.toNat + 128 * w.armed.isSome.toNat + 256 * w.queue.length +
      2 ^ 15 * w.launches.length + 2 ^ 19 * w.window.isSome.toNat
  | 0x010 => putBits v 9 0 (4 + (w.lines.filter (fun l => l.pinned)).length)
  | 0x0A4 => w.patch.version.toNat
  | 0x0A8 => putBits (putBits (putBits v 8 0 w.patch.words.length) 14 9 w.patch.entries.length) 15 15 w.pending.isSome.toNat
  | _ =>
    if 0x040 ≤ o ∧ o < 0x054 then ctxView w.n (o - 0x040) v
    else if 0x060 ≤ o ∧ o < 0x074 then ctxView w.u (o - 0x060) v
    else if 0x100 ≤ o ∧ o < 0x180 then
      match w.patch.entries[(o - 0x100) / 4]? with
      | some e => e.toNat % 2 ^ 20 + 2 ^ 20
      | none => 0
    else v

/-- CAPO_GROUPn. -/
def groupView (s : State) (b : Fin 16) : Nat :=
  let w := bow s b
  match w.group with
  | some r => r.x0.toNat + 8 * r.y0.toNat + 64 * (r.w - 1) + 512 * (r.h - 1) + 2 ^ 12 + 2 ^ 13 * w.held.toNat +
      2 ^ 14 * w.armed.isSome.toNat + 2 ^ 16 * w.clock.toNat
  | none => 2 ^ 14 * w.armed.isSome.toNat + 2 ^ 16 * w.clockSet.toNat

/-- State code of a logical course (R77); one that its own bow's expansion has reserved shows ATTACHED.
[log entry 152: DESIGN CHOICE] -/
def courseCode (s : State) (c : Fin 64) : Nat :=
  let k := course s c
  let moving : Bool := match s.migration with
    | some m => m.logical == c
    | none => false
  if k.owner.isSome then (if moving then 5 else 2)
  else if k.reserved.isSome then 3
  else if k.leased then 4
  else if k.ready then 0 else 1

def nibbles (f : Nat → Nat) (n : Nat) : Nat := (List.range n).foldl (fun v i => v + f i * 2 ^ (4 * i)) 0
def octets (f : Nat → Nat) (n : Nat) : Nat := (List.range n).foldl (fun v i => v + f i * 2 ^ (8 * i)) 0

/-! ### Courses (R53, R57) -/

def speculating (s : State) (b : Fin 16) : Bool := (bow s b).window.isSome

/-- The course belongs to a group that runs ahead. -/
def courseSpeculative (s : State) (c : Fin 64) : Bool := match (course s c).owner with
  | some b => speculating s b
  | none => false

def courseView (s : State) (c : Fin 64) (o v : Nat) : Nat :=
  let k := course s c
  if o = 0 then
    c.val + 256 * (s.lmap[c]).val + (match k.owner with | some b => 2 ^ 16 * b.val + 2 ^ 20 | none => 0) +
      2 ^ 21 * (courseSpeculative s c).toNat
  else if 0x100 ≤ o ∧ o < 0x180 ∧ o % 0x20 = 0x10 then
    let n := Fin.ofNat 4 ((o - 0x100) / 0x20)
    let ch := k.chans[n]
    putBits (putBits (putBits v 1 0 ch.st.toNat) 20 10 ch.consumed) 21 21 (courseSpeculative s c).toNat
  else v

/-! ### Timebase and service (R335, R424) -/

def tbView (s : State) (o v : Nat) : Nat :=
  match o with
  | 0x004 => putBits v 1 1 (lfMode s).toNat
  | 0x008 => s.epoch.toNat % 2 ^ 32
  | 0x00C => s.epoch.toNat / 2 ^ 32
  | 0x028 => (s.epoch + reg64 s 0x50020 0x50024).toNat % 2 ^ 32
  | 0x02C => (s.epoch + reg64 s 0x50020 0x50024).toNat / 2 ^ 32
  | 0x400 => putBits v 8 0 s.sched.length
  | 0x608 => etioState s
  | _ =>
    if 0x100 ≤ o ∧ o < 0x200 ∧ o % 0x20 = 0x04 then (phValue s (Fin.ofNat 8 ((o - 0x100) / 0x20))).toNat % 2 ^ 32
    else if 0x100 ≤ o ∧ o < 0x200 ∧ o % 0x20 = 0x08 then (phValue s (Fin.ofNat 8 ((o - 0x100) / 0x20))).toNat / 2 ^ 32
    else if 0x1000 ≤ o ∧ o < 0x1400 ∧ o % 0x40 = 0x34 then
      putBits v 5 5 (lfTimers s && !(reg s (0x50000 + o - 0x34)).getLsbD 2).toNat
    else v

/-- State code of a physical course (R424). -/
def pstateCode : PState → Nat
  | .active => 0 | .spareOn => 1 | .spareOff => 2 | .leased => 3 | .mirror => 4 | .retest => 5 | .failed => 6

def svcView (s : State) (o v : Nat) : Nat :=
  if 0x040 ≤ o ∧ o < 0x064 then
    let m := (o - 0x040) / 4
    nibbles (fun k => pstateCode s.pcourse[Fin.ofNat 68 (8 * m + k)]) (if m = 8 then 4 else 8)
  else if 0x080 ≤ o ∧ o < 0x0C0 then octets (fun k => (s.lmap[Fin.ofNat 64 (o - 0x080 + k)]).val) 4
  else if o = 0x0D0 then s.logNext % 2 ^ 32
  else if o = 0x4000 then putBits v 3 3 s.guard.heldAt.isSome.toNat
  else if o = 0x4004 then
    let g := gainAt s
    min (g.1 * 2 ^ 23 / g.2) (2 ^ 24 - 1)
  else if 0x4200 ≤ o ∧ o < 0x4300 then
    let c := s.guard.chans[Fin.ofNat 16 ((o - 0x4200) / 16)]
    let x := if o % 16 < 8 then c.rms else c.peak
    if o % 8 = 0 then x.toNat % 2 ^ 32 else x.toNat / 2 ^ 32
  else v

/-! ### Debug (R440, R442) -/

/-- A context item of R440. [log entry 43: DEDUCED] -/
def debugItem (c : Context) (i : Nat) : Word :=
  if i = 0 then c.pc.setWidth 40
  else if i ≤ 16 then c.s[Fin.ofNat 16 (i - 1)]
  else if i ≤ 24 then (c.a[Fin.ofNat 8 (i - 17)]).setWidth 40
  else match i with
    | 25 => c.lk.setWidth 40
    | 26 => c.rc.setWidth 40
    | 27 => c.bf.setWidth 40
    | 28 => c.fpctl.setWidth 40
    | 29 => c.stackLo.setWidth 40
    | _ => 0

def dbgView (s : State) (o v : Nat) : Nat :=
  if 0x100 ≤ o ∧ o < 0x500 ∧ (o % 0x40 = 0x20 ∨ o % 0x40 = 0x24) then
    let b := Fin.ofNat 16 ((o - 0x100) / 0x40)
    let sel := reg s (0x9011C + b.val * 0x40)
    let x := debugItem (ctx s b (if sel.getLsbD 6 then .u else .n)) (sel.toNat % 64)
    if o % 0x40 = 0x20 then x.toNat % 2 ^ 32 else x.toNat / 2 ^ 32
  else if 0x800 ≤ o ∧ o < 0x820 then (Config.nonce s.nonce).toNat / 2 ^ (8 * (o - 0x800)) % 2 ^ 32
  else v

/-! ### Reading a register -/

/-- The host's link is up: the PCI Express domain is powered and the function set up (R337). -/
def hostLinkUp (s : State) : Bool := (reg s 0x70018).getLsbD 30

/-- ALERT_N: low while a bit of SVC_ALERT that SVC_ALERT_EN enables is set (R417, R419). -/
def alertN (s : State) : Bool := reg s 0x70004 &&& reg s 0x70008 == 0

/-- CLKREQ_N: asserted, low, whenever the link is not in L2 or L3 (R337). [log entry 139: DESIGN CHOICE] -/
def clkreqN (s : State) : Bool := !hostLinkUp s

/-- The value of the register at a BAR0 offset, or at an offset of a course's file from 0x100000.
[log entry 128: DESIGN CHOICE] -/
def regView (s : State) (o : Nat) : Reg32 :=
  let v := (reg s o).toNat
  BitVec.ofNat 32 (
    if o < 0x1000 then
      if 0x800 ≤ o ∧ o < 0x840 ∧ o % 4 = 0 then groupView s (Fin.ofNat 16 ((o - 0x800) / 4))
      else if 0x840 ≤ o ∧ o < 0x860 ∧ o % 4 = 0 then nibbles (fun k => courseCode s (Fin.ofNat 64 ((o - 0x840) / 4 * 8 + k))) 8
      else v
    else if 0x3000 ≤ o ∧ o < 0x4000 ∧ o % 0x40 = 0x18 then putBits v 8 0 (s.cq[Fin.ofNat 64 ((o - 0x3000) / 0x40)]).held.length
    else if o = 0x1004 then if hostLinkUp s then putBits (putBits v 6 4 (Config.linkSpeed.val + 1)) 9 7 (2 ^ Config.linkWidth.val) else v
    else if o = 0x9000 then s.msixPend.toNat % 2 ^ 32
    else if o = 0x9004 then s.msixPend.toNat / 2 ^ 32
    else if o < 0x10000 then v
    else if o < 0x20000 then bowView s (Fin.ofNat 16 ((o - 0x10000) / 0x1000)) (o % 0x1000) v
    else if o = 0x30090 then
      s.lease.block.toNat + 2 ^ 9 * (match s.lease.st with | .none => 0 | .copy => 1 | .redirect => 2 | .restore => 3) +
        2 ^ 11 * s.lease.retained.toNat
    else if 0x50000 ≤ o ∧ o < 0x60000 then tbView s (o - 0x50000) v
    else if o = 0x60040 then (Config.deviceUid 0).toNat % 2 ^ 32
    else if o = 0x60044 then (Config.deviceUid 0).toNat / 2 ^ 32
    else if 0x70000 ≤ o ∧ o < 0x80000 then svcView s (o - 0x70000) v
    else if 0x90000 ≤ o ∧ o < 0xA0000 then dbgView s (o - 0x90000) v
    else if o = pciReg 0x80 then if hostLinkUp s then putBits (putBits v 19 16 (Config.linkSpeed.val + 1)) 25 20 (2 ^ Config.linkWidth.val) else v
    else if pciReg 0 ≤ o then v
    else if 0x100000 ≤ o then courseView s (Fin.ofNat 64 ((o - 0x100000) / 0x400)) (o % 0x400) v
    else v)

/-- A read of ET_WIDTH_HI is remembered for CAP_OVR (R332). -/
def noteRead (s : State) (o : Nat) : State :=
  if 0x51000 ≤ o ∧ o < 0x51400 ∧ o % 0x40 = 0x30 then
    let t := Fin.ofNat 16 ((o - 0x51000) / 0x40)
    { s with timers := s.timers.set t { s.timers[t] with widthRead := true } }
  else s

/-- Registers that the closed debug lock hides (R434). [log entry 43: DEDUCED] -/
def dbgHidden (o : Nat) : Bool := 0x90000 ≤ o && o < 0x90800

/-- A host read of BAR0: where no register lies, 0 (R339); write-only fields read as zero (R6). -/
def bar0Read (s : State) (o : Nat) : Reg32 :=
  match (if o < 0x100000 then regLayout o else none) with
  | none => 0
  | some fs => if dbgHidden o && !debugOpen s then 0 else regView s o &&& ~~~(BitVec.ofNat 32 (maskOf [.wo] fs))

end Sys2Proof.Machine
end

