-- ==== Sys2Proof/Machine/Debug.lean ====
section
/-! DEFINITION. Halting, resuming and stepping bows, writing a halted context, and the debug lock (R434 to R440). -/

namespace Sys2Proof.Machine

/-- A bow is halted (R442). -/
def bowHalted (s : State) (b : Fin 16) : Bool := (reg s 0x90010).getLsbD b.val

/-- DBG_HALT names a bow (R437): the request stands until the bow reaches a preemption point. -/
def requestHalt (s : State) (b : Fin 16) : State :=
  if bowHalted s b then s else tryHalt (setRegBits s 0x90004 b.val b.val 1) b

def requestHalts (s : State) (bows : BitVec 16) : State :=
  (List.finRange 16).foldl (fun s b => if bows.getLsbD b.val then requestHalt s b else s) s

/-- A halted context goes on; the instruction at its PC runs without looking at its breakpoint. -/
def unhalt (c : Context) : Context :=
  match c.run with
  | .halted => { c with run := if c.wait.isSome then .stalled else .running, bpSkip := true }
  | _ => c

/-- A bow is resumed (R440). -/
def resumeBow (s : State) (b : Fin 16) : State :=
  if bowHalted s b then
    let w := bow s b
    setRegBits (setBow s b { w with n := unhalt w.n, u := unhalt w.u }) 0x90010 b.val b.val 0
  else s

/-- DBG_RESUME: with the last halted bow, HALT ends and the mode before it returns (R437, R398). -/
def resumeBows (s : State) (bows : BitVec 16) : State :=
  let s := (List.finRange 16).foldl (fun s b => if bows.getLsbD b.val then resumeBow s b else s) s
  if s.mode = .halt ∧ reg s 0x90010 = 0 then settleMode (setMode s s.before) else s

/-- DBG_STEP runs one instruction of a halted context (R440). -/
def stepBow (s : State) (b : Fin 16) (c : Ctx) : State :=
  let k := ctx s b c
  if bowHalted s b && k.run == .halted then setCtx s b c { unhalt k with stepping := true } else s

/-- Write one half of a context item of R440. [log entry 43: DEDUCED] -/
def setDebugItem (c : Context) (i : Nat) (v : Word) : Context :=
  if i = 0 then { c with pc := v.extractLsb' 0 13 }
  else if i ≤ 16 then { c with s := c.s.set (Fin.ofNat 16 (i - 1)) v }
  else if i ≤ 24 then { c with a := c.a.set (Fin.ofNat 8 (i - 17)) (v.extractLsb' 0 16) }
  else match i with
    | 25 => { c with lk := v.extractLsb' 0 13 }
    | 26 => { c with rc := v.extractLsb' 0 16 }
    | 27 => { c with bf := v.extractLsb' 0 10 }
    | 28 => { c with fpctl := v.extractLsb' 0 4 }
    | 29 => { c with stackLo := v.extractLsb' 0 14 }
    | _ => c

/-- A write of DBG_CTXb_LO or _HI; only a halted bow takes it. The second value says that reserved bits were not zero.
[log entry 43: DEDUCED] -/
def writeDebugItem (s : State) (b : Fin 16) (hi : Bool) (v : Reg32) : State × Bool :=
  let extra : Bool := hi && v.toNat ≥ 256
  if !bowHalted s b then (s, extra)
  else
    let sel := reg s (0x9011C + b.val * 0x40)
    let c : Ctx := if sel.getLsbD 6 then .u else .n
    let k := ctx s b c
    let i := sel.toNat % 64
    let old := debugItem k i
    let new : Word := if hi then (v.extractLsb' 0 8 ++ old.extractLsb' 0 32 : BitVec 40)
      else (old.extractLsb' 32 8 ++ v : BitVec 40)
    (setCtx s b c (setDebugItem k i new), extra)

/-! ### The lock (R435) -/

/-- CFG_LIFECYCLE: the owner key is provisioned, or revoked (R385). -/
def ownerProvisioned (s : State) : Bool := (reg s 0x60030).getLsbD 3
def ownerRevoked (s : State) : Bool := (reg s 0x60030).getLsbD 4

/-- Whether the signature written to DBG_RESPONSE verifies with the owner key, over CFG_DEVUID and the nonce.
[log entry 19: DESIGN CHOICE] -/
def responseOk (s : State) : Bool :=
  Config.responseValid s.ownerKey ([reg s 0x60040, reg s 0x60044]) (Config.nonce s.nonce)
    ((List.range 24).map (fun i => reg s (0x90840 + 4 * i)))

/-- A check of the response: it opens the lock in FIELD, or counts a failure; the second value says that the third
failure in a row raises tamper source 4 (R389). The nonce changes. No signature is valid without an owner key in force. -/
def unlockCheck (s : State) (ok : Bool) : State × Bool :=
  let field : Bool := regBits s 0x60030 2 0 = 2
  let s := { s with nonce := s.nonce + 1 }
  if ok && ownerProvisioned s && !ownerRevoked s then
    let s := setRegBits s 0x908A0 3 2 0
    (if field then setRegBits s 0x90000 2 2 1 else s, false)
  else
    let n := regBits s 0x908A0 3 2 + 1
    if n ≥ 3 then (setRegBits s 0x908A0 3 2 (if field then 0 else 3), field) else (setRegBits s 0x908A0 3 2 n, false)

/-- DBG_UNLOCK.LOCK closes the lock: boundary scan has no control of the balls then (R432). -/
def unlockLock (s : State) : State :=
  let t := setRegBits s 0x90000 2 2 0
  if debugOpen t then t else { t with jtag := { t.jtag with control := false } }

end Sys2Proof.Machine
end

