-- ==== Sys2Proof/Machine/Noc.lean ====
section
/-! DEFINITION. The network between its interfaces: identities and ports, injection at the source NI, arrival at the
destination NI with the checks of R255, and responses (R239 to R257, R428). -/

namespace Sys2Proof.Machine

/-! ### Packet types (R245) -/

def ptRd : Nat := 0
def ptWr : Nat := 1
def ptAtomic : Nat := 2
def ptRegRd : Nat := 3
def ptRegWr : Nat := 4
def ptCpPush : Nat := 5
def ptHostRd : Nat := 6
def ptHostWr : Nat := 7
def ptNotify : Nat := 8
def ptMarker : Nat := 9
def ptResp : Nat := 10

/-- The request is answered with a RESP (R245); a reserved TYPE is answered on the response class (R255). -/
def wantsResp (t : Nat) (p : Packet) : Bool :=
  t = ptRd || t = ptAtomic || t = ptRegRd || t = ptHostRd || t > ptResp ||
  ((t = ptWr || t = ptRegWr || t = ptHostWr) && p.arg.getLsbD 0)

def half (n : Nat) : Nat := (n + 1) / 2

/-- Payload flits that TYPE and WORDS imply (R245). -/
def flitsOf (t words : Nat) : Nat :=
  if t = ptRd ∨ t = ptRegRd ∨ t = ptMarker then 0
  else if t = ptHostRd then 1
  else if t = ptHostWr then 1 + half words
  else half words

/-- WORDS that R245 allows for a type. -/
def wordsOk (t words : Nat) : Bool :=
  if t = ptRd ∨ t = ptWr ∨ t = ptCpPush ∨ t = ptHostRd then 1 ≤ words && words ≤ 32
  else if t = ptAtomic ∨ t = ptRegRd ∨ t = ptRegWr then words == 1
  else if t = ptHostWr then 1 ≤ words && words ≤ 30
  else if t = ptNotify then 1 ≤ words && words ≤ 4
  else if t = ptMarker then words == 0
  else words ≤ 32

/-- Check 1 of R255: reserved type, reserved fields and ARG values, WORDS and the flit count. What a NOTIFY carries in ARG and
ADDR is its sender's (R245). A CP_PUSH is no write: it leaves LANES zero, or names whole words.
[log entries 25: DEDUCED; 177: DESIGN CHOICE] -/
def formOk (t : Nat) (p : Packet) : Bool :=
  let a := p.addr.toNat
  t ≤ ptResp && wordsOk t p.words.toNat && p.flits == flitsOf t p.words.toNat &&
  (if t = ptWr ∨ t = ptRegWr ∨ t = ptHostWr then p.arg.toNat ≤ 1
   else if t = ptAtomic then p.arg.toNat ≤ 2
   else if t = ptCpPush then p.arg.toNat ≤ 3
   else if t = ptNotify then true else p.arg == 0) &&
  (if t = ptRegRd ∨ t = ptRegWr then a < 65536
   else if t = ptCpPush ∨ t = ptHostRd ∨ t = ptHostWr ∨ t = ptMarker then a == 0
   else if t = ptResp then a < 256 && (p.words == 0 || a == 0 || a == 0x22) else true) &&
  (if t = ptRd ∨ t = ptRegRd ∨ t = ptHostRd then p.lanes == 0b11111
   else if t = ptCpPush then p.lanes == 0 || p.lanes == 0b11111
   else if t = ptNotify ∨ t = ptMarker ∨ t = ptResp then p.lanes == 0 else true)

/-! ### Identities and ports (R239 to R242) -/

def clsOf (id : BitVec 12) : Nat := (id.extractLsb' 8 4).toNat
def instOf (id : BitVec 12) : Nat := (id.extractLsb' 0 8).toNat
def ident (cls inst : Nat) : BitVec 12 := BitVec.ofNat 12 (cls * 256 + inst % 256)

/-- Node and port of a physical course. -/
def physPort (p : Nat) : Nat × Nat := if p < 64 then (p / 2, p % 2) else (p - 32, 0)

/-- Node and port that an identity translates to; `src` is the source node, which chooses a store interface. -/
def portOf (s : State) (id : BitVec 12) (src : Nat) : Option (Nat × Nat) :=
  let n := instOf id
  match clsOf id with
  | 0x0 => if n < 64 then some (physPort (s.lmap[Fin.ofNat 64 n]).val) else none
  | 0x1 => if n < 16 then some (2 * n + 1, 2) else none
  | 0x2 => if n < 4 then some (32 + n, 1 + src % 2) else none
  | 0x3 => if n < 4 then some (10 * n, 2) else none
  | 0x4 => if n = 0 then some (32, 3) else none
  | 0x5 => if n = 0 then some (33, 3) else none
  | 0x6 => if n < 4 then some (4, 2) else if n < 8 then some (14, 2) else none
  | 0x7 => if n < 4 then some (24, 2) else none
  | 0x8 => if n < 6 then some (28, 2) else none
  | 0x9 => if n < 2 then some (34 + n, 3) else none
  | 0xA => if n < 68 then some (physPort n) else none
  | _ => none

/-- Device number and ring size (R441). -/
def ownDev (s : State) : BitVec 3 := BitVec.ofNat 3 (regBits s 0x80000 2 0)
def ringSize (s : State) : Nat := regBits s 0x80000 6 3
def linkReg (n : Nat) (o : Nat) : Nat := 0x80100 + n * 0x40 + o
def linkUp (s : State) (n : Nat) : Bool := regBits s (linkReg n 0) 2 0 == 4

/-- The peer link that a packet for another device takes, if one can (R428). -/
def peerRoute (s : State) (ddev : BitVec 3) : Option Nat :=
  let n := ringSize s
  let f := (ddev.toNat + n - (ownDev s).toNat) % n
  let first := if f ≤ n / 2 then 0 else 1
  if ddev.toNat ≥ n then none
  else if linkUp s first then some first
  else if linkUp s (1 - first) then some (1 - first)
  else none

/-- The NI at which a packet enters this device's network: its client's, or that of the peer link it came over. -/
def sourcePort (s : State) (p : Packet) : Option (Nat × Nat) :=
  if p.sdev = ownDev s then
    portOf s p.src (match portOf s p.dst 0 with
      | some q => q.1
      | none => 0)
  else
    let n := ringSize s
    let f := ((ownDev s).toNat + n - p.sdev.toNat) % n
    some (if f ≤ n / 2 then 35 else 34, 3)

/-- The store's quadrant is written into INSTANCE by the source NI (R242). -/
def withQuadrant (t : Nat) (p : Packet) : Packet :=
  if clsOf p.dst = 2 ∧ (t = ptRd ∨ t = ptWr ∨ t = ptAtomic) then { p with dst := ident 2 (p.addr.extractLsb' 3 2).toNat }
  else p

/-! ### NI registers (R257) -/

def niReg (np : Nat × Nat) (o : Nat) : Nat := 0x22000 + (4 * np.1 + np.2) * 0x20 + o
def niState (s : State) (np : Nat × Nat) : Nat := regBits s (niReg np 0) 1 0
def setNiState (s : State) (np : Nat × Nat) (v : Nat) : State := setRegBits s (niReg np 0) 1 0 v

/-- Count a failure in NOC_NI_ERR. [log entry 76: DEDUCED] -/
def niErr (s : State) (np : Nat × Nat) (st : Status) : State :=
  setRegBits (countUp s (niReg np 8) 15 0 1) (niReg np 8) 23 16 st.toNat

def niDrop (s : State) (np : Nat × Nat) : State := countUp s (niReg np 4) 31 0 1

/-- Local port p of router n is enabled. -/
def portEnabled (s : State) (np : Nat × Nat) : Bool := (reg s (0x20000 + np.1 * 0x80)).getLsbD np.2

/-- The domain of the client at a port (R394): 95 for the always-on ones. -/
def domainOf (np : Nat × Nat) : Nat :=
  if np.1 < 32 ∧ np.2 < 2 then 2 * np.1 + np.2
  else if np.1 ≥ 32 ∧ np.2 = 0 then np.1 + 32
  else if np.1 ≥ 32 ∧ (np.2 = 1 ∨ np.2 = 2) then 88 + (np.1 - 32)
  else if np.1 < 32 ∧ np.1 % 2 = 1 then 68 + np.1 / 2
  else if np.1 = 0 ∨ np.1 = 10 ∨ np.1 = 20 ∨ np.1 = 30 then 84 + np.1 / 10
  else if np = (32, 3) then 94
  else if np = (34, 3) then 92
  else if np = (35, 3) then 93
  else 95

/-- The ports of a domain's clients; the always-on ports are the others in use. -/
def portsOfDomain (d : Nat) : List (Nat × Nat) :=
  ((List.range 36).flatMap (fun n => (List.range 4).map (fun p => (n, p)))).filter
    (fun np => niUsed np.1 np.2 && domainOf np == d)

/-! ### Power of a domain (R394, R395) -/

/-- SVC_DOMAIN_ON0 to 2: bit d of the 96. -/
def domainOn (s : State) (d : Nat) : Bool := (reg s (0x70010 + d / 32 * 4)).getLsbD (d % 32)

def markDomain (s : State) (d : Nat) (on : Bool) : State :=
  setRegBits s (0x70010 + d / 32 * 4) (d % 32) (d % 32) on.toNat

/-- Set the state of every NI of a domain. -/
def setDomainNis (s : State) (d v : Nat) : State := (portsOfDomain d).foldl (fun s np => setNiState s np v) s

/-! ### Injection (R255, R428, R253) -/

def mkSent (t : Nat) (p : Packet) : Sent := { type := BitVec.ofNat 4 t, pkt := p }

/-- The RESP of a request (R245): words only with OK or UNDEF_READ. -/
def respOf (s : State) (p : Packet) (st : Status) (data : List Word) : Packet :=
  let data := if st = stOK ∨ st = stUndefRead then data else []
  { ddev := p.sdev, dst := p.src, sdev := ownDev s, src := p.dst, tag := p.tag, words := BitVec.ofNat 6 data.length,
    addr := st.setWidth 21, lanes := 0, arg := 0, data, flits := half data.length, host := 0 }

/-- The source NI cannot send the packet: BAD_ADDRESS (R255, R428). -/
def sourceBad (s : State) (p : Packet) (np : Nat × Nat) : Bool :=
  if p.ddev = ownDev s then
    match portOf s p.dst np.1 with
    | some q => !portEnabled s q
    | none => true
  else (peerRoute s p.ddev).isNone

/-- The identity of a packet is being moved: its source NI holds it (R253). -/
def isHeld (s : State) (p : Packet) : Bool :=
  match s.idMove with
  | some m => p.ddev == ownDev s && p.dst == ident 0 m.1.val
  | none => false

/-- The source NI's choice of a way: for another device, the link that R428 names. -/
def viaOf (s : State) (p : Packet) : Via :=
  if p.ddev = ownDev s then .inside
  else match peerRoute s p.ddev with
    | some l => .over (Fin.ofNat 2 l)
    | none => .inside

/-- A source NI answers its own client at once, without injecting (R255). -/
def answerOwn (s : State) (p : Packet) (st : Status) : State :=
  { s with flight := s.flight ++ [{ mkSent ptResp (respOf s p st []) with via := .own }] }

/-- A client presents a packet to its NI: one that is not OPEN injects responses only (R254). -/
def inject (s : State) (t : Nat) (p : Packet) : State :=
  match sourcePort s p with
  | none => s
  | some np =>
    let p := withQuadrant t p
    if t ≠ ptResp ∧ niState s np ≠ 0 then s
    else if sourceBad s p np then
      let s := niErr s np stBadAddress
      if wantsResp t p then answerOwn s p stBadAddress else niDrop s np
    else if isHeld s p then { s with heldBack := s.heldBack ++ [mkSent t p] }
    else countUp64 { s with flight := s.flight ++ [{ mkSent t p with via := viaOf s p }] } (niReg np 0x0C) (niReg np 0x10) 1

/-- Answer a request. -/
def respond (s : State) (p : Packet) (st : Status) (data : List Word) : State := inject s ptResp (respOf s p st data)

/-! ### Arrival (R255) -/

/-- The quadrant of a port: 2 RUNNING, 3 ISOLATING (R301). -/
def portState (s : State) (f : Fin 4) : Nat := regBits s 0x40000 (4 * f.val + 3) (4 * f.val)

def setFp (s : State) (f : Fin 4) (k : FpSt) : State := { s with fp := s.fp.set f k }

/-- The logic of a port reads its receive buffers flit by flit; where its image does not use the port, a packet is delivered
whole. -/
def readsFlits (s : State) (f : Fin 4) : Bool := (s.fab.quads[f]).port.isSome

/-- A packet that a port refuses is counted; a request that expects a response is answered by the port (R292). -/
def fpRefuse (s : State) (f : Fin 4) (t : Nat) (p : Packet) : State :=
  let s := countUp s (0x40040 + 4 * f.val) 11 0 1
  if t ≠ ptResp ∧ wantsResp t p then answerOwn s p stBadDescriptor else s

/-- A response of the fabric logic (R293): to a request delivered to it; one that comes after TIMEOUT is discarded and
counted, one that answers nothing is refused. [log entry 179: DESIGN CHOICE] -/
def fpRespond (s : State) (f : Fin 4) (p : Packet) : State :=
  let k := s.fp[f]
  let same := fun (q : Packet) => q.tag == p.tag && q.src == p.dst && q.sdev == p.ddev
  if k.pend.any same then inject (setFp s f { k with pend := k.pend.eraseP same }) ptResp p
  else if k.late.any same then countUp (setFp s f { k with late := k.late.eraseP same }) (0x40040 + 4 * f.val) 31 24 1
  else fpRefuse s f ptResp p

/-- A packet at the head of the transmit buffer leaves it; none where a request waits for a free place: at most 16 are
outstanding (R292). -/
def fpSend (s : State) (f : Fin 4) (t : Nat) (p : Packet) : Option State :=
  let k := s.fp[f]
  if t = ptMarker ∨ !formOk t p then some (fpRefuse s f t p)
  else if t = ptResp then some (fpRespond s f p)
  else if wantsResp t p && !sourceBad s p (10 * f.val, 2) then
    if k.out.length < 16 then some (inject (setFp s f { k with out := k.out ++ [p.tag] }) t p) else none
  else some (inject s t p)

/-- The logic presents a packet to its port, which writes SDEV and SRC: behind one that waits it waits too. A port of a
quadrant that does not run takes nothing; one that is closing takes responses (R254, R303). -/
def fpPresent (s : State) (f : Fin 4) (t : Nat) (p : Packet) : State :=
  let k := s.fp[f]
  let p := { p with sdev := ownDev s, src := ident 3 f.val }
  if portState s f ≠ 2 ∧ ¬(portState s f = 3 ∧ t = ptResp) then s
  else
    let waits := setFp s f { k with queue := k.queue ++ [mkSent t p] }
    if k.queue.isEmpty then (fpSend s f t p).getD waits else waits

/-- Packets that wait in the transmit buffer leave it in order, as far as there are places. -/
def fpDrain (f : Fin 4) : Nat → State → State
  | 0, s => s
  | n + 1, s => match (s.fp[f]).queue with
    | [] => s
    | x :: rest => match fpSend (setFp s f { s.fp[f] with queue := rest }) f x.type.toNat x.pkt with
      | some t => fpDrain f n t
      | none => s

/-- A response has been delivered to the logic: its place is free, and a waiting request is injected while the quadrant
runs. -/
def freePlace (s : State) (f : Fin 4) (tag : BitVec 8) : State :=
  let k := s.fp[f]
  fpDrain f (if portState s f = 2 then k.queue.length else 0) (setFp s f { k with out := k.out.erase tag })

/-- A client presents a packet: a fabric port applies its own rules first. [log entry 26: DESIGN CHOICE] -/
def present (s : State) (t : Nat) (p : Packet) : State :=
  if clsOf p.src = 3 ∧ p.sdev = ownDev s ∧ instOf p.src < 4 then fpPresent s (Fin.ofNat 4 (instOf p.src)) t p
  else inject s t p

/-! ### The ports together (R253, R257) -/

/-- The local ports in use. -/
def usedPorts : List (Nat × Nat) :=
  ((List.range 36).flatMap (fun n => (List.range 4).map (fun p => (n, p)))).filter (fun np => niUsed np.1 np.2)

/-- HOLD of every NI. -/
def setHolds (s : State) (v : Nat) : State := usedPorts.foldl (fun s np => setRegBits s (niReg np 0) 2 2 v) s

/-- Bit of NOC_OP. -/
def setNocOp (s : State) (bit v : Nat) : State := setRegBits s 0x23800 bit bit v

/-- Packets that were held at their source NIs are injected in order. -/
def releaseHeld (s : State) : State := s.heldBack.foldl (fun s x => inject s x.type.toNat x.pkt) { s with heldBack := [] }

/-- An identity move ends without a switch: HOLD clears, its MARKERs are gone, and injection resumes.
[log entry 67: DESIGN CHOICE] -/
def dropMove (s : State) : State :=
  match s.idMove with
  | some m => releaseHeld (setNocOp (setHolds { s with
      idMove := none
      flight := s.flight.filter (fun x => !(x.type.toNat == ptMarker && x.pkt.dst == ident 0 m.1.val)) } 0) 1 0)
  | none => s

/-! ### Flits (R243, R244) -/

/-- The header flit of a packet. -/
def headerFlit (x : Sent) : BitVec 80 :=
  let p := x.pkt
  BitVec.ofNat 80 (x.type.toNat + 2 ^ 4 * p.ddev.toNat + 2 ^ 7 * p.dst.toNat + 2 ^ 19 * p.sdev.toNat + 2 ^ 22 * p.src.toNat +
    2 ^ 34 * p.tag.toNat + 2 ^ 42 * p.words.toNat + 2 ^ 48 * p.addr.toNat + 2 ^ 69 * p.lanes.toNat + 2 ^ 74 * p.arg.toNat)

/-- Words in pairs, word 2i in bits [39:0]; the upper half of an odd last flit is zero. -/
def pairFlits : List Word → List (BitVec 80)
  | [] => []
  | [a] => [a.setWidth 80]
  | a :: b :: ws => (b ++ a : BitVec 80) :: pairFlits ws

/-- The flits of a packet: header, host address where the type has one, and as many payload flits as came with it. -/
def packetFlits (x : Sent) : List (BitVec 80) :=
  let t := x.type.toNat
  let body := (if t = ptHostRd ∨ t = ptHostWr then [x.pkt.host.setWidth 80] else []) ++ pairFlits x.pkt.data
  headerFlit x :: (body ++ List.replicate x.pkt.flits 0).take x.pkt.flits

/-- Flits of a packet in a receive buffer of a port; the last one frees a place. -/
def portFlits (x : Sent) (place : Option (BitVec 8)) : List PortFlit :=
  let fs := packetFlits x
  ((List.range fs.length).zip fs).map (fun e => { data := e.2, head := e.1 == 0, done := if e.1 + 1 = fs.length then place else none })

/-- A request enters the receive buffer of a port. -/
def fpReceive (s : State) (f : Fin 4) (x : Sent) : State :=
  if readsFlits s f then setFp s f { s.fp[f] with rxReq := (s.fp[f]).rxReq ++ portFlits x none } else s

/-- A response reaches a port; `place` says that it holds a place, which is free once the logic has it. -/
def fpAnswered (s : State) (f : Fin 4) (p : Packet) (place : Bool) : State :=
  if readsFlits s f then
    setFp s f { s.fp[f] with rxResp := (s.fp[f]).rxResp ++ portFlits (mkSent ptResp p) (if place then some p.tag else none) }
  else if place then freePlace s f p.tag else s

/-- A request has room in the receive buffer of its port: 34 flits. -/
def portRoom (s : State) (x : Sent) : Bool :=
  let f := Fin.ofNat 4 (instOf x.pkt.dst)
  !(clsOf x.pkt.dst == 3 && x.pkt.ddev == ownDev s && x.type.toNat != ptResp && readsFlits s f) ||
  decide ((s.fp[f]).rxReq.length + 1 + x.pkt.flits ≤ 34)

/-- The fields of a header flit, with no payload. -/
def headerPacket (f : BitVec 80) : BitVec 4 × Packet :=
  (f.extractLsb' 0 4,
   { ddev := f.extractLsb' 4 3, dst := f.extractLsb' 7 12, sdev := f.extractLsb' 19 3, src := f.extractLsb' 22 12
     tag := f.extractLsb' 34 8, words := f.extractLsb' 42 6, addr := f.extractLsb' 48 21, lanes := f.extractLsb' 69 5
     arg := f.extractLsb' 74 6, data := [], flits := 0, host := 0 })

/-- Words of payload flits, two to a flit. -/
def flitWords (fs : List (BitVec 80)) : List Word := fs.flatMap (fun f => [f.extractLsb' 0 40, f.extractLsb' 40 40])

/-- The packet that a header flit and its payload flits make up (R244, R245). -/
def packetOfFlits (head : BitVec 80) (body : List (BitVec 80)) : BitVec 4 × Packet :=
  let h := headerPacket head
  let t := h.1.toNat
  let hosts : Bool := t == ptHostRd || t == ptHostWr
  let pay := if hosts then body.drop 1 else body
  (h.1, { h.2 with data := if t = ptHostRd then [] else (flitWords pay).take h.2.words.toNat, flits := body.length
                   host := if hosts then (body.headD 0).extractLsb' 0 64 else 0 })

/-- Remainder of polynomial division by x^5 + x^2 + 1, the highest of `n` bits first. -/
def crc5 (v : BitVec 83) : Nat → BitVec 5 → BitVec 5
  | 0, r => r
  | n + 1, r =>
    let top := r.getLsbD 4 ^^ v.getLsbD n
    crc5 v n (if top then (r <<< 1) ^^^ 0b00101 else r <<< 1)

/-- ECC of a flit over its data and its sideband bits [2:0]: VC and HEAD. [log entry 156: DESIGN CHOICE] -/
def flitEcc (data : BitVec 80) (vc : BitVec 2) (head : Bool) : BitVec 5 :=
  crc5 ((BitVec.ofBool head ++ vc ++ data : BitVec 83)) 83 0

/-- A flit as a link carries it: data, then VC, HEAD and ECC. -/
def linkFlit (data : BitVec 80) (vc : BitVec 2) (head : Bool) : BitVec 88 := flitEcc data vc head ++ BitVec.ofBool head ++ vc ++ data

/-- A received flit passes its check. -/
def flitSound (f : BitVec 88) : Bool := linkFlit (f.extractLsb' 0 80) (f.extractLsb' 80 2) (f.getLsbD 82) == f

/-! ### The way of a packet (R238, R247) -/

/-- Moves in one ring from a coordinate to another: the shorter way, at a distance of 3 east or south. -/
def ringMoves (a b up down : Nat) : List Nat :=
  let d := (b + 6 - a) % 6
  if d ≤ 3 then List.replicate d up else List.replicate (6 - d) down

/-- A move crosses the dateline of its ring: the wrap link between coordinates 5 and 0. -/
def crosses (m x y : Nat) : Bool := match m with
  | 0 => x == 5
  | 1 => x == 0
  | 2 => y == 5
  | _ => y == 0

/-- The routers of a way: X before Y; the high VC of the class from the dateline on, within one ring. -/
def walk (low port : Nat) : List Nat → Nat → Nat → Nat → Nat → List Hop
  | [], x, y, inp, vc => [{ router := 6 * y + x, inp, vc, out := 4 + port }]
  | m :: ms, x, y, inp, vc =>
    let same : Bool := inp < 4 && inp / 2 == m / 2
    let high : Bool := crosses m x y || (same && vc != low)
    let x' := if m = 0 then (x + 1) % 6 else if m = 1 then (x + 5) % 6 else x
    let y' := if m = 2 then (y + 1) % 6 else if m = 3 then (y + 5) % 6 else y
    { router := 6 * y + x, inp, vc, out := m } :: walk low port ms x' y' (m ^^^ 1) (low + high.toNat)

/-- The way from a port to a port for a class: requests on VC0 and VC1, responses on VC2 and VC3. -/
def route (a b : Nat × Nat) (response : Bool) : List Hop :=
  let low := if response then 2 else 0
  walk low b.2 (ringMoves (a.1 % 6) (b.1 % 6) 0 1 ++ ringMoves (a.1 / 6) (b.1 / 6) 2 3) (a.1 % 6) (a.1 / 6) (4 + a.2) low

/-- The port at which a packet leaves the network: its client's, or that of a peer link. -/
def exitPort (s : State) (x : Sent) (src : Nat) : Option (Nat × Nat) := match x.via with
  | .over l => some (34 + l.val, 3)
  | .own => none
  | _ => if x.pkt.ddev = ownDev s then portOf s x.pkt.dst src else (peerRoute s x.pkt.ddev).map (fun l => (34 + l, 3))

/-- The packet travels on the response class. -/
def onResponse (x : Sent) : Bool := x.type.toNat == ptResp || x.via == .second

/-- The way of a packet. -/
def wayOf (s : State) (x : Sent) : List Hop :=
  match sourcePort s x.pkt with
  | some a => (match exitPort s x a.1 with
    | some b => route a b (onResponse x)
    | none => [])
  | none => []

/-- Two packets go from one NI to one NI on one class, so that the first stays ahead (R251). -/
def sameStream (s : State) (x y : Sent) : Bool :=
  onResponse x == onResponse y &&
  (match sourcePort s x.pkt, sourcePort s y.pkt with
    | some a, some b => a == b && (exitPort s x a.1).isSome && exitPort s x a.1 == exitPort s y b.1
    | _, _ => false)

/-- An earlier packet of the same stream is still on its way. -/
def isBehind (s : State) (x : Sent) : List Sent → Bool
  | [] => false
  | y :: ys => if y = x then false else sameStream s y x || isBehind s x ys

/-- Places of a packet's flits; none has left the source NI where the routers do not hold it yet. -/
def placesOf (s : State) (x : Sent) : List Nat := match s.torus.worms.find? (fun w => w.sent == x) with
  | some w => w.flits.map (fun f => f.place)
  | none => List.replicate (1 + x.pkt.flits) 0

/-- The router is in QUIESCE or DRAIN (R256). -/
def quiescing (s : State) (r : Nat) : Bool :=
  let v := regBits s (0x20000 + r * 0x80) 17 16
  v == 1 || v == 2

/-- A packet is held on its way: by a failed link that not all its flits have passed (R246), or by a router that grants no
header and has not granted this one (R256). -/
def linkHolds (s : State) (x : Sent) : Bool :=
  !(s.torus.failed.isEmpty && s.reconfig.isNone) &&
  (let way := wayOf s x
   let places := placesOf s x
   (List.range way.length).any (fun k => (match way[k]? with
      | some h => quiescing s h.router && decide (places.headD 0 ≤ k + 1)
      | none => false) ||
     (match way[k + 1]? with
      | some h => s.torus.failed.contains (h.router, h.inp) && places.any (fun p => p ≤ k + 1)
      | none => false)))

/-- Count flits that a router forwards (R257). -/
def countFlits (s : State) (router n : Nat) : State :=
  if n = 0 then s else countUp64 s (0x20008 + router * 0x80) (0x2000C + router * 0x80) n

/-- A packet has left the network: its remaining flits have passed the routers of its way. -/
def ejected (s : State) (x : Sent) : State :=
  let way := wayOf s x
  let places := placesOf s x
  let s := ((List.range way.length).zip way).foldl (fun s kh =>
    countFlits s kh.2.router ((places.filter (fun p => decide (p ≤ kh.1 + 1))).length)) s
  { s with torus := { s.torus with
      worms := s.torus.worms.eraseP (fun w => w.sent == x)
      replays := s.torus.replays.filter (fun r => !way.any (fun h => (h.router, h.inp) == r.1)) } }

/-- A packet that the device's own engines exchange within one step of the model: it is counted where it would be injected
and forwarded (R257). [log entry 178: DESIGN CHOICE] -/
def tally (s : State) (x : Sent) : State :=
  let s := match sourcePort s x.pkt with
    | some np => countUp64 s (niReg np 0x0C) (niReg np 0x10) 1
    | none => s
  (wayOf s x).foldl (fun s h => countFlits s h.router (1 + x.pkt.flits)) s

/-- A request and the response to it. [log entry 178: DESIGN CHOICE] -/
def tallyPair (s : State) (t : Nat) (p : Packet) (words : Nat) : State :=
  let p := withQuadrant t p
  let s := tally s (mkSent t p)
  if wantsResp t p then tally s (mkSent ptResp { respOf s p stOK [] with words := BitVec.ofNat 6 words, flits := half words }) else s

/-! ### Packets taken out of the network -/

/-- Remove the oldest packet equal to `x`; none where it is not on its way. -/
def takeSent (x : Sent) : List Sent → Option (List Sent)
  | [] => none
  | y :: ys => if y = x then some ys else (takeSent x ys).map (y :: ·)

/-! ### Peer links (R426, R428, R430) -/

/-- PEER_LINKn_STATUS.STATE. -/
def linkState (s : State) (n : Nat) : Nat := regBits s (linkReg n 0) 2 0

/-- The low `n` bytes of a value, in little-endian order. -/
def leBytes (v : Nat) (n : Nat) : List (BitVec 8) := (List.range n).map (fun i => BitVec.ofNat 8 (v / 2 ^ (8 * i)))

/-- `n` bits of the reflected IEEE 802.3 CRC. -/
def crcBits : Nat → BitVec 32 → BitVec 32
  | 0, c => c
  | n + 1, c => crcBits n (if c.getLsbD 0 then (c >>> 1) ^^^ 0xEDB88320#32 else c >>> 1)

def crcStep (c : BitVec 32) (b : BitVec 8) : BitVec 32 := crcBits 8 (c ^^^ b.setWidth 32)

/-- CRC-32 of bytes (R298). -/
def crc32 (bs : List (BitVec 8)) : BitVec 32 := (bs.foldl crcStep 0xFFFFFFFF) ^^^ 0xFFFFFFFF#32

/-- A slot of a frame: 80 data bits and the control bits VC, HEAD and VALID. -/
abbrev Slot := BitVec 80 × BitVec 4

/-- A frame (R426): four slots' data, their control bits, type, sequence number and CRC, from bit 0 on; a slot that is not
given is not VALID. [log entry 127: DESIGN CHOICE] -/
def frameBits (slots : List Slot) (type : Nat) (seq : BitVec 12) : BitVec 384 :=
  let data := (List.range 4).foldl (fun v k => v + ((slots.map (fun x => x.1.toNat)).getD k 0) * 2 ^ (80 * k)) 0
  let ctl := (List.range 4).foldl (fun v k => v + ((slots.map (fun x => x.2.toNat)).getD k 0) * 2 ^ (320 + 4 * k)) 0
  let first := data + ctl + type * 2 ^ 336 + seq.toNat * 2 ^ 340
  BitVec.ofNat 384 (first + (crc32 (leBytes first 44)).toNat * 2 ^ 352)

/-- A packet's slots on a VC, its header flit first. -/
def slotsOf (x : Sent) (vc : BitVec 2) : List Slot :=
  ((List.range (1 + x.pkt.flits)).zip (packetFlits x)).map (fun e => (e.2, (BitVec.ofBool true ++ BitVec.ofBool (e.1 == 0) ++ vc : BitVec 4)))

/-- Frames of a packet, four slots in each, numbered from `seq`, newest first. -/
def framesOf (x : Sent) : Nat → List Slot → BitVec 12 → List LinkFrame → List LinkFrame
  | 0, _, _, out => out
  | n + 1, slots, seq, out =>
    framesOf x n (slots.drop 4) (seq + 1)
      ({ bits := frameBits (slots.take 4) 0 seq, done := if n = 0 then some x else none } :: out)

/-- Frames that a packet takes. -/
def frameCount (p : Packet) : Nat := (1 + p.flits + 3) / 4

/-- A packet that leaves over a link crosses the ring dateline, between device N − 1 and device 0 (R428). -/
def crossesRing (s : State) (l : Fin 2) : Bool :=
  if l.val = 0 then (ownDev s).toNat + 1 == ringSize s else ownDev s == 0

/-- DATA frames carry a packet over a link; its sender keeps at most 64 that are not acknowledged (R430). `high` says that
the packet has crossed the dateline before. [log entry 27: DESIGN CHOICE] -/
def sendFrame (s : State) (l : Fin 2) (x : Sent) (high : Bool) : Option State :=
  let k := s.peers[l]
  let n := frameCount x.pkt
  if k.kept.length + n ≤ 64 then
    let vc := BitVec.ofNat 2 ((if onResponse x then 2 else 0) + (high || crossesRing s l).toNat)
    let fs := framesOf x n (slotsOf x vc) k.next []
    some { s with peers := s.peers.set l { k with
      next := k.next + BitVec.ofNat 12 n, kept := fs ++ k.kept, line := (fs.map (fun f => f.bits) ++ k.line).take 64 } }
  else none

/-- A link can take a packet now: packets to forward that wait go first. -/
def linkTakes (s : State) (l : Fin 2) (p : Packet) : Bool :=
  (s.peers[l]).wait.isEmpty && decide ((s.peers[l]).kept.length + frameCount p ≤ 64)

/-- The link by which a packet leaves, if one is chosen. -/
def linkOf (s : State) (x : Sent) : Option (Fin 2) := match x.via with
  | .over l => some l
  | _ => (peerRoute s x.pkt.ddev).map (Fin.ofNat 2)

/-- A packet for another device waits at its link's NI: while the link trains, or its frames are not acknowledged (R430). -/
def waitsForLink (s : State) (x : Sent) : Bool :=
  x.pkt.ddev != ownDev s && x.via != .own &&
  (match linkOf s x with
    | some l => (linkState s l.val == 4 && !linkTakes s l x.pkt) || (1 ≤ linkState s l.val && linkState s l.val ≤ 3)
    | none => [0, 1].any (fun l => 1 ≤ linkState s l && linkState s l ≤ 3))

/-! ### Packets taken out of the network, at their destination -/

/-- The entries that a packet may have on its way: as it is sent within the device, or by another way. -/
def entriesOf (t : Nat) (p : Packet) : List Sent :=
  [Via.inside, .over 0, .over 1, .second, .own].map (fun v => { mkSent t p with via := v })

/-- A packet for host memory waits at the host interface while the function is no bus master (R340). -/
def waitsForHost (s : State) (x : Sent) : Bool :=
  clsOf x.pkt.dst == 4 && (x.type.toNat == ptHostRd || x.type.toNat == ptHostWr) && x.pkt.ddev == ownDev s && !busMaster s

/-- An entry reaches its destination now: no earlier packet of its stream precedes it, and neither a failed link nor a peer
link holds it (R246, R251), and its port has room, or the host's link takes it. -/
def reaches (s : State) (x : Sent) : Bool :=
  s.flight.contains x && !isBehind s x s.flight && !linkHolds s x && !waitsForLink s x && !waitsForHost s x && portRoom s x

/-- A packet on its way is taken out; another is presented to its source NI first. None where it does not arrive: it stays on
its way. [log entry 26: DESIGN CHOICE] -/
def takeFlight (s : State) (t : Nat) (p : Packet) : State × Option Sent :=
  let leave := fun (s : State) (p : Packet) => match (entriesOf t p).find? (reaches s) with
    | some x =>
      (match takeSent x s.flight with
        | some rest => ({ ejected s x with flight := rest }, some x)
        | none => (s, none))
    | none => (s, none)
  if (entriesOf t p).any (fun x => s.flight.contains x) then leave s p else leave (present s t p) (withQuadrant t p)

/-- A failure of R255 is counted by the destination NI and recorded with its status and TYPE. -/
def noteFail (s : State) (t : Nat) (np : Nat × Nat) (st : Status) : State :=
  logEvent (niErr s np st) (logSource 0x05 (4 * np.1 + np.2)) 0x0021 st (BitVec.ofNat 24 t)

/-- The NI of the destination fails a packet (R255). [log entries 25: DEDUCED; 76: DEDUCED] -/
def failAt (s : State) (t : Nat) (p : Packet) (np : Nat × Nat) (st : Status) : State :=
  let s := noteFail s t np st
  if t = ptResp then s else if wantsResp t p then respond s p st [] else s

/-- A packet that a link cannot take: a request is answered, a posted packet is dropped and counted (R428, R430). -/
def linkRefuses (s : State) (l : Nat) (st : Status) (t : Nat) (p : Packet) : State :=
  if t ≠ ptResp ∧ wantsResp t p then respond s p st [] else countUp s (linkReg l 0x0C) 31 0 1

/-- A packet for another device leaves over its peer link; where the link will not come up it is answered (R428, R430). -/
def leaveDevice (s : State) (x : Sent) : State :=
  match linkOf s x with
  | some l =>
    if linkState s l.val = 4 then (sendFrame s l x false).getD s
    else linkRefuses s l.val stDomainOff x.type.toNat x.pkt
  | none =>
    let n := ringSize s
    let f := (x.pkt.ddev.toNat + n - (ownDev s).toNat) % n
    linkRefuses s (if f ≤ n / 2 then 0 else 1) stDomainOff x.type.toNat x.pkt

/-- A packet reaches its destination: the checks of R255 in their order, then the target's own meaning. `range` is
check 2 of the target. The answer of a source NI to its own client passes no check, and a response reaches a client in
CLOSING (R254). [log entries 25: DEDUCED; 26: DESIGN CHOICE] -/
def arrive (t : Nat) (p : Packet) (range : State → Packet → Bool) (body : Packet → (Nat × Nat) → State → State)
    (s : State) : State :=
  match takeFlight s t p with
  | (s, none) => s
  | (s, some x) =>
    let p := x.pkt
    if x.via = .own then
      (if clsOf p.dst = 3 then fpAnswered s (Fin.ofNat 4 (instOf p.dst)) p false else body p ((portOf s p.dst 0).getD (0, 0)) s)
    else if p.ddev ≠ ownDev s then leaveDevice s x
    else
      match portOf s p.dst (match sourcePort s p with
        | some q => q.1
        | none => 0) with
      | none => s
      | some np =>
        if !formOk t p then failAt s t p np stBadDescriptor
        else if clsOf p.dst = 0xA ∧ p.src ≠ ident 5 0 ∧ p.src ≠ ident 8 3 then failAt s t p np stBadAddress
        else if !range s p then failAt s t p np stBadAddress
        else if niState s np = 2 ∨ (niState s np ≠ 0 ∧ t ≠ ptResp) then
          let s := failAt s t p np stDomainOff
          if t ≠ ptResp ∧ wantsResp t p then s else niDrop s np
        else body p np s

/-- A packet whose client gives it no further effect. -/
def anyRange (_ : State) (_ : Packet) : Bool := true

end Sys2Proof.Machine
end

