-- ==== Sys2Proof/Machine/Fingerboard.lean ====
section
/-! DEFINITION. The fabric's logic: cells, carry chains, boundary wires, block RAMs, balls, reset trees, network
ports and the signals to and from the timebase, one edge of the clock trees after another (R281 to R296, R301 to R303, R306). -/

namespace Sys2Proof.Machine

/-! ### Table outputs and carry (R281, R282) -/

def tableZ6 (tt : BitVec 64) (i : Nat) : Bool := tt.getLsbD i
def tableLow (tt : BitVec 64) (i : Nat) : Bool := tt.getLsbD (2 * (i / 2))
def tableHigh (tt : BitVec 64) (i : Nat) : Bool := tt.getLsbD (2 * (i / 2) + 1)

def carryOut (kill gen ci : Bool) : Bool := gen || (ci && !kill)
def carrySum (kill gen ci : Bool) : Bool := (!kill && !gen) ^^ ci

/-! ### What stands in a quadrant -/

def quadState (s : State) (f : Fin 4) : Nat := regBits s 0x40000 (4 * f.val + 3) (4 * f.val)
def quadRuns (s : State) (f : Fin 4) : Bool := quadState s f == 2

/-- Its clocks, flip-flops and balls run: RUNNING, or ISOLATING (R301). -/
def quadLive (s : State) (f : Fin 4) : Bool := quadState s f == 2 || quadState s f == 3

def netOff : Net := .const false
def blankFf : FfConf := { d := 0, bypass := netOff, init := false, reset := .none }

/-- A cell that no image uses. -/
def blankCell : CellConf :=
  { tt := 0, inputs := Vector.replicate 6 netOff, carry := false, carryIn := netOff, clock := 0, enable := netOff, a := blankFf,
    b := blankFf }

def quadOf (c : Nat) : Fin 4 := Fin.ofNat 4 (c / 5120)

def cellOf (s : State) (c : Nat) : CellConf := match (s.fab.quads[quadOf c]).cells.find? (fun e => e.1 == c % 5120) with
  | some e => e.2
  | none => blankCell

/-- The flip-flop QA (`b` false) or QB of a cell. -/
def ffConf (k : CellConf) (b : Bool) : FfConf := if b then k.b else k.a
def ffKey (c : Nat) (b : Bool) : Nat := 2 * c + b.toNat
def ffValue (s : State) (c : Nat) (b : Bool) : Bool :=
  (ffConf (cellOf s c) b).init ^^ (cget zeroes s.fab.ffs (ffKey c b)).getLsbD 0

/-- Block RAM m of the device, and its ports. -/
def bramOf (s : State) (m : Nat) : Option BramConf :=
  ((s.fab.quads[Fin.ofNat 4 (m / 16)]).brams.find? (fun e => e.1 == m % 16)).map (fun e => e.2)
def bramPort (k : BramConf) (p : Nat) : PortConf := if p % 2 = 0 then k.a else k.b

/-- The output value of a port, registered or not. -/
def portOut (s : State) (p : Nat) : Word :=
  let outReg : Bool := match bramOf s (p / 2) with
    | some k => (bramPort k p).outReg
    | none => false
  cget zeroes s.fab.outs (2 * p + outReg.toNat)

/-- The word r of a block RAM. -/
def bramInit (k : BramConf) (r : Nat) : Word := match k.init.find? (fun e => e.1 == r) with
  | some e => e.2
  | none => 0
def bramWord (s : State) (m : Nat) (k : BramConf) (r : Nat) : Word := bramInit k r ^^^ cget zeroes s.fab.bram (512 * m + r)

def ballOf (s : State) (n : Fin 64) : Option BallConf :=
  ((s.fab.quads[Fin.ofNat 4 (n.val / 16)]).balls.find? (fun e => e.1 == n.val % 16)).map (fun e => e.2)

/-- The quadrant that drives a boundary wire: the directions of FQ0–FQ1, FQ0–FQ2, FQ1–FQ3 and FQ2–FQ3. -/
def boundarySender (w : Nat) : Fin 4 := match w / 512 with
  | 0 => 0 | 1 => 1 | 2 => 0 | 3 => 2 | 4 => 1 | 5 => 3 | 6 => 2 | _ => 3

/-- Rising edges of a tree in a quadrant since it started, up to 4. -/
def edgesSince (s : State) (q t : Fin 4) : Nat := (s.fab.edges[q])[t]

/-- The driver of a boundary wire whose latch is transparent: the sender runs, and the latch has opened on the fourth edge of
its clock (R285, R302). -/
def boundaryDriver (s : State) (w : Nat) : Option Net :=
  let q := boundarySender w
  if !quadRuns s q then none
  else
    match (s.fab.quads[q]).boundary.find? (fun e => e.wire == w) with
    | some e => if edgesSince s q e.clock ≥ 4 then some e.driver else none
    | none => some netOff

/-! ### The value of a signal -/

/-- Bits of the result of a D port. -/
def dportBits (s : State) (q : Fin 4) : BitVec 50 :=
  let r := s.dresult[q]
  (BitVec.ofBool r.busy ++ r.status ++ r.rdata ++ BitVec.ofBool r.rvalid : BitVec 50)

/-- An input ball: its level, or what its input register holds. -/
def padBit (s : State) (n : Fin 64) (bit : Nat) : Bool := match ballOf s n with
  | some k => if k.ioReg = .none then (Config.padLevel s.epoch.toNat n.val k.delay.toNat).getLsbD 0
    else (cget zeroes s.fab.padIn n.val).getLsbD bit
  | none => false

/-- A flit in a receive buffer's place: its bits from bit 0 on, HEAD in bit 80, and in bit 81 that there is one. -/
def flitBit (fs : List PortFlit) (bit : Nat) : Bool := match fs with
  | x :: _ => if bit < 80 then x.data.getLsbD bit else if bit = 80 then x.head else true
  | [] => false

/-- The transmit buffer of a port has room for a flit: it holds 34 (R292). -/
def txRoom (s : State) (f : Fin 4) : Bool :=
  decide ((s.fp[f]).tx.length + ((s.fp[f]).queue.map (fun x => 1 + x.pkt.flits)).sum < 34)

/-- What a network port presents to the logic. -/
def portBit (s : State) (f : Fin 4) (bit : Nat) : Bool :=
  if bit < 82 then flitBit (s.fp[f]).rxReq bit else if bit < 164 then flitBit (s.fp[f]).rxResp (bit - 82) else txRoom s f

/-- The value of a signal, followed through at most so many signals. -/
def netVal (s : State) : Nat → Net → Bool
  | 0, _ => Config.loopNet s.free
  | _ + 1, .const v => v
  | k + 1, .cell c o =>
    let f := cellOf s c
    let i := (List.finRange 6).foldl (fun v j => v + (netVal s k f.inputs[j]).toNat * 2 ^ j.val) 0
    let ci : Bool := if c % 64 = 0 then netVal s k f.carryIn else netVal s k (.cell (c - 1) .co)
    match o with
    | .z6 => tableZ6 f.tt i
    | .zl => tableLow f.tt i
    | .zh => tableHigh f.tt i
    | .sum => carrySum (tableLow f.tt i) (tableHigh f.tt i) ci
    | .co => if f.carry then carryOut (tableLow f.tt i) (tableHigh f.tt i) ci else ci
    | .qa => ffValue s c false
    | .qb => ffValue s c true
  | _ + 1, .bram p bit => (portOut s p).getLsbD bit
  | k + 1, .boundary w => match boundaryDriver s w with
    | some n => netVal s k n
    | none => (cget zeroes s.fab.latches w).getLsbD 0
  | _ + 1, .tap q i => (s.fab.taps[q]).getLsbD i
  | _ + 1, .phv q bit => (s.fab.phv[q]).getLsbD bit
  | _ + 1, .dport q bit => (dportBits s q).getLsbD bit
  | _ + 1, .lane l bit => (s.guard.drvOut[l]).getLsbD bit
  | _ + 1, .pad n bit => padBit s n bit
  | _ + 1, .port f bit => portBit s f bit

/-- More than the signals of the device: a chain without a loop ends before. -/
def netFuel : Nat := 200000

def net (s : State) (n : Net) : Bool := netVal s netFuel n

/-- A number from its bits, bit 0 first. -/
def netNumber (s : State) (ns : List Net) : Nat := ns.foldr (fun n v => (net s n).toNat + 2 * v) 0

/-! ### Clocks and resets (R283, R288, R289) -/

/-- Whole periods of output n of the fabric PLL in a tt: VCO / On, with the VCO at 100 MHz × M / D (R288). -/
def pllPeriods (g : GlobalConf) (n : Fin 4) : Nat := 100000 * g.pllM / (262144 * g.pllD * g.pllO[n])

/-- Rising edges of a tree in the present tt. [log entry 161: DESIGN CHOICE] -/
def treeRises (s : State) (free : Nat) (t : Fin 4) : Nat := match s.fabGlobal.trees[t] with
  | .none => 0
  | .timebase n => if n ≠ 0 ∧ s.epoch.toNat % n = 0 then 1 else 0
  | .pll n => min 2 (pllPeriods s.fabGlobal n + (Config.treeEdges free t.val).toNat % 2)
  | .input _ _ => min 2 (Config.treeEdges free t.val).toNat

/-- An edge reaches the elements of a quadrant: it runs, and its gate on the tree is open. -/
def clocked (s : State) (up : BitVec 4) (q t : Fin 4) : Bool := quadLive s q && up.getLsbD t.val && (s.fab.quads[q]).gates.getLsbD t.val

/-- The source of a reset tree asserts it. -/
def treeAsserted (s : State) (i : Fin 2) : Bool := match (s.fabGlobal.resets[i]).1 with
  | .none => false
  | .wire q n => quadRuns s q && net s n
  | .input f => padBit s (Fin.ofNat 64 (16 * f.val)) 0

/-- A source in a quadrant that does not run holds its tree deasserted. -/
def treeHeld (s : State) (i : Fin 2) : Bool := match (s.fabGlobal.resets[i]).1 with
  | .wire q _ => !quadRuns s q
  | _ => false

/-- Assertion takes effect at once, release on the second edge of the release clock. -/
def resetTree (s : State) (up : BitVec 4) (i : Fin 2) : Nat :=
  if treeHeld s i then 0
  else if treeAsserted s i then 2
  else (s.fab.resets[i]) - (up.getLsbD (s.fabGlobal.resets[i]).2.val).toNat

/-- The D input of a flip-flop. -/
def ffData (s : State) (c : Nat) (b : Bool) : Bool :=
  let f := ffConf (cellOf s c) b
  match f.d.toNat with
  | 0 => net s (.cell c (if b then .zh else .z6))
  | 1 => net s (.cell c (if b then .co else .zl))
  | 2 => net s (.cell c .sum)
  | _ => net s f.bypass

/-- A reset source is asserted: `now` for those that act without an edge. -/
def ffReset (s : State) (f : FfConf) (now : Bool) : Bool := match f.reset with
  | .none => false
  | .tree t async => async == now && s.fab.resets[t] != 0
  | .wire n async => async == now && net s n

/-- The value of a flip-flop after an edge of the trees in `up`: INITQ while it is held or reset, its D input at an enabled
edge. It is released on the second edge of its tree (R302). [log entry 160: DESIGN CHOICE] -/
def ffNext (s : State) (up : BitVec 4) (c : Nat) (b : Bool) : Bool :=
  let k := cellOf s c
  let f := ffConf k b
  if edgesSince s (quadOf c) k.clock < 2 || ffReset s f true then f.init
  else if !clocked s up (quadOf c) k.clock then ffValue s c b
  else if ffReset s f false then f.init
  else if net s k.enable then ffData s c b else ffValue s c b

/-- Every flip-flop of the quadrants that run takes its next value. -/
def stepFfs (s : State) (up : BitVec 4) : Cells 1 :=
  (List.finRange 4).foldl (fun m q => if !quadLive s q then m else
    (s.fab.quads[q]).cells.foldl (fun m e => [false, true].foldl (fun m b =>
      let c := 5120 * q.val + e.1 % 5120
      cset zeroes m (ffKey c b) (BitVec.ofBool (ffNext s up c b ^^ (ffConf (cellOf s c) b).init))) m) m) s.fab.ffs

/-! ### Block RAMs (R286, R287) -/

/-- An access of a block-RAM port at an edge: its word, place in the word, width, and the bits that it writes. -/
structure BramAccess where
  row   : Nat
  shift : Nat
  width : Nat
  mask  : Word
  data  : Word
deriving DecidableEq, Repr

/-- The bits [shift + width - 1 : shift]. -/
def spanMask (shift width : Nat) : Word := BitVec.ofNat 40 ((2 ^ width - 1) * 2 ^ shift)

/-- The access that a port makes with its present inputs; the lower addresses lie in the lower bits of a word.
[log entry 162: DESIGN CHOICE] -/
def portAccess (s : State) (p : PortConf) : BramAccess :=
  let n := 2 ^ p.aspect.toNat
  let a := netNumber s p.addr % (512 * n)
  let width := 40 / n
  let shift := a % n * width
  let lanes := (List.finRange 5).foldl (fun (m : Word) j => if net s p.lanes[j] then m ||| spanMask (8 * j.val) 8 else m) 0
  let mask := if !net s p.write then 0 else if n = 1 then lanes else spanMask shift width
  { row := a / n, shift, width, mask, data := BitVec.ofNat 40 (netNumber s p.data % 2 ^ width * 2 ^ shift) }

/-- The accesses overlap in a bit of one address. -/
def overlaps (x : BramAccess) (m : Word) (y : BramAccess) : Bool := x.row == y.row && m &&& spanMask y.shift y.width != 0

def bramErrorAt (s : State) (m r : Nat) : Option BramError := s.fab.bramErr.find? (fun e => e.block == m && e.row == r)

def bitsSet (v : BitVec 48) : Nat := (List.range 48).foldl (fun n i => n + (v.getLsbD i).toNat) 0

/-- The word that a read delivers: a single-bit error is corrected, an uncorrectable one delivered as read.
[log entry 162: DESIGN CHOICE] -/
def bramRead (s : State) (m r : Nat) (word : Word) : State × Word := match bramErrorAt s m r with
  | some e =>
    if bitsSet e.flip ≤ 1 then (countUp s 0x40050 15 0 1, word)
    else (logEvent (countUp s 0x40050 31 16 1) (logSource 0x06 (m / 16)) 0x0010 stEccUncorrected (BitVec.ofNat 24 (512 * (m % 16) + r)),
          word ^^^ e.flip.setWidth 40)
  | none => (s, word)

/-- A port's read at an edge: `other` is the access that the other port makes at it, if the two meet. -/
def portReads (s : State) (m p : Nat) (old : Word) (x : BramAccess) (other : Option BramAccess) : State :=
  let r := match other with
    | some y =>
      if overlaps y y.mask x then
        let f := takeFree s
        (f.2, old ^^^ ((old ^^^ y.data) &&& y.mask &&& Config.bramMix f.1))
      else bramRead s m x.row old
    | none => bramRead s m x.row old
  let v := (r.2 &&& spanMask x.shift x.width) >>> x.shift
  let outs := cset zeroes (cset zeroes r.1.fab.outs (2 * p + 1) (cget zeroes r.1.fab.outs (2 * p))) (2 * p) v
  { r.1 with fab := { r.1.fab with outs } }

/-- Bits of a word are written: check bits are made anew, so that a single-bit error goes, and an uncorrectable one where
the whole word is written. [log entry 162: DESIGN CHOICE] -/
def portWrites (s : State) (m : Nat) (x : BramAccess) : State :=
  if x.mask = 0 then s
  else
    let k := 512 * m + x.row
    let init := match bramOf s m with
      | some c => bramInit c x.row
      | none => 0
    let word := init ^^^ cget zeroes s.fab.bram k
    let new := (word &&& ~~~x.mask) ||| (x.data &&& x.mask)
    { s with fab := { s.fab with
        bram := cset zeroes s.fab.bram k (new ^^^ init)
        bramErr := s.fab.bramErr.filter (fun e => !(e.block == m && e.row == x.row && (bitsSet e.flip ≤ 1 || x.mask == spanMask 0 40))) } }

/-- The accesses of both ports of a block RAM at an edge, with the inputs of `s0`: where two writes meet port A's lands. -/
def stepBram (s0 : State) (up : BitVec 4) (m : Nat) (k : BramConf) (s : State) : State :=
  let q := Fin.ofNat 4 (m / 16)
  let a := if clocked s0 up q k.a.clock then some (portAccess s0 k.a) else none
  let b := if clocked s0 up q k.b.clock then some (portAccess s0 k.b) else none
  let near : Bool := k.a.clock == k.b.clock || Config.nearEdges s0.free
  let read := fun (s : State) (p : Nat) (x y : Option BramAccess) => match x with
    | some x => portReads s m p (bramWord s0 m k x.row) x (if near then y else none)
    | none => s
  let s := read (read s (2 * m) a b) (2 * m + 1) b a
  let lost : Bool := near && (match a, b with
    | some x, some y => y.mask != 0 && overlaps x x.mask y
    | _, _ => false)
  let s := match a with
    | some x => portWrites s m x
    | none => s
  match b with
  | some y => if lost then countUp s 0x40054 31 0 1 else portWrites s m y
  | none => s

def stepBrams (s0 : State) (up : BitVec 4) (s : State) : State :=
  (List.finRange 4).foldl (fun s q => if !quadLive s0 q then s else
    (s0.fab.quads[q]).brams.foldl (fun s e => stepBram s0 up (16 * q.val + e.1 % 16) e.2 s) s) s

/-! ### Balls (R291, R301, R305) -/

/-- What a ball does: the level that it drives, if any, and those that follow in the same period of its clock, strength in mA,
slew, pull. -/
structure BallNow where
  level    : Option Bool
  later    : List Bool
  strength : Nat
  fast     : Bool
  pull     : Pull
deriving DecidableEq, Repr

/-- The entry of the ball safe table. -/
def safeEntry (s : State) (n : Fin 64) : Nat := regBits s (0x40100 + n.val / 4 * 4) (8 * (n.val % 4) + 7) (8 * (n.val % 4))

/-- The safe state of a ball; before BOOT has applied the table it is high-impedance with a weak pull-down. A ball of a
quadrant that runs has the entry as it was when the quadrant started. [log entry 160: DESIGN CHOICE] -/
def safeBall (s : State) (n : Fin 64) : BallNow :=
  let e := if s.mode == .off || s.mode == .boot then 0
    else if quadLive s (Fin.ofNat 4 (n.val / 16)) then (cget zeroes s.fab.safe n.val).toNat else safeEntry s n
  let mode := e % 8
  { level := if mode = 3 then some false else if mode = 4 then some true else none, later := []
    strength := 4 * (e / 8 % 4 + 1), fast := false
    pull := if mode = 0 then .down else if mode = 1 then .up else .none }

/-- Bits that an I/O register takes in a period of its clock (R291). -/
def ioWidth : IoReg → Nat
  | .none | .sdr => 1
  | .ddr => 2
  | .serdes r => 2 ^ (r.val + 1)

/-- The configuration of a ball, and whether it is the N side of an LVDS pair: then it shows the complement of P (R290). -/
def sideConf (s : State) (n : Fin 64) : Option (BallConf × Bool) :=
  match ballOf s (Fin.ofNat 64 (n.val / 2 * 2)) with
  | some k => match k.kind with
    | .lvds _ => some (k, n.val % 2 == 1)
    | .lvcmos _ => (ballOf s n).map (fun k => (k, false))
  | none => (ballOf s n).map (fun k => (k, false))

/-- The bits that a ball sends in the present period of its clock, first bit first (R291).
[log entry 187: DESIGN CHOICE] -/
def sentBits (s : State) (n : Nat) (k : BallConf) : List Bool :=
  if !net s k.enable then []
  else if k.ioReg = .none then [net s (k.output.headD netOff)]
  else (List.range (ioWidth k.ioReg)).map (fun i => (cget zeroes s.fab.padOut n).getLsbD i)

/-- A ball under boundary scan: the level of its cell, or with HIGHZ none (R431, R432). -/
def scanBall (s : State) (n : Fin 64) : BallNow :=
  { level := if s.jtag.ir = 0x05 then none else some (s.jtag.drives.getLsbD n.val), later := [], strength := 0, fast := false, pull := .none }

/-- A ball of a quadrant that runs does what the image says from the second edge of its tree on; every other ball is in its
safe state. [log entry 160: DESIGN CHOICE] -/
def ballShows (s : State) (n : Fin 64) : BallNow :=
  if s.jtag.control then scanBall s n
  else
    let q := Fin.ofNat 4 (n.val / 16)
    match sideConf s n with
    | some (k, inv) =>
      if quadLive s q && edgesSince s q k.clock ≥ 2 then
        let bits := (sentBits s (if inv then n.val - 1 else n.val) k).map (fun b => b ^^ inv)
        { level := bits.head?, later := bits.drop 1, strength := 4 * (k.strength.toNat + 1), fast := k.fast, pull := k.pull }
      else safeBall s n
    | none => safeBall s n

/-- The levels of the FIO balls: those that the device drives, and those that come from outside.
[log entry 129: DEDUCED] -/
def fioLevels (s : State) : BitVec 64 := BitVec.ofNat 64 ((List.finRange 64).foldl (fun v n =>
  v + ((ballShows s n).level.getD ((Config.padLevel s.epoch.toNat n.val 0).getLsbD 0)).toNat * 2 ^ n.val) 0)

/-- The I/O registers of the balls at an edge take the bits of a period. -/
def stepPads (s : State) (up : BitVec 4) : Cells 8 × Cells 8 :=
  (List.finRange 4).foldl (fun c q => (s.fab.quads[q]).balls.foldl (fun c e =>
    let n := 16 * q.val + e.1 % 16
    let bits := 2 ^ ioWidth e.2.ioReg
    if clocked s up q e.2.clock && e.2.ioReg != .none then
      (cset zeroes c.1 n (BitVec.ofNat 8 ((Config.padLevel s.epoch.toNat n e.2.delay.toNat).toNat % bits)),
       cset zeroes c.2 n (BitVec.ofNat 8 (netNumber s e.2.output % bits)))
    else c) c) (s.fab.padIn, s.fab.padOut)

/-! ### The timebase (R296) -/

/-- EV0 to EV15 and ET_MATCH0 to 15. -/
def tapLevels (s : State) : BitVec 32 :=
  let m := (List.finRange 16).foldl (fun v t => v + (etOut s t).toNat * 2 ^ t.val) 0
  (BitVec.ofNat 16 m ++ s.ev : BitVec 32)

/-- What PHV_SEL selects: nothing for 9 to 15. -/
def phvValue (s : State) (sel : BitVec 4) : Word := if sel.toNat ≤ 8 then refValue s sel.toNat else 0

/-- The level that a quadrant's image drives on a signal to the timebase. -/
def tapDriven (s : State) (q : Fin 4) (i : Nat) : Bool := match (s.fab.quads[q]).taps.find? (fun e => e.1 == i) with
  | some e => net s e.2
  | none => false

def drivesTap (s : State) (q : Fin 4) (i : Nat) : Bool := (s.fab.quads[q]).taps.any (fun e => e.1 == i)

/-- The level of a signal to the timebase: that of its driver, or as it was at the driver's isolation. -/
def tapLevel (s : State) (i : Nat) : Bool :=
  match (List.finRange 4).find? (fun q => quadRuns s q && drivesTap s q i) with
  | some q => tapDriven s q i
  | none => (List.finRange 4).any (fun q => !quadRuns s q && (s.fab.held[q]).getLsbD i)

def tapWord (s : State) : BitVec 40 := BitVec.ofNat 40 ((List.range 40).foldl (fun v i => v + (tapLevel s i).toNat * 2 ^ i) 0)

/-! ### Network ports (R292, R293) -/

/-- A packet that the logic has not presented whole, or a flit without one, breaks R244: it is refused.
[log entry 187: DESIGN CHOICE] -/
def fpBroken (s : State) (f : Fin 4) (fs : List PortFlit) : State := match fs with
  | x :: _ =>
    let h := headerPacket x.data
    fpRefuse s f h.1.toNat { h.2 with sdev := ownDev s, src := ident 3 f.val }
  | [] => countUp s (0x40040 + 4 * f.val) 11 0 1

/-- The flits make up a packet: as many as its header says. -/
def flitsWhole (fs : List PortFlit) : Bool := match fs with
  | x :: _ =>
    let h := headerPacket x.data
    fs.length == 1 + flitsOf h.1.toNat h.2.words.toNat
  | [] => false

/-- The logic presents a flit; with the last one of a packet the port takes the packet. -/
def fpFlit (s : State) (f : Fin 4) (x : PortFlit) : State :=
  let old := (s.fp[f]).tx
  let s := if x.head == old.isEmpty then s else fpBroken s f (if x.head then old else [])
  let fs := if x.head then [x] else if old.isEmpty then [] else old ++ [x]
  if flitsWhole fs then
    let p := packetOfFlits ((fs.map (fun y => y.data)).headD 0) ((fs.map (fun y => y.data)).drop 1)
    fpPresent (setFp s f { s.fp[f] with tx := [] }) f p.1.toNat p.2
  else setFp s f { s.fp[f] with tx := fs }

/-- The logic takes a flit of a response; with its last one the place is free. -/
def fpTakeResp (s : State) (f : Fin 4) : State := match (s.fp[f]).rxResp with
  | x :: rest =>
    let s := setFp s f { s.fp[f] with rxResp := rest }
    match x.done with
    | some tag => freePlace s f tag
    | none => s
  | [] => s

/-- An edge of a port's clock, with the signals of `s0`: the port opens on the fourth (R302). -/
def portEdge (s0 : State) (up : BitVec 4) (s : State) (f : Fin 4) : State := match (s0.fab.quads[f]).port with
  | some c =>
    if !(clocked s0 up f c.clock && edgesSince s0 f c.clock ≥ 4) then s
    else
      let s := if net s0 c.reqReady then setFp s f { s.fp[f] with rxReq := (s.fp[f]).rxReq.drop 1 } else s
      let s := if net s0 c.respReady then fpTakeResp s f else s
      if net s0 c.valid && txRoom s0 f then
        fpFlit s f { data := BitVec.ofNat 80 (netNumber s0 c.data), head := net s0 c.head, done := none }
      else s
  | none => s

/-! ### D ports and Guard lanes at an edge (R265, R295) -/

/-- The logic has seen the result of an access: it shows for one edge of FCLK. -/
def dEdge (s0 : State) (up : BitVec 4) (s : State) : State :=
  let dresult := Vector.ofFn (fun (q : Fin 4) =>
    if clocked s0 up q (s0.fab.quads[q]).dclock then { s.dresult[q] with rvalid := false, busy := false } else s.dresult[q])
  { s with dresult, pins := { s.pins with storeBusy := dresult.toList.any (fun r => r.busy) } }

/-- The quadrant of a strobe: drive lane d, or abort input c under 32 + c. -/
def strobeQuad (k : Nat) : Fin 4 := if k < 32 then Fin.ofNat 4 (k / 8) else Fin.ofNat 4 ((k - 32) / 4)

/-- Edges of the lane clocks count towards the next strobe. -/
def strobeEdges (s : State) (up : BitVec 4) : Cells 3 := s.fab.strobes.foldl (fun m e =>
  if clocked s up (strobeQuad e.1) (s.fab.quads[strobeQuad e.1]).lclock then cset zeroes m e.1 (e.2 - 1) else m) s.fab.strobes

/-- A strobe is taken: the quadrant runs, and the previous one lies at least 4 edges back (R295).
[log entry 187: DESIGN CHOICE] -/
def strobeTaken (s : State) (k : Nat) : Bool := quadRuns s (strobeQuad k) && cget zeroes s.fab.strobes k == 0

def noteStrobe (s : State) (k : Nat) : State := { s with fab := { s.fab with strobes := cset zeroes s.fab.strobes k 4 } }

/-! ### The trigger and the shadow of a snapshot (R306, R307) -/

/-- The trigger of a snapshot is there: at once, or EVn or ET_MATCHn is high. [log entry 24: DESIGN CHOICE] -/
def snapTriggered (s : State) (k : Snap) : Bool :=
  let n := dle k.desc 0x0A 1
  match dle k.desc 0x09 1 with
  | 0 => true
  | 1 => s.ev.getLsbD n
  | _ => etOut s (Fin.ofNat 16 n)

/-- A trigger that comes in a tick stays noted. [log entry 24: DESIGN CHOICE] -/
def noteTrigger (s : State) : State :=
  match s.snap with
  | some k => if snapTriggered s k && !k.fired then { s with snap := some { k with fired := true } } else s
  | none => s

/-- Flip-flops of the quadrants that run, under their keys. -/
def shadowFfs (s : State) : Cells 1 :=
  (List.finRange 4).foldl (fun m q => if !quadRuns s q then m else
    (s.fab.quads[q]).cells.foldl (fun m e => [false, true].foldl (fun m b =>
      let c := 5120 * q.val + e.1 % 5120
      cset zeroes m (ffKey c b) (BitVec.ofBool (ffValue s c b))) m) m) []

/-- Output values of the block-RAM ports of those quadrants. -/
def shadowOuts (s : State) : Cells 40 :=
  (List.range 128).foldl (fun m p => if quadRuns s (Fin.ofNat 4 (p / 32)) then cset zeroes m p (portOut s p) else m) []

/-- Tree of a snapshot. -/
def snapTree (k : Snap) : Fin 4 := Fin.ofNat 4 (dle k.desc 0x08 1)

/-- FAB_SNAP_STATUS.STATE. -/
def snapState (s : State) (v : Nat) : State := setRegBits s 0x40030 1 0 v

/-- Quadrants that are RUNNING. -/
def quadsRunning (s : State) : Nat := (List.finRange 4).foldl (fun v f => v + (quadState s f == 2).toNat * 2 ^ f.val) 0

/-- The shadow takes the values before the capture edge. -/
def takeSnap (s : State) (k : Snap) : State :=
  let s := setRegBits (snapState s 2) 0x40030 5 2 (quadsRunning s)
  setReg64 { s with snap := some { k with taken := true, ffs := shadowFfs s, outs := shadowOuts s } } 0x40034 0x40038 s.epoch

/-- Rising edges count from the trigger on: the third is the capture edge where the second was not.
[log entry 24: DESIGN CHOICE] -/
def snapEdge (up : BitVec 4) (s : State) : State := match s.snap with
  | some k =>
    if k.taken || !k.fired || !up.getLsbD (snapTree k).val then s
    else if k.edges ≥ 2 then takeSnap s k
    else { s with snap := some { k with edges := k.edges + 1 } }
  | none => s

/-! ### One edge (R283, R286, R289, R291, R292, R295, R296, R302) -/

/-- The trees in `up` rise once: every element takes its next value from the values before the edge. -/
def fabEdge (up : BitVec 4) (s : State) : State :=
  let s := snapEdge up s
  let s0 := { s with fab := { s.fab with resets := Vector.ofFn (resetTree s up) } }
  let pads := stepPads s0 up
  let sync := fun (q : Fin 4) => clocked s0 up q (s0.fab.quads[q]).tbsync
  let t := stepBrams s0 up s0
  let t := { t with fab := { t.fab with
      ffs := stepFfs s0 up, padIn := pads.1, padOut := pads.2, strobes := strobeEdges s0 up
      edges := Vector.ofFn (fun (q : Fin 4) => Vector.ofFn (fun (t : Fin 4) =>
        if clocked s0 up q t then min 4 (edgesSince s0 q t + 1) else edgesSince s0 q t))
      sync := Vector.ofFn (fun (q : Fin 4) => if sync q then tapLevels s0 else s0.fab.sync[q])
      taps := Vector.ofFn (fun (q : Fin 4) => if sync q then s0.fab.sync[q] else s0.fab.taps[q])
      phvSel := Vector.ofFn (fun (q : Fin 4) => if sync q then
        BitVec.ofNat 4 (netNumber s0 ((s0.fab.quads[q]).phvSel).toList) else s0.fab.phvSel[q])
      phvMid := Vector.ofFn (fun (q : Fin 4) => if sync q then phvValue s0 (s0.fab.phvSel[q]) else s0.fab.phvMid[q])
      phv := Vector.ofFn (fun (q : Fin 4) => if sync q then s0.fab.phvMid[q] else s0.fab.phv[q]) } }
  (List.finRange 4).foldl (portEdge s0 up) (dEdge s0 up t)

/-- A reference with the fabric source takes the levels sampled three tt ago (R320), after those of the tt before. -/
def refTaps (old new : BitVec 40) (s : State) (n : Fin 8) : State :=
  if phSource s n ≠ 2 then s
  else
    let a := new.getLsbD n.val
    let b := new.getLsbD (8 + n.val)
    let t := if a != old.getLsbD n.val || b != old.getLsbD (8 + n.val) then phEdge n a b s else s
    if new.getLsbD (16 + n.val) && !old.getLsbD (16 + n.val) then phZEdge n t else t

/-- A timer takes the edges of its fabric inputs: counted edges of IN, and captures of CAPIN (R328, R332). -/
def timerTaps (old new : BitVec 40) (s : State) (t : Fin 16) : State :=
  let cfg := (reg s (etReg t 0)).toNat
  let rises := fun (i : Nat) => 16 ≤ i && new.getLsbD (8 + i) && !old.getLsbD (8 + i)
  let falls := fun (i : Nat) => 16 ≤ i && !new.getLsbD (8 + i) && old.getLsbD (8 + i)
  let s := if cfg.testBit 2 && rises (bitsOf cfg 9 5) then etTick t s else s
  if rises (bitsOf cfg 19 15) then etCaptureUp t s
  else if falls (bitsOf cfg 19 15) then etCaptureDown t s else s

/-- The timebase samples its fabric inputs (R316, R320, R328, R332). -/
def sampleTaps (s : State) : State :=
  let new := tapWord s
  let past := s.fab.sampled
  let s := { s with fab := { s.fab with sampled := #v[new, past[0], past[1], past[2]] } }
  let s := (List.finRange 8).foldl (refTaps past[3] past[2]) s
  (List.finRange 16).foldl (timerTaps past[0] new) s

/-- A tt of the fabric, with up to two edges of a tree; nothing changes while no quadrant runs, no snapshot awaits its edge
and the sampled levels hold. [log entry 161: DESIGN CHOICE] -/
def fabTick (s : State) : State :=
  if !(List.finRange 4).any (quadLive s) && !s.snap.any (fun k => k.fired && !k.taken) then (if s.fab.sampled.toList.all (fun v => v == tapWord s) then s else sampleTaps s)
  else
    let f := takeFree s
    let up := fun (k : Nat) => BitVec.ofNat 4 ((List.finRange 4).foldl (fun v t =>
      v + (decide (k ≤ treeRises f.2 f.1 t)).toNat * 2 ^ t.val) 0)
    let s := fabEdge (up 1) f.2
    sampleTaps (if up 2 = 0 then s else fabEdge (up 2) s)

/-! ### Start, isolation and load (R285, R286, R296, R301 to R303) -/

/-- Flip-flops of a quadrant take INITQ. -/
def holdFfs (s : State) (q : Fin 4) : Cells 1 := cclear (10240 * q.val) (10240 * q.val + 10239) s.fab.ffs

/-- A running quadrant is isolated: boundary latches and timebase signals hold their values. -/
def isolate (s : State) (q : Fin 4) : State :=
  let mine := (s.fab.quads[q]).boundary
  let latches := mine.foldl (fun m e => if boundarySender e.wire = q then
      cset zeroes m e.wire (BitVec.ofBool (net s (.boundary e.wire))) else m)
    (s.fab.latches.filter (fun e => boundarySender e.1 != q))
  let held := BitVec.ofNat 40 ((List.range 40).foldl (fun v i => v + (tapDriven s q i).toNat * 2 ^ i) 0)
  { s with fab := { s.fab with latches, held := s.fab.held.set q held } }

/-- The safe-table entries of a bank as they stand (R305). -/
def latchSafe (s : State) (q : Fin 4) : Cells 8 :=
  (List.range 16).foldl (fun m i => cset zeroes m (16 * q.val + i) (BitVec.ofNat 8 (safeEntry s (Fin.ofNat 64 (16 * q.val + i))))) s.fab.safe

/-- A quadrant starts: its flip-flops are still held, its trees have not risen yet, its lanes take strobes. -/
def startQuad (s : State) (q : Fin 4) : State :=
  { s with fab := { s.fab with
      safe := latchSafe s q, strobes := s.fab.strobes.filter (fun e => strobeQuad e.1 != q)
      edges := s.fab.edges.set q (Vector.replicate 4 0), held := s.fab.held.set q 0, ffs := holdFfs s q } }

/-- The image of a quadrant is written: block RAMs take their contents from it. -/
def writeQuad (s : State) (q : Fin 4) (k : QuadConf) : State :=
  { s with fab := { s.fab with
      quads := s.fab.quads.set q k, ffs := holdFfs s q
      bram := cclear (8192 * q.val) (8192 * q.val + 8191) s.fab.bram
      bramErr := s.fab.bramErr.filter (fun e => e.block / 16 != q.val)
      outs := cclear (64 * q.val) (64 * q.val + 63) s.fab.outs } }

/-- The domain of a quadrant is off: nothing is left of it, and its wires read 0. -/
def dropQuad (s : State) (q : Fin 4) : State :=
  let s := writeQuad s q QuadConf.blank
  { s with fab := { s.fab with
      latches := s.fab.latches.filter (fun e => boundarySender e.1 != q), held := s.fab.held.set q 0
      padIn := cclear (16 * q.val) (16 * q.val + 15) s.fab.padIn, padOut := cclear (16 * q.val) (16 * q.val + 15) s.fab.padOut } }

end Sys2Proof.Machine
end

