-- ==== Sys2Proof/Machine/Routine.lean ====
section
/-! DEFINITION. The operands of an array instruction as its routine finds them (R186, R187), and what a routine gives to
the bow: deliveries, captures, traps at its end, and the release of PORT banks (R50, R104, R109, R195, R226). -/

namespace Sys2Proof.Machine

/-- The resolved operands of an array instruction (R187). -/
structure Args where
  env : Env
  ctx : Context
  d   : Dst
  s1  : Src
  s2  : Src
  w   : Nat

/-- Whether an operand position is used and names PE_INDIRECT. -/
def usesLar (op : Nat) (x : Issue) : Bool :=
  match opSpec op with
  | some sp => (sp.src1 != 0 && modeOf x.src1 == 2) || (sp.src2 != 0 && modeOf x.src2 == 2)
  | none => false

/-- Enable E of R26 over a group. -/
def enableOf (x : Issue) (pe : Cells 65536) (gm : Plane) : Plane :=
  if 1 ≤ x.cond.toNat ∧ x.cond.toNat ≤ 7 then
    gm &&& (if x.invert = 1 then ~~~(flagPlane pe x.cond.toNat) else flagPlane pe x.cond.toNat)
  else gm

/-- A source position that the instruction uses. -/
def srcAt (op : Nat) (first : Bool) (c : Context) (o : BitVec 20) : Src :=
  match opSpec op with
  | some sp => if (if first then sp.src1 else sp.src2) = 0 then .absent else srcOf c o
  | none => .absent

/-- Operands of an instruction that issues in state `s` to a group. -/
def argsOf (op : Nat) (x : Issue) (r : Rect) (s : State) : Args :=
  let c := ctx s x.bow x.ctx
  let gm := groupMask r
  let en := enableOf x s.pe gm
  { env := { st := s, rect := r, gm, en,
             lars := if usesLar op x then
                 ((groupPes r).filter (fun p => en.getLsbD p)).map (fun p => (p, larAt s.pe p))
               else [] }
    ctx := c, d := dstOf c x.dst, s1 := srcAt op true c x.src1, s2 := srcAt op false c x.src2, w := widthOf x }

/-- The window of the issuing context, if one is open. -/
def openWindow (s : State) (x : Issue) : Option Window :=
  match (bow s x.bow).window with
  | some win => if win.ctx = x.ctx then some win else none
  | none => none

/-- A trap at the end of an instruction or within its routine: at once, or, of a run-ahead instruction, when the window
closes correctly (R226). -/
def trapLate (s : State) (x : Issue) (word : IWord) (cause : BitVec 8) (m : Option MicroFault) : State :=
  match openWindow s x with
  | some win => setBow s x.bow { bow s x.bow with window := some { win with latent := some (word, cause, m) } }
  | none =>
    let s := match m with
      | some f => recordMicro s x.bow x.ctx f
      | none => s
    takeTrap s x.bow x.ctx word cause

/-- The READY banks that an instruction used are released at its end (R50), which the trap ECC_UNCORRECTED leaves (R33) and
a micro fault does not reach. [log entry 145: DESIGN CHOICE] -/
def releaseBanks (op : Nat) (x : Issue) (r : Rect) (s : State) : State :=
  (portsOf op x).foldl (fun s n =>
    (rectCourses r).foldl (fun s c =>
      let k := chan s c n
      if k.st = 3 then setChan s c n { k with st := 0, bank := [] } else s) s) s

/-- Count an early-out instruction (R230, R231). [log entry 137: DEDUCED] -/
def countEarlyOut (s : State) (b : Fin 16) (saved : Option Nat) : State :=
  match saved with
  | some n =>
    if n = 0 then s
    else countUp64 (countUp s (bowReg b 0x0D8) 31 0 1) (bowReg b 0x0E0) (bowReg b 0x0E4) n
  | none => s

/-- Deliver a value to the S register of the destination after the delay of R109, with the bow's accumulator (R198). -/
def deliverS (x : Issue) (v : Word) (s : State) : State :=
  let k := ctx s x.bow x.ctx
  let s := setCtx s x.bow x.ctx { k with deliveries := k.deliveries ++
    [{ reg := x.dst.extractLsb' 0 4, value := v, left := 4, spec := (openWindow s x).isSome }] }
  setBow s x.bow { bow s x.bow with accum := v }

/-- Capture the global OR into G (R195): BF.G receives it at its delivery. -/
def captureG (x : Issue) (g : Bool) (s : State) : State :=
  let k := ctx s x.bow x.ctx
  setCtx s x.bow x.ctx { k with gOut := k.gOut ++ [g] }

/-- A preemption, an abort or a halt is pending for a context, and nothing keeps its routine from being stopped at a yield
point: no open window and no REP that may not be interrupted (R107, R202, R227, R437). -/
def stopPending (s : State) (b : Fin 16) (c : Ctx) : Bool :=
  let w := bow s b
  let k := ctxOf w c
  let preempted : Bool := c == .n && w.launches.any (fun j => !expired s j.desc) && w.u.job.isNone && w.powered &&
    !haltedBow s b && !s.brown.hold && !swapHeld w
  let halt : Bool := ((reg s 0x90004).getLsbD b.val || w.microHit.isSome) && debugOpen s
  w.window.isNone && !repHolds k && (preempted || k.aborting || halt)

end Sys2Proof.Machine
end

