-- ==== Sys2Proof/Machine/Micro.lean ====
section
/-! DEFINITION. The microsequencer: the entry map, the fields of a microword, one microcycle with its faults, and a
routine from its entry or a yield point to its end, its next stop or a micro fault (R24 to R27, R186 to R207). -/

namespace Sys2Proof.Machine

/-! ### The entry map (R186, R205) -/

/-- The six kinds of an operand (R186). -/
inductive SlotKind | mem | link | bcast | flag | port | none
deriving DecidableEq, Repr

def kindOf : Src → SlotKind
  | .absent => .none
  | .mem _ => .mem
  | .indirect _ => .mem
  | .link _ _ _ => .link
  | .bcast _ => .bcast
  | .flag _ => .flag
  | .port _ => .port

def kindCode : SlotKind → Nat
  | .mem => 0 | .link => 1 | .bcast => 2 | .flag => 3 | .port => 4 | .none => 5

/-- The block of the ROM that holds an opcode's routine: its first address and its size (R205). -/
def romBlock (op : Nat) : Nat × Nat :=
  if op ≤ 0x04 then (0x010, 0x10) else if op = 0x05 then (0x020, 0x10) else if op ≤ 0x09 then (0x030, 0x20)
  else if op ≤ 0x0D then (0x050, 0x20) else if op ≤ 0x15 then (0x070, 0x20) else if op = 0x18 then (0x200, 0x40)
  else if op = 0x19 then (0x240, 0x40) else if op = 0x1A then (0x280, 0x80) else if op ≤ 0x1D then (0x300, 0x100)
  else if op ≤ 0x27 then (0x090, 0x10) else if op ≤ 0x33 then (0x0A0, 0x10) else if op ≤ 0x39 then (0x0B0, 0x08)
  else if op ≤ 0x3D then (0x0B8, 0x08) else if op ≤ 0x41 then (0x400, 0x100) else if op = 0x42 then (0x500, 0x100)
  else if op = 0x43 then (0x600, 0x100) else if op = 0x44 then (0x700, 0x100) else if op = 0x45 then (0x800, 0x100)
  else if op ≤ 0x47 then (0x0D0, 0x10) else if op ≤ 0x49 then (0x0E0, 0x20) else if op ≤ 0x4D then (0x100, 0x10)
  else if op ≤ 0x51 then (0x900, 0x80) else if op ≤ 0x53 then (0x980, 0x80) else if op = 0x54 then (0xA00, 0x40)
  else if op = 0x55 then (0xA40, 0x40) else if op = 0x56 then (0xA80, 0x40) else if op = 0x57 then (0xAC0, 0x40)
  else if op = 0x58 then (0xB00, 0x80) else if op ≤ 0x62 then (0x0C0, 0x10) else if op ≤ 0x72 then (0x110, 0x08)
  else if op = 0x73 then (0x118, 0x08) else if op ≤ 0x75 then (0x120, 0x08) else (0x128, 0xD8)

/-- The routine commits from micro-scratch: class S of R120 and R205. -/
def classS (op : Nat) : Bool :=
  (0x18 ≤ op && op ≤ 0x1D) || (0x40 ≤ op && op ≤ 0x45) || (0x50 ≤ op && op ≤ 0x58)

/-- The entry address that the map gives (R186): the ADD path of the manual's table, or an address of the block; within a
block the map's variants are not given. [log entry 132: DESIGN CHOICE] -/
def entryAddr (op : Nat) (k1 k2 : SlotKind) : BitVec 13 :=
  let b := romBlock op
  if op = 0x00 ∧ k1 = .mem ∧ k2 = .mem then 0x010
  else BitVec.ofNat 13 (b.1 + Config.entryOffset op (kindCode k1) (kindCode k2) % b.2)

/-- Path fill of a linked operand over a group (R38): 2 at distance 128, 1 where a path leaves its course. -/
def linkFill (r : Rect) (dir dist : Nat) : Nat :=
  let span := if dir = 0 ∨ dir = 2 then r.h * 32 else r.w * 32
  if dist ≥ 128 then (if span > 128 then 2 else 0)
  else if dist ≥ 32 then (if span > dist then 1 else 0)
  else if span > 32 then 1 else 0

/-- Fill of one operand, and of an instruction (R101). -/
def srcFill (r : Rect) : Src → Nat
  | .indirect _ => 1
  | .link dir d _ => linkFill r dir d
  | _ => 0

def fillOf (a : Args) : Nat := max (srcFill a.env.rect a.s1) (srcFill a.env.rect a.s2)

/-- IFLAG of R187: for a SCALAR multiplier of FMUL and MACF 1; what the map defines for other opcodes is not given.
[log entry 132: DESIGN CHOICE] -/
def iflagOf (op : Nat) (a : Args) : Bool :=
  if (op = 0x42 ∨ op = 0x45) ∧ kindOf a.s2 = .bcast then true else Config.issueFlag op

/-! ### Reserved values of a microword (R190 to R198) -/

/-- An address generator of a microword, SEL at bit `o`, holds a reserved value (R192). -/
def generatorBad (w o : Nat) (isWrite : Bool) : Bool :=
  let sel := bitsOf w (o + 2) o
  sel ≥ 5 || bitsOf w (o + 5) (o + 3) ≥ 6 || (isWrite && (sel == 2 || sel == 3))

/-- A microword holds a reserved value (R190 to R198); SCLR is one in a patch word only (R193). -/
def wordReserved (patch : Bool) (w : Nat) : Bool :=
  let op := bitsOf w 94 92
  bitsOf w 3 0 == 0xF || bitsOf w 12 8 ≥ 18 || generatorBad w 18 false || generatorBad w 32 false || generatorBad w 46 true ||
  bitsOf w 77 76 == 3 || bitsOf w 80 78 ≥ 6 || bitsOf w 83 81 ≥ 6 || op ≥ 6 ||
  ((op == 0 || op ≥ 3) && bitsOf w 98 95 != 0) || bitsOf w 113 112 == 3 || bitsOf w 120 117 ≥ 7 ||
  bitsOf w 122 121 == 3 || (patch && w.testBit 123) || bitsOf w 143 124 != 0

/-- A patch-space next address beyond the patch RAM (R197). -/
def targetReserved (w : Nat) : Bool :=
  let op := bitsOf w 94 92
  w.testBit 111 && (bitsOf w 110 107 != 0 || (op == 4 && bitsOf w 110 99 + 3 ≥ 256))

/-! ### The store of microwords (R205 to R208) -/

/-- The words of the ROM that the manual gives: the ADD path. -/
def romGiven (addr : Nat) : Option (BitVec 144) :=
  -- SRC1 and SRC2 of RA1 and RA2; BC + K and the offsets; ADD; FWS; WA DST; LOG; next address
  let srcs := 2 * 2 ^ 18 + 3 * 2 ^ 32
  let wa := 2 ^ 46 + 2 ^ 49 + 2 ^ 60
  match addr with
  | 0x010 => some (BitVec.ofNat 144 (srcs + 1 * 2 ^ 63 + 2 ^ 116 + 2 ^ 92 + 9 * 2 ^ 95 + 0x012 * 2 ^ 99))
  | 0x011 => some (BitVec.ofNat 144 (0xC + srcs + 2 ^ 21 + 2 ^ 24 + 2 ^ 35 + 2 ^ 38 + wa + 2 ^ 116 + 2 ^ 78 + 2 ^ 92 +
      1 * 2 ^ 95 + 0x011 * 2 ^ 99))
  | 0x012 => some (BitVec.ofNat 144 (0xC + wa + 2 ^ 116))
  | 0x013 => some (BitVec.ofNat 144 (0x3 + 2 * 2 ^ 6 + 16 * 2 ^ 8 + 2 * 2 ^ 63 + 2 ^ 116 + 5 * 2 ^ 92))
  | _ => none

/-- A word of the ROM; the manual gives no others than those of the ADD path, and says that none holds a reserved value
(R190): one that would stands for an END word. [log entry 132: DESIGN CHOICE] -/
def romWord (addr : Nat) : BitVec 144 :=
  match romGiven addr with
  | some w => w
  | none =>
    let w := Config.romWord addr
    if wordReserved false w.toNat || targetReserved w.toNat then 5#144 <<< 92 else w

/-- The lowest-numbered enabled match register that names a ROM address gives a patch address (R206). -/
def matchOf (p : PatchSet) (addr : Nat) : Option Nat :=
  (p.entries.find? (fun e => bitsOf e.toNat 11 0 == addr)).map (fun e => bitsOf e.toNat 19 12)

/-- The patch word that a µPC takes, if it takes one: a patch-space address, word 0 following word 255, or a ROM address
that a register matches. [log entry 165: DESIGN CHOICE] -/
def patchIndex (p : PatchSet) (upc : BitVec 13) : Option Nat :=
  if upc.getLsbD 12 then some (upc.toNat % 256) else matchOf p (upc.toNat % 4096)

/-- The word at a µPC. A patch word that the set does not hold keeps what stood in the RAM.
[log entry 132: DESIGN CHOICE] -/
def microWord (p : PatchSet) (upc : BitVec 13) : Nat :=
  match patchIndex p upc with
  | some i => (match p.words[i]? with
      | some w => w.toNat
      | none => (Config.stalePatch i).toNat)
  | none => (romWord (upc.toNat % 4096)).toNat

/-- A match register redirects a word of the instruction's routine: of its block, of the PORT copy prologue, or of the
shared commit sequences. [log entries 132: DESIGN CHOICE; 166: DESIGN CHOICE] -/
def patched (p : PatchSet) (op : Nat) (a : Args) : Bool :=
  let b := romBlock op
  let port : Bool := kindOf a.s1 == .port || kindOf a.s2 == .port
  p.entries.any (fun e =>
    let x := bitsOf e.toNat 11 0
    (b.1 ≤ x && x < b.1 + b.2) || (classS op && ((0xC00 ≤ x && x < 0xE00) || (port && 0xB80 ≤ x && x < 0xC00))))

/-- A single-bit error of a patch word is corrected in the fetch, written back and counted; an uncorrectable one asks for
the rewrite at the next swap (R208). The second value says that the word cannot be read. -/
def fetchCheck (s : State) (b : Fin 16) (upc : BitVec 13) : State × Bool :=
  let w := bow s b
  match patchIndex w.patch upc with
  | some i =>
    match w.patchErr.find? (fun e => e.index.toNat == i) with
    | some e =>
      if e.multi then (setBow s b { w with rewrite := true }, true)
      else (countUp (setBow s b { w with patchErr := w.patchErr.erase e }) (bowReg b 0x0A8) 23 16 1, false)
    | none => (s, false)
  | none => (s, false)

/-! ### The sequencer (R189) -/

/-- The state of the microsequencer for the routine in progress, with the bits latched by the latest word's reads (R188). -/
structure Seq where
  upc    : BitVec 13
  bc     : BitVec 8
  lc     : BitVec 8
  stack  : List (BitVec 13)
  tq     : List Bool
  w      : BitVec 7
  iflag  : Bool
  /-- the commit phase of an S routine has begun -/
  commit : Bool
  /-- microcycles since the routine's start or the latest yield point (R199) -/
  run    : Nat
  /-- a patch word has been executed -/
  patch  : Bool
  /-- what working bits hold that are not defined -/
  stale  : Plane
  rp1    : Plane
  rp2    : Plane
  link   : Plane
  port   : Option Plane

/-- A routine in progress: its sequencer, the state it has made so far, and whether a read has found an uncorrectable
error (R33). -/
structure Flow where
  q   : Seq
  st  : State
  bad : Bool

/-- The counters at routine entry, or as a stopped routine saved them (R189, R202); no word has read anything yet. -/
def startSeq (op : Nat) (a : Args) (m : Option Micro) (stale : Plane) : Seq :=
  let base : Seq :=
    { upc := entryAddr op (kindOf a.s1) (kindOf a.s2), bc := 0, lc := 0, stack := [], tq := [], w := BitVec.ofNat 7 a.w,
      iflag := iflagOf op a, commit := false, run := 0, patch := false, stale, rp1 := stale, rp2 := stale, link := stale,
      port := none }
  match m with
  | some m => { base with upc := m.upc, bc := m.bc, lc := m.lc }
  | none => base

/-! ### Field values of a word (R25, R191 to R193) -/

/-- The 16 ALU functions: result and carry, none for the reserved code (R25). -/
def aluFn (code : Nat) (a b c x : Plane) : Option (Plane × Plane) :=
  let maj := fun (u v : Plane) => (u &&& v) ||| (c &&& (u ||| v))
  match code with
  | 0x0 => some (0, c)
  | 0x1 => some (BitVec.allOnes 65536, c)
  | 0x2 => some (a, c)
  | 0x3 => some (b, c)
  | 0x4 => some (~~~a, c)
  | 0x5 => some (a &&& b, c)
  | 0x6 => some (a ||| b, c)
  | 0x7 => some (a ^^^ b, c)
  | 0x8 => some (a &&& ~~~b, c)
  | 0x9 => some (~~~(a &&& b), c)
  | 0xA => some (~~~(a ||| b), c)
  | 0xB => some (~~~(a ^^^ b), c)
  | 0xC => some (a ^^^ b ^^^ c, maj a b)
  | 0xD => some (a ^^^ ~~~b ^^^ c, maj a (~~~b))
  | 0xE => some (blend x a b, c)
  | _ => none

/-- The index of a generator (R192), and of a broadcast bit (R191). -/
def genIndex (q : Seq) (idx k : Nat) : Int :=
  let off : Int := (BitVec.ofNat 8 k).toInt
  match idx with
  | 0 => off
  | 1 => q.bc.toNat + off
  | 2 => q.lc.toNat + off
  | 3 => q.bc.toNat + q.lc.toNat + off
  | 4 => (q.w.toNat : Int) - 1 - q.bc.toNat + off
  | _ => q.w.toNat + q.bc.toNat + off

def bcastIndex (q : Seq) (code : Nat) : Nat :=
  match code with
  | 0 => q.bc.toNat
  | 1 => (BitVec.ofInt 8 (q.w.toNat - 1 - q.bc.toNat : Int)).toNat
  | 2 => q.lc.toNat
  | _ => q.w.toNat - 1

/-- The slot that SEL 2 or 3 names. -/
def sourceSlot (a : Args) (sel : Nat) : Src := if sel = 2 then a.s1 else a.s2

/-- The compute phase of an S routine, in which C and X stand for WC and WX (R200). -/
def computing (op : Nat) (q : Seq) : Bool := classS op && !q.commit

def carryKey (op : Nat) (q : Seq) (c : Ctx) : Nat := if computing op q then keyWc c else keyC
def xKey (op : Nat) (q : Seq) (c : Ctx) : Nat := if computing op q then keyWx c else keyX

/-- The broadcast bit, none where a slot does not supply it. -/
def bcastBit (w : Nat) (q : Seq) (a : Args) : Option Bool :=
  let inv := w.testBit 13
  match bitsOf w 17 16 with
  | 0 => some inv
  | 1 => some (!inv)
  | n =>
    match sourceSlot a n with
    | .bcast v => some (v.testBit (min (bcastIndex q (bitsOf w 15 14)) 63) ^^ inv)
    | _ => none

/-- Fk of the FLAG source slot. -/
def flagSource (a : Args) : Option Nat :=
  match a.s1, a.s2 with
  | .flag k, _ => some k
  | _, .flag k => some k
  | _, _ => none

/-- The plane that FLAGSEL names, none where a slot does not supply it. -/
def flagSel (op : Nat) (c : Ctx) (q : Seq) (a : Args) (pe : Cells 65536) (code : Nat) : Option Plane :=
  if code ≤ 7 then some (flagPlane pe code)
  else match code with
    | 8 => some (cget zeroes pe (carryKey op q c))
    | 9 => some (cget zeroes pe (xKey op q c))
    | 15 => (flagSource a).map (flagPlane pe)
    | 16 => some (blend (cget zeroes pe keyOLost) (cget zeroes pe keyO) q.stale)
    | 17 => some a.env.en
    | n => some (cget zeroes pe (keySticky (n - 10)))

/-- The target of the flag write (R193): its key, none for no target; F0 takes nothing. -/
def fwsKey (op : Nat) (c : Ctx) (q : Seq) (a : Args) (code : Nat) : Option Nat :=
  match code with
  | 0 => none
  | 1 => some (carryKey op q c)
  | 2 => some (xKey op q c)
  | 15 => (match a.d with
      | .flag k => if k = 0 then none else some (keyF k)
      | _ => none)
  | n => if n ≤ 9 then some (keyF (n - 2)) else some (keySticky (n - 10))

/-! ### Reads (R32, R37, R188, R192, R200) -/

/-- What a read-address generator asks for. -/
inductive Ask1
  | idle
  | plane (a : Nat)
  | link (dir dist a : Nat)
  | indirect (off : Nat)
  | port (ch : Fin 4) (i : Nat)
  | scratch (i : Nat)
  | lar (i : Nat)
  /-- a micro fault -/
  | bad (code : Nat)
deriving DecidableEq, Repr

/-- Width of the field that the DST slot names: LAR for LDLAR. [log entry 166: DESIGN CHOICE] -/
def dstWidth (op : Nat) (n : Nat × Nat × Nat) : Nat := if op = 0x38 then 14 else n.1

/-- A generator at bit `o` of a word: `first` for RA1; `n` the widths of destination and sources (R192, R204). The slot
that LDLAR (DST) and STLAR (SRC1) leave unused stands for LAR, and a PORT operand is read by the RA1 that names its slot,
at the index formed. [log entries 166: DESIGN CHOICE; 167: DESIGN CHOICE] -/
def genAsk (op w o : Nat) (first : Bool) (q : Seq) (a : Args) (n : Nat × Nat × Nat) : Ask1 :=
  let sel := bitsOf w (o + 2) o
  let i := genIndex q (bitsOf w (o + 5) (o + 3)) (bitsOf w (o + 13) (o + 6))
  let within := fun (width : Nat) => decide (0 ≤ i) && decide (i < width)
  match sel with
  | 0 => .idle
  | 1 => (match a.d with
      | .planes b => if within n.1 then .plane (b + i.toNat) else .bad 3
      | _ => if op ≠ 0x38 then .bad 4 else if within 14 then .lar i.toNat else .bad 3)
  | 4 => if within 128 then .scratch i.toNat else .bad 3
  | _ =>
    let width := if sel = 2 then n.2.1 else n.2.2
    match sourceSlot a sel with
    | .mem b => if within width then .plane (b + i.toNat) else .bad 3
    | .indirect off => .indirect (((off : Int) + i) % 16384).toNat
    | .link dir d b => if !first then .bad 4 else if within width then .link dir d (b + i.toNat) else .bad 3
    | .port ch => if !first then .bad 4 else if decide (0 ≤ i) then .port ch i.toNat else .bad 3
    | .absent => if op ≠ 0x39 ∨ sel ≠ 2 then .bad 4 else if within n.1 then .lar i.toNat else .bad 3
    | _ => .bad 4

/-- A plane moved over a link of the group, with the boundary of R39. -/
def overLink (e : Env) (dir d : Nat) (own : Plane) : Plane :=
  let valid := shiftPlane dir d e.gm &&& e.gm
  blend valid (boundary e dir own) (shiftPlane dir d (own &&& e.gm))

/-- Bit errors of a scratch bit in the courses of a group. -/
def scratchErrs (s : State) (c : Ctx) (r : Rect) (i : Nat) : List ScratchError :=
  s.scrErr.filter (fun e => e.ctx == c && e.index.toNat == i && inRect r e.course)

/-- A scratch read: single-bit errors are corrected and counted, others counted and recorded as those of a plane read
(R200). -/
def readScratch (s : State) (c : Ctx) (r : Rect) (i : Nat) : State × Bool :=
  let es := scratchErrs s c r i
  let s := es.foldl (fun s e =>
    countPeError s { course := e.course, group := e.group, plane := e.index.setWidth 14,
                     flip := if e.multi then 3 else 1 } (!e.multi)) s
  ({ s with scrErr := s.scrErr.filter (fun e => e.multi || !es.contains e) }, es.any (fun e => e.multi))

/-- Carry out a read: the plane it delivers, the state with its errors counted, and whether it found an uncorrectable
one. A LINK slot is read in the source PE, so the reading PE's own bit is what its port holds. -/
def doRead (c : Ctx) (a : Args) (s : State) (k : Ask1) : Plane × State × Bool :=
  let plain := fun (p : Nat) =>
    let es := (viewOf s).found a.env.rect [p]
    ((viewOf s).deliver p, es.foldl (fun s e => countPeError s e false) s, es.any (fun e => !singleBit e))
  match k with
  | .plane p => plain p
  | .link _ _ p => plain p
  | .indirect off => (srcBit { a.env with st := s } (viewOf s) (.indirect off) 0, s, false)
  | .scratch i =>
    let r := readScratch s c a.env.rect i
    (cget zeroes s.pe (keyScratch c i), r.1, r.2)
  | .lar i => (if i < 14 then cget zeroes s.pe (keyLar i) else 0, s, false)
  | _ => (0, s, false)

/-! ### Sequencing and the faults of a word (R190, R194 to R201, R204) -/

/-- The counters after a word's actions (R196). -/
def count (code : Nat) (v : BitVec 8) (w : BitVec 7) (ck : Nat) : BitVec 8 :=
  match code with
  | 1 => v + 1
  | 2 => v - 1
  | 3 => 0
  | 4 => w.setWidth 8 - 1
  | 5 => BitVec.ofNat 8 ck
  | _ => v

/-- The condition of a next address, on the counters after the word and the queue with the word's own capture (R197): an
empty queue reads as 0. [log entry 132: DESIGN CHOICE] -/
def nextHolds (w : Nat) (q : Seq) (fpctl : BitVec 4) : Bool :=
  let t : Bool := match bitsOf w 97 95 with
    | 0 => true
    | 1 => decide (q.bc.toNat + 1 < q.w.toNat)
    | 2 => q.lc != 0
    | 3 => q.tq.headD false
    | 4 => fpctl.getLsbD 2
    | 5 => fpctl.getLsbD 3
    | 6 => decide (q.bc.toNat < bitsOf w 91 84)
    | _ => q.iflag
  t ^^ w.testBit 98

/-- What follows a word. -/
inductive After
  | next (q : Seq)
  | ended
  /-- a micro fault -/
  | bad (code : Nat)

/-- The next µPC in its space. -/
def following (u : BitVec 13) : BitVec 13 := (u.extractLsb' 12 1 ++ (u.extractLsb' 0 12 + 1) : BitVec 13)

/-- The sequencer after a word, `g` its capture for the test queue (R195 to R197): a capture enters the queue before the
word's own test removes the head, and a CALL that tests the queue removes it too; a DISPATCH stays in the space of its
NA_ADDR. [log entry 168: DESIGN CHOICE] -/
def sequence (w : Nat) (q : Seq) (fpctl : BitVec 4) (g : Bool) : After :=
  let ck := bitsOf w 91 84
  let q := { q with bc := count (bitsOf w 80 78) q.bc q.w ck, lc := count (bitsOf w 83 81) q.lc q.w ck }
  if bitsOf w 77 76 = 1 ∧ q.tq.length ≥ 8 then .bad 7
  else
    let q := if bitsOf w 77 76 = 1 then { q with tq := q.tq ++ [g] } else q
    let target := BitVec.ofNat 13 (bitsOf w 111 99)
    let holds := nextHolds w q fpctl
    let popped := if bitsOf w 97 95 = 3 ∧ (bitsOf w 94 92 = 1 ∨ bitsOf w 94 92 = 2) then { q with tq := q.tq.drop 1 } else q
    let on := following q.upc
    match bitsOf w 94 92 with
    | 0 => .next { q with upc := on }
    | 1 => .next { popped with upc := if holds then target else on }
    | 2 =>
      if !holds then .next { popped with upc := on }
      else if q.stack.length ≥ 2 then .bad 7
      else .next { popped with upc := target, stack := on :: q.stack }
    | 3 => (match q.stack with
        | t :: rest => .next { q with upc := t, stack := rest }
        | [] => .bad 7)
    | 4 => .next { q with upc :=
        (target.extractLsb' 12 1 ++ (target.extractLsb' 0 12 + (fpctl.extractLsb' 0 2).setWidth 12) : BitVec 13) }
    | _ => .ended

/-- The lowest code of the faults that a word's own fields make, from 1 to 9, before the sequencer's (R204). `a1` and `a2`
are what its generators ask for. The ROM raises none: a word of it faults only where a patch word before it has changed
what it meets, and never by its own fields. EN = 1 with an idle RA1 faults with code 8, and DSRC = 1 without a LINK slot in
RA1 with code 4. [log entries 132: DESIGN CHOICE; 169: DESIGN CHOICE] -/
def wordFault (op : Nat) (q : Seq) (a : Args) (n : Nat × Nat × Nat) (patch : Bool) (w : Nat) (a1 a2 : Ask1) : Option Nat :=
  let we := w.testBit 60
  let wa := bitsOf w 48 46
  let fws := bitsOf w 66 63
  let wi := genIndex q (bitsOf w 51 49) (bitsOf w 59 52)
  let bad := fun (k : Nat) => a1 == .bad k || a2 == .bad k
  let isPlanes : Bool := match a.d with | .planes _ => true | _ => op == 0x38
  let met := patch || q.patch
  let isFlag : Bool := match a.d with | .flag _ => true | _ => false
  let linkSlot : Bool := match a1 with | .link _ _ _ => true | _ => false
  let compute := computing op q
  let yc := bitsOf w 113 112
  let cph := bitsOf w 115 114
  let carry : Bool := !compute && (bitsOf w 3 0 == 0xC || bitsOf w 3 0 == 0xD)
  let visible : Bool := (we && wa == 1) || w.testBit 123 || (fws != 0 && !(compute && fws ≤ 2)) || carry
  let usesBcast : Bool := bitsOf w 5 4 == 2 || bitsOf w 7 6 == 1
  (([(patch && (wordReserved patch w || targetReserved w), 1),
     (met && (bad 3 || (we && wa == 1 && !(decide (0 ≤ wi) && decide (wi < dstWidth op n))) ||
        (we && wa == 4 && !(decide (0 ≤ wi) && decide (wi < 128)))), 3),
     (met && (bad 4 || (we && wa == 1 && !isPlanes) || (usesBcast && (bcastBit w q a).isNone) ||
        (bitsOf w 7 6 == 2 && bitsOf w 12 8 == 15 && (flagSource a).isNone) || (fws == 15 && !isFlag) ||
        (bitsOf w 5 4 == 3 && q.port.isNone) || (w.testBit 67 && w.testBit 68 && !linkSlot)), 4),
     (met && compute && ((we && wa == 1) || fws ≥ 3 || w.testBit 123), 5),
     (met && ((yc == 1 && !compute) || (yc == 2 && !classS op) || q.run ≥ 256), 6),
     (patch && ((w.testBit 67 && (bitsOf w 5 4 != 1 || bitsOf w 20 18 == 0)) ||
        ((cph == 1 || cph == 3) && (we || fws != 0)) || ((cph == 2 || cph == 3) && bitsOf w 34 32 != 0)), 8),
     (patch && visible != w.testBit 116, 9)] :
    List (Bool × Nat)).find? (fun p => p.1)).map (fun p => p.2)

/-! ### One microcycle -/

/-- The results of the reads of a word, latched for the next one (R188); a word with EN = 0 leaves a link operand of 0.
[log entry 170: DESIGN CHOICE] -/
def latch (c : Ctx) (w : Nat) (a : Args) (f : Flow) (a1 a2 : Ask1) : Flow :=
  let r1 := doRead c a f.st a1
  let r2 := doRead c a r1.2.1 a2
  let e := { a.env with st := f.st }
  let link : Plane :=
    if !w.testBit 67 then 0
    else match w.testBit 68, a1 with
      | true, .link dir d _ => overLink e dir d r1.1
      | _, _ => overLink e (bitsOf w 70 69) (2 ^ bitsOf w 73 71) r1.1
  let port := match a1 with
    | .port ch i => some (srcBit e (viewOf f.st) (.port ch) i)
    | _ => none
  { q := { f.q with rp1 := r1.1, rp2 := r2.1, link, port }, st := r2.2.1, bad := f.bad || r1.2.2 || r2.2.2 }

/-- Writes to planes and flags as those of any instruction, with undo entries where LOG is set (R198, R221). Where FWS
names C, an ADD or SUB writes no carry, and the carry into WC of the compute phase is written whatever E is.
[log entries 166: DESIGN CHOICE; 171: DESIGN CHOICE; 172: DESIGN CHOICE] -/
def microWrites (op : Nat) (x : Issue) (w : Nat) (q : Seq) (a : Args) (pe : Cells 65536) (r co : Plane) (t : Plane) : List Wr :=
  let en := a.env.en
  let log := w.testBit 116
  let ix := genIndex q (bitsOf w 51 49) (bitsOf w 59 52)
  let wi := ix.toNat
  let within := fun (width : Nat) => decide (0 ≤ ix) && decide (ix < width)
  let code := bitsOf w 3 0
  let adds : Bool := code == 0xC || code == 0xD
  let c := x.ctx
  let ck := carryKey op q c
  let fws := bitsOf w 66 63
  let mem : List Wr :=
    if !w.testBit 60 then []
    else match bitsOf w 48 46, a.d with
      | 1, .planes b => if within (dstWidth op (arrayWidths op x)) then [{ key := b + wi, mask := en &&& t, val := r, log }] else []
      | 1, _ => if op = 0x38 ∧ within 14 = true then [{ key := keyLar wi, mask := en &&& t, val := r, log := false }] else []
      | 4, _ => if !within 128 then [] else [{ key := keyScratch c wi, mask := a.env.gm &&& (if computing op q then t else en &&& t), val := r, log := false }]
      | _, _ => []
  let carry : List Wr := if adds && fws != 1 then
      [{ key := ck, mask := if computing op q then a.env.gm else en, val := co, log := false }] else []
  let ovf : List Wr := if adds then
      [{ key := keyO, mask := en, val := cget zeroes pe ck ^^^ co, log := false }, { key := keyOLost, mask := en, val := 0, log := false }]
    else []
  let flag : List Wr := match fwsKey op c q a fws with
    | some k =>
      let v := if 10 ≤ fws ∧ fws ≤ 14 then cget zeroes pe k ||| r else r
      [{ key := k, mask := en &&& t, val := v, log := log && !(computing op q && fws ≤ 2) }]
    | none => []
  let clear : List Wr := if w.testBit 123 then
      (List.range 5).map (fun i => { key := keySticky i, mask := en &&& t, val := 0, log := false }) else []
  mem ++ carry ++ ovf ++ flag ++ clear

/-- The bow side of a word: the test capture into BF.G and the accumulator (R195, R198). -/
def bowSide (x : Issue) (w : Nat) (q : Seq) (g : Bool) (n : Nat) (s : State) : State :=
  let s := if bitsOf w 77 76 = 2 then captureG x g s else s
  let acc := (bow s x.bow).accum
  let put := fun (v : Word) => setBow s x.bow { bow s x.bow with accum := v }
  let term : Word := BitVec.ofNat 40 (n * 2 ^ q.bc.toNat)
  match bitsOf w 120 117 with
  | 1 =>
    let m : Word := 1#40 <<< q.bc.toNat
    put (if g then acc ||| m else acc &&& ~~~m)
  | 2 => put (acc + term)
  | 3 => put (acc - term)
  | 4 => if modeOf x.dst = 5 then deliverS x acc s else s
  | 5 =>
    let k := ctx s x.bow x.ctx
    let bit : Nat := match bitsOf w 12 8 with
      | 10 => 6 | 11 => 5 | 12 => 7 | 13 => 8 | 14 => 9 | _ => 10
    setCtx s x.bow x.ctx { k with bf := k.bf ||| (if g && bit < 10 then BitVec.ofNat 10 (2 ^ bit) else 0) }
  | 6 => put 0
  | _ => s

/-- How a microcycle leaves the routine. -/
inductive Tick1
  | go (f : Flow)
  /-- after its END word, or before its first commit word where a read had found an uncorrectable error -/
  | done (f : Flow)
  /-- at a yield point -/
  | stopped (f : Flow)
  | fault (f : Flow) (m : MicroFault)

/-- O is defined in some PEs no longer (R193). -/
def loseO (m : Plane) (pe : Cells 65536) : Cells 65536 := cset zeroes pe keyOLost (cget zeroes pe keyOLost ||| m)

/-- One microcycle (R188, R190 to R204). -/
def microcycle (op : Nat) (x : Issue) (a : Args) (f : Flow) : Tick1 :=
  let b := x.bow
  let c := x.ctx
  let fc := fetchCheck f.st b f.q.upc
  let f := { f with st := noteUpc fc.1 b f.q.upc }
  let p := (bow f.st b).patch
  let fault := fun (k : Nat) => Tick1.fault f { code := BitVec.ofNat 5 k, upc := f.q.upc }
  if fc.2 then fault 2
  else
    let w := microWord p f.q.upc
    let q := f.q
    let commits : Bool := bitsOf w 113 112 == 2 && classS op
    if commits && f.bad then .done f
    else
      -- a COMMIT word is the first of the commit phase
      let q := if commits then { q with commit := true } else q
      let n := arrayWidths op x
      let a1 := genAsk op w 18 true q a n
      let a2 := genAsk op w 32 false q a n
      let patch := (patchIndex p q.upc).isSome
      let q := { q with patch := q.patch || patch }
      match wordFault op q a n patch w a1 a2 with
      | some k => fault k
      | none =>
        let pe := f.st.pe
        let xp := cget zeroes pe (xKey op q c)
        let cp := cget zeroes pe (carryKey op q c)
        let bc : Plane := if (bcastBit w q a).getD false then BitVec.allOnes 65536 else 0
        let opA : Plane := match bitsOf w 5 4 with
          | 0 => q.rp1 | 1 => q.link | 2 => bc | _ => q.port.getD 0
        let opB : Plane := match bitsOf w 7 6 with
          | 0 => q.rp2 | 1 => bc | 2 => (flagSel op c q a pe (bitsOf w 12 8)).getD 0 | _ => xp
        let rc := (aluFn (bitsOf w 3 0) opA opB cp xp).getD (0, cp)
        let t : Plane := match bitsOf w 62 61 with
          | 0 => BitVec.allOnes 65536 | 1 => xp | 2 => ~~~xp | _ => cp
        let feed := rc.1 &&& a.env.en
        let g : Bool := w.testBit 74 && feed != 0
        let pop : Nat := if w.testBit 75 then (groupPes a.env.rect).foldl (fun m i => m + (feed.getLsbD i).toNat) 0 else 0
        match sequence w q a.ctx.fpctl g with
        | .bad k => if q.patch then fault k else .done f
        | after =>
          let yields : Bool := bitsOf w 113 112 == 1
          let q' := match after with
            | .next q' => { q' with run := if yields then 0 else q.run + 1 }
            | _ => q
          let stops : Bool := yields && stopPending f.st b c && (match after with | .next _ => true | _ => false)
          if stops && q.patch && (!q'.stack.isEmpty || !q'.tq.isEmpty) then fault 6
          else
            let r := latch c w a { f with q := q' } a1 a2
            let s := applyWrs r.st b a.env.rect (microWrites op x w q a pe rc.1 rc.2 t)
            let s := { s with scrErr := if w.testBit 60 && bitsOf w 48 46 == 4 then
                s.scrErr.filter (fun e => !(scratchErrs s c a.env.rect (genIndex q (bitsOf w 51 49) (bitsOf w 59 52)).toNat).contains e)
              else s.scrErr }
            let s := bowSide x w q g pop s
            -- O is defined to the next yield point only (R193)
            let s := if yields then { s with pe := loseO a.env.gm s.pe } else s
            let f := { r with st := s }
            match after with
            | .next _ => if stops then .stopped f else .go f
            | _ => .done f

/-- A routine runs to its end, a yield point at which it is stopped, or a micro fault; one that has not ended after `n`
microcycles faults as a stretch that is too long. [log entry 132: DESIGN CHOICE] -/
def runFlow (op : Nat) (x : Issue) (a : Args) : Nat → Flow → Tick1
  | 0, f => .fault f { code := 6, upc := f.q.upc }
  | n + 1, f =>
    match microcycle op x a f with
    | .go f => runFlow op x a n f
    | t => t

/-- The working bits at the entry of an S routine (R200). -/
def loadWork (op : Nat) (c : Ctx) (a : Args) (s : State) : State :=
  if classS op then
    let gm := a.env.gm
    let load := fun (k v : Nat) (pe : Cells 65536) => cset zeroes pe k (blend gm (cget zeroes pe k) (cget zeroes pe v))
    { s with pe := load (keyWx c) keyX (load (keyWc c) keyC s.pe) }
  else s

/-- The routine of an array instruction, from its entry or from the yield point at which it was stopped. The fill of a
linked or indirect operand lengthens its first stretch (R188). -/
def runRoutine (op : Nat) (x : Issue) (a : Args) (m : Option Micro) (s : State) : Tick1 :=
  let i := takeFree s
  let q := startSeq op a m (Config.lostBits i.1)
  match m with
  | some m => runFlow op x a 65536 { q, st := i.2, bad := m.bad }
  | none => runFlow op x a 65536 { q := { q with run := fillOf a }, st := loadWork op x.ctx a i.2, bad := false }

end Sys2Proof.Machine
end

