-- ==== Sys2Proof/Machine/ArrayRun.lean ====
section
/-! DEFINITION. Running an array instruction: its plan (visible writes, errors that its reads find, commit class, early-out
saving), and the one operation that carries a plan out, or a patched routine, with yield points, micro faults, ECC, undo
entries and PORT release (R33, R50, R118 to R121, R201, R202, R204, R206, R221, R230). -/

namespace Sys2Proof.Machine

/-- What an array instruction does: its visible writes in order, the errors that its checked reads find, whether it
commits from micro-scratch, and what its early-out saved against the greatest count, for the instructions of R230. -/
structure Plan where
  writes  : List Wr
  found   : List PeError
  scratch : Bool
  saved   : Option Nat
deriving DecidableEq, Repr

/-- The end of an array instruction: its PORT banks are released, an early-out is counted, and the trap of an
uncorrectable error is taken or the PC advances (R33, R50, R230). -/
def endArray (op : Nat) (x : Issue) (r : Rect) (saved : Option Nat) (bad : Bool) (s : State) : State :=
  let t := countEarlyOut (releaseBanks op x r s) x.bow saved
  if bad then trapLate t x (encodeWord (BitVec.ofNat 8 op) x) causeEcc none else advanceAt t x.bow x.ctx

/-- The micro state of a context: what it saves at a yield point, or nothing (R60, R202). -/
def setMicro (s : State) (b : Fin 16) (c : Ctx) (m : Option Micro) : State :=
  let k := ctx s b c
  setCtx s b c { k with micro := m }

/-- A patched routine is sequenced word by word (R206, R207). Where an uncorrectable error is met, an S routine has
committed nothing. [log entries 132: DESIGN CHOICE; 140: DEDUCED] -/
def runPatched (op : Nat) (x : Issue) (r : Rect) (a : Args) (saved : Option Nat) (m : Option Micro) (s : State) : State :=
  -- GETPE feeds the trees from the one PE that it names (R140)
  let v := (sValue a.ctx x.src2).toNat
  let pe : Plane := 1#65536 <<< (v / 256 % 256 * 256 + v % 256)
  let a := if op = 0x72 then { a with env := { a.env with en := a.env.en &&& pe } } else a
  match runRoutine op x a m s with
  | .done f | .go f => endArray op x r saved f.bad f.st
  | .stopped f => setMicro f.st x.bow x.ctx (some { upc := f.q.upc, bc := f.q.bc, lc := f.q.lc, bad := f.bad, held := none })
  | .fault f e => trapLate f.st x (encodeWord (BitVec.ofNat 8 op) x) causeMicro (some e)

/-- What a routine of the ROM leaves in O (R193): that of ADD, SUB and NEG their overflow, which X receives; what the
words of the others latch is not given, but for the routines that neither add nor subtract.
[log entry 132: DESIGN CHOICE] -/
def latchO (op : Nat) (e : Env) (pe : Cells 65536) : Cells 65536 :=
  if op ≤ 0x04 then
    let put := fun (k : Nat) (v : Plane) (pe : Cells 65536) => cset zeroes pe k (blend e.en (cget zeroes pe k) v)
    put keyOLost 0 (put keyO (cget zeroes pe keyX) pe)
  else if (0x20 ≤ op ∧ op ≤ 0x33) ∨ (0x39 ≤ op ∧ op ≤ 0x3D) ∨ (0x60 ≤ op ∧ op ≤ 0x79) then pe
  else loseO (if classS op then e.gm else e.en) pe

/-- Carry out the plan of an array instruction; `post` adds what its end delivers to the bow, and `m` is where a stopped
routine goes on. A routine of the ROM has the effect of its instruction. An S routine may be found at a yield point by what
is pending, where it has changed nothing: its scratch bank then holds what it will commit.
[log entries 132: DESIGN CHOICE; 140: DEDUCED] -/
def runPlan (op : Nat) (x : Issue) (r : Rect) (a : Args) (p : Plan) (post : Args → State → State) (m : Option Micro)
    (s : State) : State :=
  if patched (bow s x.bow).patch op a then runPatched op x r a p.saved m s
  else
    let resumed := m.bind (fun k => k.held.map (fun h => (k.bad, h)))
    let bad := match resumed with
      | some h => h.1
      | none => p.found.any (fun e => !singleBit e)
    let s := if resumed.isSome then s else p.found.foldl (fun s e => countPeError s e false) s
    let writes := match resumed with
      | some h => h.2.1
      | none => p.writes
    let saved := match resumed with
      | some h => h.2.2
      | none => p.saved
    match x.stop, p.scratch && stopPending s x.bow x.ctx with
    | some (u, bc, lc), true => setMicro s x.bow x.ctx (some { upc := u, bc, lc, bad, held := some (writes, saved) })
    | _, _ =>
      let t := if bad ∧ p.scratch = true then s else post a (applyWrs s x.bow r writes)
      endArray op x r saved bad { t with pe := latchO op a.env t.pe }

/-- Issue an array instruction by its plan. -/
def runArray (op : Nat) (x : Issue) (plan : Args → Plan) (post : Args → State → State) (s : State) : State :=
  issueRaw op x none (fun s =>
    match (bow s x.bow).group with
    | some r =>
      let m := (ctx s x.bow x.ctx).micro
      let s := setMicro s x.bow x.ctx none
      let a := argsOf op x r s
      runPlan op x r a (plan a) post m s
    | none => s) s

/-- An array instruction that delivers nothing to the bow. -/
def noPost (_ : Args) (s : State) : State := s

/-- Errors that the reads of both sources find, at all bits. -/
def allReads (a : Args) : List PeError :=
  foundIn a.env a.s1 (List.range a.w) ++ foundIn a.env a.s2 (List.range a.w)

/-- A direct routine without early-out. -/
def direct (writes : List Wr) (found : List PeError) : Plan := { writes, found, scratch := false, saved := none }

/-- A scratch routine: it reads every plane of its sources before it commits, each once for the count of errors. -/
def scratch (writes : List Wr) (found : List PeError) (saved : Option Nat) : Plan := { writes, found, scratch := true, saved }

/-- A plane with a bit for every listed PE that satisfies a predicate. -/
def planeBy (pes : List Nat) (f : Nat → Bool) : Plane :=
  pes.foldl (fun acc p => if f p then acc ||| (1#65536 <<< p) else acc) 0

/-- All ones. -/
def onesPlane : Plane := BitVec.allOnes 65536

/-- Signed reading of the low w bits (sx of the pseudocode). -/
def sx (w v : Nat) : Int := if v.testBit (w - 1) then (v % 2 ^ w : Nat) - (2 ^ w : Nat) else (v % 2 ^ w : Nat)

/-- The low n bits of an integer. -/
def low (n : Nat) (v : Int) : Nat := (v % (2 ^ n : Nat)).toNat

end Sys2Proof.Machine
end

