-- ==== Sys2Proof/Machine/Fp40.lean ====
section
/-! DEFINITION. FP40 arithmetic and conversions (R164 to R181): operands become exact integers scaled by powers of
two, the exact result is formed, and one rounding narrows it. Flags are five bits: IV, DZ, OF, UF, IX from bit 0. -/

namespace Sys2Proof.Machine

/-- Exception flags of one operation, in the order of the per-PE sticky flags (R23): bit 0 IV, DZ, OF, UF, bit 4 IX. -/
abbrev FFlags := BitVec 5

def flagIV : FFlags := 1
def flagDZ : FFlags := 2
def flagOF : FFlags := 4
def flagUF : FFlags := 8
def flagIX : FFlags := 16

/-- The canonical NaN (R166). -/
def canonicalNaN : Word := 0x7FC0000000

/-- FPCTL: rounding mode, FTZ and DAZ (R60). -/
structure FpCtl where
  mode : BitVec 2
  ftz  : Bool
  daz  : Bool
deriving DecidableEq, Repr

/-- FPCTL of a context as its fields (R60). -/
def fpCtlOf (c : BitVec 4) : FpCtl :=
  { mode := c.extractLsb' 0 2, ftz := c.getLsbD 2, daz := c.getLsbD 3 }

/-- A value by its class (R164): a finite value is (−1)^neg × m × 2^e. -/
inductive FpVal
  | nan (signalling : Bool)
  | inf (neg : Bool)
  | fin (neg : Bool) (m : Nat) (e : Int)
deriving DecidableEq, Repr

/-- The class and value of a format with `frac` fraction bits and `ebits` exponent bits, from its encoding (R164). -/
def unpackFmt (frac ebits : Nat) (b : Nat) : FpVal :=
  let f := b % 2 ^ frac
  let e := b / 2 ^ frac % 2 ^ ebits
  let neg := b.testBit (frac + ebits)
  let bias : Int := 2 ^ (ebits - 1) - 1
  if e = 2 ^ ebits - 1 then
    if f = 0 then .inf neg else .nan (!f.testBit (frac - 1))
  else if e = 0 then .fin neg f (1 - bias - frac)
  else .fin neg (2 ^ frac + f) (e - bias - frac)

/-- A subnormal operand under DAZ is a zero of the same sign (R174). -/
def dazWord (c : FpCtl) (b : Word) : Word :=
  if c.daz ∧ b.extractLsb' 31 8 = 0 then b &&& 0x8000000000 else b

/-- An FP40 operand, after DAZ (R164, R174). -/
def fpUnpack (c : FpCtl) (b : Word) : FpVal := unpackFmt 31 8 (dazWord c b).toNat

/-- Whether the magnitude is incremented when `rem` of `2^d` (and more, if `sticky`) is dropped (R167). -/
def roundUp (mode : BitVec 2) (neg : Bool) (sig rem half : Nat) (sticky : Bool) : Bool :=
  match mode.toNat with
  | 0 => rem > half || (rem == half && (sticky || sig % 2 == 1) && half != 0)
  | 1 => false
  | 2 => !neg && (rem != 0 || sticky)
  | _ => neg && (rem != 0 || sticky)

/-- Exponent of the leading bit of m × 2^e, for m ≠ 0. -/
def leadExp (m : Nat) (e : Int) : Int := m.log2 + e

/-- Round m × 2^e (m ≠ 0; `sticky`: the exact value is a little above) to a format with 8 exponent bits and `frac`
fraction bits (R167 to R169): the encoding without sign as if the exponent had no upper limit, tiny, inexact. -/
def roundMag (frac : Nat) (mode : BitVec 2) (neg : Bool) (m : Nat) (e : Int) (sticky : Bool) : Nat × Bool × Bool :=
  let qmin : Int := -126 - frac
  let q : Int := max (leadExp m e - frac) qmin
  let tiny := decide (leadExp m e < -126)
  if q ≤ e then
    ((q - qmin).toNat * 2 ^ frac + m * 2 ^ (e - q).toNat, tiny, sticky)
  else
    let d := (q - e).toNat
    let sig := m / 2 ^ d
    let rem := m % 2 ^ d
    let up := roundUp mode neg sig rem (2 ^ (d - 1)) sticky
    ((q - qmin).toNat * 2 ^ frac + sig + up.toNat, tiny, rem != 0 || sticky)

/-- The overflow result of R168, without sign. -/
def overflowMag (frac : Nat) (mode : BitVec 2) (neg : Bool) : Nat :=
  let toInf := match mode.toNat with
    | 0 => true
    | 1 => false
    | 2 => !neg
    | _ => neg
  if toInf then 255 * 2 ^ frac else 255 * 2 ^ frac - 1

/-- Sign bit of a format with `frac` fraction bits and 8 exponent bits. -/
def signBit (frac : Nat) (neg : Bool) : Nat := neg.toNat * 2 ^ (frac + 8)

/-- One rounding of a non-zero exact result, with its flags (R167 to R169, R173). -/
def roundTo (frac : Nat) (mode : BitVec 2) (ftz : Bool) (neg : Bool) (m : Nat) (e : Int) (sticky : Bool) : Nat × FFlags :=
  let r := roundMag frac mode neg m e sticky
  if r.2.1 ∧ ftz then (signBit frac neg, flagUF ||| flagIX)
  else if r.1 ≥ 255 * 2 ^ frac then (signBit frac neg + overflowMag frac mode neg, flagOF ||| flagIX)
  else (signBit frac neg + r.1,
    (if r.2.1 ∧ r.2.2 then flagUF else 0) ||| (if r.2.2 then flagIX else 0))

/-- The FP40 result of a non-zero exact value. -/
def fpRound (c : FpCtl) (neg : Bool) (m : Nat) (e : Int) (sticky : Bool) : Word × FFlags :=
  let r := roundTo 31 c.mode c.ftz neg m e sticky
  (BitVec.ofNat 40 r.1, r.2)

def fpZero (neg : Bool) : Word := if neg then 0x8000000000 else 0
def fpInf (neg : Bool) : Word := if neg then 0xFF80000000 else 0x7F80000000

/-- The canonical NaN, with IV when `iv`. -/
def fpNaN (iv : Bool) : Word × FFlags := (canonicalNaN, if iv then flagIV else 0)

/-- Signed integer value of a magnitude. -/
def signedMag (neg : Bool) (m : Nat) : Int := if neg then -(m : Int) else m

/-- The exact sum of two finite values as (value, exponent). -/
def exactSum (na : Bool) (ma : Nat) (ea : Int) (nb : Bool) (mb : Nat) (eb : Int) : Int × Int :=
  let e := min ea eb
  (signedMag na (ma * 2 ^ (ea - e).toNat) + signedMag nb (mb * 2 ^ (eb - e).toNat), e)

/-- Round a finite sum; an exact zero has the sign of R170. -/
def fpSumRound (c : FpCtl) (na nb : Bool) (v : Int × Int) : Word × FFlags :=
  if v.1 = 0 then (fpZero (if na = nb then na else decide (c.mode = 3)), 0)
  else fpRound c (decide (v.1 < 0)) v.1.natAbs v.2 false

def fpIsNaN : FpVal → Bool
  | .nan _ => true
  | _ => false

def fpIsSNaN : FpVal → Bool
  | .nan b => b
  | _ => false

def fpNegate : FpVal → FpVal
  | .nan b => .nan b
  | .inf n => .inf (!n)
  | .fin n m e => .fin (!n) m e

/-- Sum of two operands (R167, R170, R171). -/
def fpAddVal (c : FpCtl) (x y : FpVal) : Word × FFlags :=
  match x, y with
  | .fin na ma ea, .fin nb mb eb => fpSumRound c na nb (exactSum na ma ea nb mb eb)
  | .inf na, .inf nb => if na = nb then (fpInf na, 0) else fpNaN true
  | .inf na, .fin _ _ _ => (fpInf na, 0)
  | .fin _ _ _, .inf nb => (fpInf nb, 0)
  | x, y => fpNaN (fpIsSNaN x || fpIsSNaN y)

def fpAdd (c : FpCtl) (a b : Word) : Word × FFlags := fpAddVal c (fpUnpack c a) (fpUnpack c b)
def fpSub (c : FpCtl) (a b : Word) : Word × FFlags := fpAddVal c (fpUnpack c a) (fpNegate (fpUnpack c b))

/-- Product (R167, R170, R171). -/
def fpMul (c : FpCtl) (a b : Word) : Word × FFlags :=
  match fpUnpack c a, fpUnpack c b with
  | .fin na ma ea, .fin nb mb eb =>
    if ma * mb = 0 then (fpZero (na ^^ nb), 0) else fpRound c (na ^^ nb) (ma * mb) (ea + eb) false
  | .inf na, .inf nb => (fpInf (na ^^ nb), 0)
  | .inf na, .fin nb m _ => if m = 0 then fpNaN true else (fpInf (na ^^ nb), 0)
  | .fin na m _, .inf nb => if m = 0 then fpNaN true else (fpInf (na ^^ nb), 0)
  | x, y => fpNaN (fpIsSNaN x || fpIsSNaN y)

/-- Quotient (R167, R170, R171). -/
def fpDiv (c : FpCtl) (a b : Word) : Word × FFlags :=
  match fpUnpack c a, fpUnpack c b with
  | .fin na ma ea, .fin nb mb eb =>
    if mb = 0 then (if ma = 0 then fpNaN true else (fpInf (na ^^ nb), flagDZ))
    else if ma = 0 then (fpZero (na ^^ nb), 0)
    else fpRound c (na ^^ nb) (ma * 2 ^ 66 / mb) (ea - eb - 66) (ma * 2 ^ 66 % mb != 0)
  | .inf _, .inf _ => fpNaN true
  | .inf na, .fin nb _ _ => (fpInf (na ^^ nb), 0)
  | .fin na _ _, .inf nb => (fpZero (na ^^ nb), 0)
  | x, y => fpNaN (fpIsSNaN x || fpIsSNaN y)

/-- Integer square root, one bit per round, from bit `i` down. -/
def isqrtFrom (n : Nat) : Nat → Nat → Nat
  | 0, r => if (r + 1) * (r + 1) ≤ n then r + 1 else r
  | i + 1, r => isqrtFrom n i (if (r + 2 ^ (i + 1)) * (r + 2 ^ (i + 1)) ≤ n then r + 2 ^ (i + 1) else r)

/-- Square root (R167, R170, R171). -/
def fpSqrt (c : FpCtl) (a : Word) : Word × FFlags :=
  match fpUnpack c a with
  | .fin na ma ea =>
    if ma = 0 then (fpZero na, 0)
    else if na then fpNaN true
    else
      let k : Nat := if (ea - 68) % 2 = 0 then 68 else 69
      let n := ma * 2 ^ k
      let r := isqrtFrom n 51 0
      fpRound c false r ((ea - k) / 2) (r * r != n)
  | .inf n => if n then fpNaN true else (fpInf false, 0)
  | x => fpNaN (fpIsSNaN x)

/-- d + a × b with one rounding (R136, R170, R171). -/
def fpMac (c : FpCtl) (d a b : Word) : Word × FFlags :=
  let xd := fpUnpack c d
  let xa := fpUnpack c a
  let xb := fpUnpack c b
  let sn := fpIsSNaN xd || fpIsSNaN xa || fpIsSNaN xb
  match xa, xb with
  | .fin na ma ea, .fin nb mb eb =>
    match xd with
    | .fin nd md ed => fpSumRound c nd (na ^^ nb) (exactSum nd md ed (na ^^ nb) (ma * mb) (ea + eb))
    | .inf nd => (fpInf nd, 0)
    | .nan _ => fpNaN sn
  | .inf na, .inf nb =>
    match xd with
    | .inf nd => if nd = (na ^^ nb) then (fpInf nd, 0) else fpNaN true
    | .fin _ _ _ => (fpInf (na ^^ nb), 0)
    | .nan _ => fpNaN sn
  | .inf na, .fin nb m _ =>
    if m = 0 then fpNaN true else
    match xd with
    | .inf nd => if nd = (na ^^ nb) then (fpInf nd, 0) else fpNaN true
    | .fin _ _ _ => (fpInf (na ^^ nb), 0)
    | .nan _ => fpNaN sn
  | .fin na m _, .inf nb =>
    if m = 0 then fpNaN true else
    match xd with
    | .inf nd => if nd = (na ^^ nb) then (fpInf nd, 0) else fpNaN true
    | .fin _ _ _ => (fpInf (na ^^ nb), 0)
    | .nan _ => fpNaN sn
  | _, _ => fpNaN sn

/-- Order key of a non-NaN encoding, −0 below +0 (R133). -/
def fpKey (b : Word) : Int :=
  if b.msb then -((b &&& 0x7FFFFFFFFF).toNat : Int) - 1 else b.toNat

/-- Value key: −0 equals +0 (R170). -/
def fpValKey (b : Word) : Int := signedMag b.msb (b &&& 0x7FFFFFFFFF).toNat

/-- FMIN (`max` false) and FMAX: the chosen operand after DAZ (R133, R174). -/
def fpMinMax (max : Bool) (c : FpCtl) (a b : Word) : Word × FFlags :=
  let x := fpUnpack c a
  let y := fpUnpack c b
  if fpIsNaN x || fpIsNaN y then fpNaN (fpIsSNaN x || fpIsSNaN y)
  else
    let a := dazWord c a
    let b := dazWord c b
    (if max then (if fpKey a ≥ fpKey b then a else b) else (if fpKey a ≤ fpKey b then a else b), 0)

/-- FNEG and FABS (R133). -/
def fpSign (absolute : Bool) (c : FpCtl) (a : Word) : Word × FFlags :=
  let x := fpUnpack c a
  if fpIsNaN x then fpNaN (fpIsSNaN x)
  else if absolute then (dazWord c a &&& 0x7FFFFFFFFF, 0) else (dazWord c a ^^^ 0x8000000000, 0)

/-- The compares (R133): 0 EQ, 1 LT, 2 LE, 3 UN. -/
def fpCompare (op : Nat) (c : FpCtl) (a b : Word) : Bool × FFlags :=
  let x := fpUnpack c a
  let y := fpUnpack c b
  let un := fpIsNaN x || fpIsNaN y
  let iv : Bool := if op = 1 ∨ op = 2 then un else fpIsSNaN x || fpIsSNaN y
  let ka := fpValKey (dazWord c a)
  let kb := fpValKey (dazWord c b)
  (match op with
    | 0 => !un && ka == kb
    | 1 => !un && decide (ka < kb)
    | 2 => !un && decide (ka ≤ kb)
    | _ => un,
   if iv then flagIV else 0)

/-- An integer to FP40 (R180). -/
def intToFp (c : FpCtl) (v : Int) : Word × FFlags :=
  if v = 0 then (0, 0) else fpRound { c with ftz := false } (decide (v < 0)) v.natAbs 0 false

/-- Round m × 2^e to an integer magnitude, with inexact (R179, R181). -/
def roundInt (mode : BitVec 2) (neg : Bool) (m : Nat) (e : Int) : Nat × Bool :=
  if 0 ≤ e then (m * 2 ^ e.toNat, false)
  else
    let d := (-e).toNat
    let up := roundUp mode neg (m / 2 ^ d) (m % 2 ^ d) (2 ^ (d - 1)) false
    (m / 2 ^ d + up.toNat, m % 2 ^ d != 0)

/-- FP40 to an integer within [lo, hi] (R179). -/
def fpToInt (c : FpCtl) (lo hi : Int) (a : Word) : Int × FFlags :=
  match fpUnpack c a with
  | .nan _ => (0, flagIV)
  | .inf n => (if n then lo else hi, flagIV)
  | .fin n m e =>
    let r := roundInt c.mode n m e
    let v := signedMag n r.1
    if v > hi then (hi, flagIV) else if v < lo then (lo, flagIV)
    else (v, if r.2 then flagIX else 0)

/-- binary32 to FP40 (R175). -/
def fpFrom32 (c : FpCtl) (b : Nat) : Word × FFlags :=
  match unpackFmt 23 8 b with
  | .nan s => fpNaN s
  | .inf n => (fpInf n, 0)
  | .fin n m _ =>
    if c.ftz ∧ m ≠ 0 ∧ m < 2 ^ 23 then (fpZero n, flagUF ||| flagIX) else (BitVec.ofNat 40 (b * 256), 0)

/-- FP40 to binary32 (R176). A source whose nearest binary32 value would be infinite raises OF in every mode (R183).
[log entry 37: DEDUCED] -/
def fpTo32 (c : FpCtl) (a : Word) : Nat × FFlags :=
  match fpUnpack c a with
  | .nan s => (0x7FC00000, if s then flagIV else 0)
  | .inf n => (signBit 23 n + 0x7F800000, 0)
  | .fin n m e =>
    if m = 0 then (signBit 23 n, 0)
    else
      let r := roundTo 23 c.mode false n m e false
      (r.1, if (roundMag 23 0 n m e false).1 ≥ 255 * 2 ^ 23 then flagOF ||| flagIX else r.2)

/-- binary64 to FP40 (R177). -/
def fpFrom64 (c : FpCtl) (b : Nat) : Word × FFlags :=
  match unpackFmt 52 11 b with
  | .nan s => fpNaN s
  | .inf n => (fpInf n, 0)
  | .fin n m e => if m = 0 then (fpZero n, 0) else fpRound c n m e false

/-- FP40 to binary64 (R178). -/
def fpTo64 (c : FpCtl) (a : Word) : Nat × FFlags :=
  match fpUnpack c a with
  | .nan s => (0x7FF8000000000000, if s then flagIV else 0)
  | .inf n => (n.toNat * 2 ^ 63 + 0x7FF0000000000000, 0)
  | .fin n m e =>
    if m = 0 then (n.toNat * 2 ^ 63, 0)
    else (n.toNat * 2 ^ 63 + (leadExp m e + 1023).toNat * 2 ^ 52 + m * 2 ^ (52 - m.log2) % 2 ^ 52, 0)

/-- Round to an integral value (R181). -/
def fpRint (c : FpCtl) (a : Word) : Word × FFlags :=
  match fpUnpack c a with
  | .nan s => fpNaN s
  | .inf _ => (a, 0)
  | .fin n m e =>
    if m = 0 then (fpZero n, 0)
    else if leadExp m e ≥ 31 then (a, 0)
    else
      let r := roundInt c.mode n m e
      if r.1 = 0 then (fpZero n, 0) else ((fpRound c n r.1 0 false).1, 0)

/-! ### Early-out (R134, R135, R229, R230) -/

/-- Trailing zero bits of a non-zero significand, at most `fuel`. -/
def trailingZeros : Nat → Nat → Nat
  | 0, _ => 0
  | fuel + 1, n => if n % 2 = 1 then 0 else trailingZeros fuel (n / 2) + 1

/-- Significand bits that the multiplier needs: 32 − t for a finite non-zero value, else 0 (R134). -/
def multiplierBits (c : FpCtl) (b : Word) : Nat :=
  match fpUnpack c b with
  | .fin _ m _ => if m = 0 then 0 else
      -- the significand is 32 bits wide, the hidden bit clear in a subnormal
      32 - trailingZeros 32 m
  | _ => 0

/-- The position of the hidden bit of a finite operand (R135). -/
def hiddenExp (m : Nat) (e : Int) : Int := if m < 2 ^ 31 then -126 else leadExp m e

/-- Steps as a bit set from a distance: a result below the subnormal boundary needs none (R229).
[log entry 137: DEDUCED] -/
def stepBits (top : Int) (v : Int × Int) : Nat :=
  if v.1 = 0 then 0
  else
    let l := leadExp v.1.natAbs v.2
    if l < -126 then 0 else (top - l).toNat % 32

/-- Normalisation steps that one PE needs in FADD and FSUB (R135). -/
def addSteps (c : FpCtl) (a b : Word) (sub : Bool) : Nat :=
  match fpUnpack c a, (if sub then fpNegate (fpUnpack c b) else fpUnpack c b) with
  | .fin na ma ea, .fin nb mb eb =>
    -- the hidden-bit position of the operand of larger magnitude
    let top := if (exactSum false ma ea true mb eb).1 ≥ 0 then hiddenExp ma ea else hiddenExp mb eb
    stepBits top (exactSum na ma ea nb mb eb)
  | _, _ => 0

/-- Normalisation steps that one PE needs in MACF (R135). -/
def macSteps (c : FpCtl) (d a b : Word) : Nat :=
  match fpUnpack c d, fpUnpack c a, fpUnpack c b with
  | .fin nd md ed, .fin na ma ea, .fin nb mb eb =>
    let top := if ma * mb = 0 then hiddenExp md ed
      else if md = 0 then leadExp (ma * mb) (ea + eb)
      else max (hiddenExp md ed) (leadExp (ma * mb) (ea + eb))
    stepBits top (exactSum nd md ed (na ^^ nb) (ma * mb) (ea + eb))
  | _, _, _ => 0

/-- Normalisation steps that one PE needs in ICVTF and UCVTF of width w: distances 32, 16, 8, 4, 2, 1 (R135). -/
def intSteps (w : Nat) (v : Int) : Nat := if v = 0 then 0 else w - 1 - v.natAbs.log2

/-- Number of distances among the low `n` bits that are taken. -/
def stepCount : Nat → Nat → Nat
  | 0, _ => 0
  | n + 1, d => d % 2 + stepCount n (d / 2)

end Sys2Proof.Machine
end

