-- ==== Sys2Proof/Machine/StoreOps.lean ====
section
/-! DEFINITION. Accesses to words of the Shared Store, meetings of the two ports, atomic operations and windows (R258 to
R274, R278). -/

namespace Sys2Proof.Machine

/-- Number of store words, and the first word of the secure partition (R258). -/
def storeWords : Nat := 2097152
def secureBase : Nat := 0x1F0000

/-- Mask of the enabled byte lanes (R260). -/
def laneMask (l : BitVec 5) : Word :=
  let b := fun (i : Nat) => if l.getLsbD i then (0xFF : BitVec 8) else 0
  b 4 ++ b 3 ++ b 2 ++ b 1 ++ b 0

/-- A word with its enabled lanes replaced. -/
def mergeLanes (old new : Word) (l : BitVec 5) : Word := (old &&& ~~~(laneMask l)) ||| (new &&& laneMask l)

/-! ### Power of the store (R259) -/

/-- The four quadrant domains are on. -/
def storeIsOn (s : State) : Bool := regBits s 0x30004 5 2 = 0xF

/-- The store serves requests: on, and none of its quadrants' NIs is closing (R254, R259). -/
def storeServes (s : State) : Bool := storeIsOn s && (List.range 4).all (fun q => niState s (32 + q, 1) == 0)

/-! ### The word behind an address: block or shadow (R278) -/

def inLease (s : State) (a : Nat) : Bool := s.lease.st != .none && a / 4096 == s.lease.block.toNat

/-- The access goes to the shadow. -/
def redirected (s : State) (a : Nat) : Bool := inLease s a && (s.lease.st == .redirect || s.lease.st == .restore)

def storeWord (s : State) (a : Nat) : Word :=
  if redirected s a then cget zeroes s.shadow (a % 4096) else cget zeroes s.store a

/-- Write a word where the lease state sends it; a whole word replaces a bad one. -/
def putStoreWord (s : State) (a : Nat) (v : Word) : State :=
  let block := fun (s : State) => { s with store := cset zeroes s.store a v, storeErr := s.storeErr.filter (fun e => e.addr.toNat != a) }
  let shade := fun (s : State) => { s with shadow := cset zeroes s.shadow (a % 4096) v }
  if inLease s a then
    match s.lease.st with
    | .redirect => shade s
    | _ => shade (block s)
  else block s

/-- The bit error of a word, where an access reaches it: some true if it is uncorrectable (R262). -/
def errorAt (s : State) (a : Nat) : Option Bool :=
  if redirected s a then none
  else
    if s.storeErr.any (fun e => e.addr.toNat == a && e.multi) then some true
    else if s.storeErr.any (fun e => e.addr.toNat == a) then some false
    else none

/-- Record an uncorrectable word (R262); `source` 1 for the scrubber. -/
def recordUncorr (s : State) (a source : Nat) : State :=
  let s := setRegBits (countUp s 0x30014 15 0 1) 0x30014 16 16 1
  let s := setReg s 0x30018 (BitVec.ofNat 32 (a + source * 2 ^ 21))
  logEvent (noteUncorr s (logSource 0x03 (a / 8 % 4))) (logSource 0x03 (a / 8 % 4)) 0x0010 stEccUncorrected (BitVec.ofNat 24 a)

/-- Correct a single-bit error: written back and counted. -/
def correctWord (s : State) (a : Nat) : State :=
  countUp { s with storeErr := s.storeErr.filter (fun e => e.addr.toNat != a) } 0x30010 31 0 1

/-! ### One access of one port (R260 to R262, R267 to R269) -/

/-- Result of an access: status, word read, and BUSY for a D-port access. -/
structure Hit where
  status : Status
  word   : Word
  busy   : Bool
deriving DecidableEq, Repr

/-- Whether the D port has priority. -/
def prioD (s : State) : Bool := (reg s 0x30000).getLsbD 0

/-- This port lacks priority. -/
def yields (s : State) (isD : Bool) : Bool := isD != prioD s

/-- The access meets one that counts as a write. -/
def meetsWrite : Meet → Bool
  | .write _ _ => true
  | .atomic _ => true
  | _ => false

/-- A read with the ECC check. -/
def soundRead (s : State) (a : Nat) : State × Hit :=
  match errorAt s a with
  | some true => (recordUncorr s a 0, { status := stEccUncorrected, word := 0, busy := false })
  | some false => (correctWord s a, { status := stOK, word := storeWord s a, busy := false })
  | none => (s, { status := stOK, word := storeWord s a, busy := false })

/-- A read that meets a write of the other port delivers the old word, the new word or a mixture by lane (R268).
[log entry 17: DESIGN CHOICE] -/
def undefRead (isD : Bool) (s : State) (a : Nat) (new : Word) : State × Hit :=
  let f := takeFree s
  let s := countUp f.2 0x30080 31 0 1
  (s, { status := stUndefRead, word := mergeLanes (storeWord s a) new (Config.undefLanes f.1), busy := isD && yields s isD })

def readWord (isD : Bool) (s : State) (a : Nat) (m : Meet) : State × Hit :=
  match m with
  | .write l d => undefRead isD s a (mergeLanes (storeWord s a) d l)
  | .atomic r => undefRead isD s a r
  | _ => soundRead s a

/-- A losing write or atomic operation (R267, R269). -/
def collide (isD : Bool) (s : State) (a : Nat) : State × Hit :=
  let b := a % 32
  let s := countUp s (0x30040 + b / 2 * 4) (16 * (b % 2) + 15) (16 * (b % 2)) 1
  (logEvent s (logSource 0x03 (a / 8 % 4)) 0x0020 stCollided (BitVec.ofNat 24 a), { status := stCollided, word := 0, busy := isD })

def writeWord (isD : Bool) (s : State) (a : Nat) (l : BitVec 5) (v : Word) (m : Meet) : State × Hit :=
  if meetsWrite m && yields s isD then collide isD s a
  else
    let busy := isD && yields s isD && m == .read
    if l = 0b11111 then (putStoreWord s a v, { status := stOK, word := 0, busy })
    else
      match errorAt s a with
      | some true => (recordUncorr s a 0, { status := stEccUncorrected, word := 0, busy })
      | some false =>
        let s := correctWord s a
        (putStoreWord s a (mergeLanes (storeWord s a) v l), { status := stOK, word := 0, busy })
      | none => (putStoreWord s a (mergeLanes (storeWord s a) v l), { status := stOK, word := 0, busy })

/-- An atomic operation writes `f old` and returns the old word (R269, R273). [log entry 75: DESIGN CHOICE] -/
def atomicWord (isD : Bool) (s : State) (a : Nat) (f : Word → Word) (m : Meet) : State × Hit :=
  if meetsWrite m && yields s isD then collide isD s a
  else
    let r := soundRead s a
    let busy := isD && yields s isD && m == .read
    if r.2.status = stOK then (putStoreWord r.1 a (f r.2.word), { r.2 with busy }) else (r.1, { r.2 with busy })

/-- The status of a request from those of its words (R264). -/
def worse (a b : Status) : Status :=
  let rank := fun (x : Status) => if x = stEccUncorrected then 3 else if x = stCollided then 2 else if x = stUndefRead then 1 else 0
  if rank a ≥ rank b then a else b

/-! ### Runs of store words (R264) -/

/-- The accesses of the D port as one list: a word that it writes, changes by an atomic operation or reads. -/
def portMeets (reads : List Nat) (writes : List (Nat × BitVec 5 × Word)) (atomics : List (Nat × Word)) : List (Nat × Meet) :=
  writes.map (fun x => (x.1, .write x.2.1 x.2.2)) ++ atomics.map (fun x => (x.1, .atomic x.2)) ++ reads.map (fun a => (a, .read))

/-- What the D port does to a word in the same nc. [log entry 75: DESIGN CHOICE] -/
def meetOf (meets : List (Nat × Meet)) (a : Nat) : Meet := match meets.find? (fun m => m.1 == a) with
  | some m => m.2
  | none => .none

/-- Read `n` words from `a`: the words in order and the status of the request. -/
def readRun (isD : Bool) (a : Nat) (meets : List (Nat × Meet)) : Nat → State → State × List Word × Status
  | 0, s => (s, [], stOK)
  | n + 1, s =>
    let r := readWord isD s a (meetOf meets a)
    let q := readRun isD (a + 1) meets n r.1
    (q.1, r.2.word :: q.2.1, worse r.2.status q.2.2)

/-- Write words from `a` under lane enables: the status of the request. -/
def writeRun (isD : Bool) (l : BitVec 5) (meets : List (Nat × Meet)) : List Word → Nat → State → State × Status
  | [], _, s => (s, stOK)
  | v :: vs, a, s =>
    let r := writeWord isD s a l v (meetOf meets a)
    let q := writeRun isD l meets vs (a + 1) r.1
    (q.1, worse r.2.status q.2)

/-! ### Windows (R271, R272, R274) -/

def winReg (w : Fin 16) (o : Nat) : Nat := 0x30100 + w.val * 0x20 + o
def winBase (s : State) (w : Fin 16) : Nat := regBits s (winReg w 0x00) 20 0
def winLen (s : State) (w : Fin 16) : Nat := regBits s (winReg w 0x04) 20 0
def winStride (s : State) (w : Fin 16) : Nat := regBits s (winReg w 0x08) 15 0
def winOn (s : State) (w : Fin 16) : Bool := (reg s (winReg w 0x0C)).getLsbD 0
def winHead (s : State) (w : Fin 16) : Nat := regBits s (winReg w 0x10) 20 0
def winTail (s : State) (w : Fin 16) : Nat := regBits s (winReg w 0x14) 20 0

/-- Element i of a window. -/
def winElem (s : State) (w : Fin 16) (i : Nat) : Nat := winBase s w + i * winStride s w

/-- Offset j from the head, or from the tail. -/
def headElem (s : State) (w : Fin 16) (j : Nat) : Nat := winElem s w ((winHead s w + j) % winLen s w)
def tailElem (s : State) (w : Fin 16) (j : Nat) : Nat := winElem s w ((winTail s w + j) % winLen s w)

/-- Occupancy of a window (R272). -/
def winUsed (s : State) (w : Fin 16) : Nat :=
  let h := winHead s w
  let t := winTail s w
  if h = t then
    (if (reg s (winReg w 0x10)).getLsbD 21 = (reg s (winReg w 0x14)).getLsbD 21 then 0 else winLen s w)
  else (t + winLen s w - h) % winLen s w

/-- RING_ADVANCE by n on an enabled window: the new state and the response word (R274). -/
def advanceWindow (s : State) (w : Fin 16) (tail : Bool) (n : Nat) : State × Word :=
  let o := winReg w (if tail then 0x14 else 0x10)
  let v := (reg s o).toNat
  let idx := bitsOf v 20 0
  let refused : Bool := if tail then winUsed s w + n > winLen s w else n > winUsed s w
  let word := BitVec.ofNat 40 (v % 2 ^ 22 + refused.toNat * 2 ^ 39)
  if refused then (countUp s (winReg w 0x18) (if tail then 15 else 31) (if tail then 0 else 16) 1, word)
  else
    let sum := idx + n
    let lap := (bitsOf v 21 21 + sum / winLen s w) % 2
    (setReg s o (BitVec.ofNat 32 (sum % winLen s w + lap * 2 ^ 21)), word)

/-- The geometry check of ENABLE (R271). -/
def winFits (s : State) (w : Fin 16) : Bool :=
  1 ≤ winLen s w && 1 ≤ winStride s w && winBase s w + (winLen s w - 1) * winStride s w < secureBase

/-- A write of STORE_WIN_CTRL; the second value says that the write is to be recorded as REGWARN. -/
def winCtrlWrite (s : State) (w : Fin 16) (v : Reg32) : State × Bool :=
  let reserved : Bool := v.toNat ≥ 2
  if v.getLsbD 0 then
    if winOn s w || winFits s w then (setReg s (winReg w 0x0C) 1, reserved) else (s, true)
  else (setReg s (winReg w 0x0C) 0, reserved)

/-- The 16 bits of R274's operand: word 0 to 20 the amount. -/
def advanceAmount (v : Word) : Nat := v.toNat % 2 ^ 21

/-! ### Checks of the store (R264, R255 order 2, R275) -/

/-- Check 2 of R255 at the store: addresses within it, and the secure partition for its two users only, not during a
wipe. -/
def storeRange (t : Nat) (s : State) (p : Packet) : Bool :=
  if t = ptAtomic ∧ p.arg = 2 then true
  else if t = ptRegRd ∨ t = ptRegWr then p.addr.toNat < 0x300 && p.addr.toNat % 4 == 0
  else
    let last := p.addr.toNat + p.words.toNat - 1
    last < storeWords &&
    (last < secureBase || ((p.src == ident 5 0 || p.src == ident 8 1) && p.sdev == ownDev s && !(reg s 0x30004).getLsbD 1))

/-- Order 1 and 2 of R264 for a RING_ADVANCE. [log entry 76: DEDUCED] -/
def advanceBad (s : State) (addr : BitVec 21) (v : Word) : Option Status :=
  firstFail [(addr.toNat ≥ 32 || v.toNat ≥ 2 ^ 21, stBadDescriptor),
             (!winOn s (Fin.ofNat 16 (addr.toNat % 16)), stBadAddress)]

end Sys2Proof.Machine
end

