-- ==== Sys2Proof/Machine/CoursePort.lean ====
section
/-! DEFINITION. The Course Port channels: formats, sequence check, starts, aborts, plane phases and completions (R42 to
R51, R57, R58), and the register file of a course (R52). -/

namespace Sys2Proof.Machine

/-! ### Channel registers (R57, R58) -/

def cpReg (c : Fin 64) (n : Fin 4) (o : Nat) : Nat := crsReg c (0x100 + 0x20 * n.val + o)

/-- The fields of a channel's control register. -/
structure CpCtl where
  outbound : Bool
  format   : Nat
  column   : Bool
  port     : Bool
  cont     : Bool
  width    : Nat
  source   : Nat
  signx    : Bool
  scale    : Nat
deriving DecidableEq, Repr

def cpCtlOf (v : Nat) : CpCtl :=
  { outbound := v.testBit 2, format := bitsOf v 4 3, column := v.testBit 5, port := v.testBit 6, cont := v.testBit 7,
    width := bitsOf v 13 8, source := bitsOf v 15 14, signx := v.testBit 16, scale := bitsOf v 21 17 }

def cpCtl (s : State) (c : Fin 64) (n : Fin 4) : CpCtl := cpCtlOf (reg s (cpReg c n 0)).toNat
def cpBase (s : State) (c : Fin 64) (n : Fin 4) : Nat := regBits s (cpReg c n 0x04) 13 0
def cpFirst (s : State) (c : Fin 64) (n : Fin 4) : Nat := regBits s (cpReg c n 0x08) 9 0
def cpCount (s : State) (c : Fin 64) (n : Fin 4) : Nat := regBits s (cpReg c n 0x08) 20 10
def cpAddr (s : State) (c : Fin 64) (n : Fin 4) : Nat := regBits s (cpReg c n 0x0C) 20 0
def cpWindow (s : State) (c : Fin 64) (n : Fin 4) : Fin 16 := Fin.ofNat 16 (regBits s (cpReg c n 0x0C) 24 21)
def cpDest (s : State) (c : Fin 64) (n : Fin 4) : Nat := (reg s (crsReg c (0x180 + 4 * n.val))).toNat

/-- Node and port of a logical course. -/
def coursePort (s : State) (c : Fin 64) : Nat × Nat := physPort (s.lmap[c]).val

/-! ### Formats (R42, R43) -/

def gapValue : Word := 0x7FC0000000

/-- The field value of a well-formed word; a sample of 0 gives +0 (R43). -/
def slotValue (k : CpCtl) (w : Word) : Word :=
  let sample : Int := (w.extractLsb' 0 24).toInt
  match k.format with
  | 1 => BitVec.ofInt 40 sample
  | 2 => if sample = 0 then 0 else (fpRound (fpCtlOf 0) (decide (sample < 0)) sample.natAbs (-(k.scale : Int)) false).1
  | _ => BitVec.ofNat 40 (w.toNat % 2 ^ k.width)

/-! ### Words arriving (R44, R45) -/

def cpExpected (s : State) (c : Fin 64) (n : Fin 4) : Nat := regBits s (cpReg c n 0x14) 7 0
def setExpected (s : State) (c : Fin 64) (n : Fin 4) (v : Nat) : State := setRegBits s (cpReg c n 0x14) 7 0 v

/-- Slots still to fill. -/
def slotsLeft (s : State) (c : Fin 64) (n : Fin 4) : Nat := cpCount s c n - (chan s c n).bank.length

def fillSlots (s : State) (c : Fin 64) (n : Fin 4) (vs : List Word) : State :=
  let k := chan s c n
  setChan s c n { k with bank := k.bank ++ vs }

def consume (s : State) (c : Fin 64) (n : Fin 4) : State :=
  let k := chan s c n
  setChan s c n { k with consumed := k.consumed + 1 }

/-- Slots are filled for words that are missing: GAPS counts them. -/
def countGaps (s : State) (c : Fin 64) (n : Fin 4) (k : Nat) : State :=
  { countUp s (cpReg c n 0x18) 31 0 k with gaps := s.gaps.set c (s.gaps[c] + k) }

/-- One inbound word of a transfer with slots left; the second value is false where the word is left unconsumed. -/
def takeWord (s : State) (c : Fin 64) (n : Fin 4) (w : Word) : State × Bool :=
  let k := cpCtl s c n
  if k.format = 0 then (consume (fillSlots s c n [slotValue k w]) c n, true)
  else if (w.extractLsb' 32 7) != 0 then
    let s := countUp (consume (fillSlots s c n [gapValue]) c n) (cpReg c n 0x1C) 31 16 1
    (setExpected s c n (cpExpected s c n + 1), true)
  else
    let seq := (w.extractLsb' 24 8).toNat
    let ch := chan s c n
    let s := if ch.sync then setChan (setExpected s c n seq) c n { ch with sync := false } else s
    let d := (seq + 256 - cpExpected s c n) % 256
    let room := slotsLeft s c n
    if d = 0 then (setExpected (consume (fillSlots s c n [slotValue k w]) c n) c n (seq + 1), true)
    else if d ≥ 128 then (countUp (consume s c n) (cpReg c n 0x1C) 15 0 1, true)
    else if d ≥ room then
      let s := countGaps (fillSlots s c n (List.replicate room gapValue)) c n room
      (setExpected s c n (cpExpected s c n + room), false)
    else
      let s := countGaps (fillSlots s c n (List.replicate d gapValue ++ [slotValue k w])) c n d
      (setExpected (consume s c n) c n (seq + 1), true)

/-- Words feed the transfer in order until its slots are filled; the words that are not taken are the second value. -/
def feedWords (c : Fin 64) (n : Fin 4) : State → List Word → State × List Word
  | s, [] => (s, [])
  | s, w :: ws =>
    if slotsLeft s c n = 0 then (s, w :: ws)
    else
      let r := takeWord s c n w
      if r.2 then feedWords c n r.1 ws else (r.1, w :: ws)

/-- Count discarded CP_PUSH words (R47). -/
def discardWords (s : State) (c : Fin 64) (n : Fin 4) (k : Nat) : State := countUp s (cpReg c n 0x10) 31 22 k

/-! ### Requests of a channel (R46, R47) -/

/-- A packet that a channel sends to the store or to another destination. [log entry 138: DESIGN CHOICE] -/
def cpPacket (s : State) (c : Fin 64) (n : Fin 4) (dst : BitVec 12) (ddev : BitVec 3) (words addr arg : Nat)
    (data : List Word) : Packet :=
  { ddev, dst, sdev := ownDev s, src := ident 0 c.val, tag := (chan s c n).gen ++ BitVec.ofNat 2 n.val,
    words := BitVec.ofNat 6 words, addr := BitVec.ofNat 21 addr, lanes := 0b11111, arg := BitVec.ofNat 6 arg, data,
    flits := half data.length, host := 0 }

/-- Elements of a window from an index that one packet can carry: contiguous words before the ring wraps. -/
def winRun (s : State) (w : Fin 16) (idx n : Nat) : Nat :=
  if winStride s w = 1 then min n (winLen s w - idx) else min n 1

/-- Address and length of the next read of an inbound FETCH or WINDOW transfer. -/
def nextRead (s : State) (c : Fin 64) (n : Fin 4) : Nat × Nat :=
  let k := chan s c n
  if (cpCtl s c n).source = 1 then (cpAddr s c n + k.asked, min 32 (cpCount s c n - k.asked))
  else
    let w := cpWindow s c n
    let idx := (winHead s w + k.asked) % winLen s w
    (winElem s w idx, winRun s w idx (min 32 (slotsLeft s c n)))

/-- Send the next read. -/
def sendRead (s : State) (c : Fin 64) (n : Fin 4) : State :=
  let r := nextRead s c n
  let p := cpPacket s c n (ident 2 0) (ownDev s) r.2 r.1 0 []
  let k := chan s c n
  inject (setChan s c n { k with waiting := r.2 }) ptRd p

/-- Advance the head or the tail of a WINDOW transfer's window. -/
def sendAdvance (s : State) (c : Fin 64) (n : Fin 4) (tail : Bool) (amount : Nat) : State :=
  let p := cpPacket s c n (ident 2 0) (ownDev s) 1 ((cpWindow s c n).val + 16 * tail.toNat) 2 [BitVec.ofNat 40 amount]
  let k := chan s c n
  inject (setChan s c n { k with adv := 1 }) ptAtomic p

/-- All slots of an inbound transfer are filled: the plane phase follows, or the head of the window is advanced. -/
def wordsDone (s : State) (c : Fin 64) (n : Fin 4) : State :=
  let k := cpCtl s c n
  let ch := chan s c n
  if !k.port then setChan s c n { ch with st := 2 }
  else if k.source = 2 then sendAdvance s c n false ch.consumed
  else s

/-- After words were taken: the words end, the rest of a FETCH is filled (R45), or the next read goes out. -/
def afterWords (s : State) (c : Fin 64) (n : Fin 4) : State :=
  let k := cpCtl s c n
  if slotsLeft s c n = 0 then wordsDone s c n
  else if k.source = 1 ∧ (chan s c n).asked ≥ cpCount s c n then
    let r := slotsLeft s c n
    wordsDone (countGaps (fillSlots s c n (List.replicate r gapValue)) c n r) c n
  else if k.source = 0 then s
  else sendRead s c n

/-- CP_PUSH words reach a channel (R47). -/
def pushWords (s : State) (c : Fin 64) (n : Fin 4) (ws : List Word) : State :=
  let k := cpCtl s c n
  if (chan s c n).st = 1 ∧ !k.outbound ∧ k.source = 0 ∧ slotsLeft s c n ≠ 0 then
    let r := feedWords c n s ws
    let s := discardWords r.1 c n r.2.length
    if slotsLeft s c n = 0 then wordsDone s c n else s
  else discardWords s c n ws.length

/-! ### Starts and aborts (R51, R57) -/

/-- Checks 2 and 3 of R51 with the registers as written. -/
def startBad (s : State) (c : Fin 64) (n : Fin 4) : Option Status :=
  let k := cpCtl s c n
  let count := cpCount s c n
  let d := cpDest s c n
  let cls := bitsOf d 15 12
  let push : Bool := k.outbound && k.source == 0
  let probe : Packet := withQuadrant ptWr (cpPacket s c n (ident cls (d % 256)) (BitVec.ofNat 3 (bitsOf d 18 16)) 1 (cpAddr s c n) 1 [])
  firstFail [
    (k.format == 3 || k.source == 3 || k.width == 0 || k.width > 40 || ((k.format == 1 || k.format == 2) && k.width != 40) ||
      count == 0 || count > 1024 || cpFirst s c n + count > 1024 ||
      (push && (bitsOf d 11 8 != 0 || cls ≥ 0xB || cls == 4 || (!d.testBit 19 && cls != 2 && cls != 3) || (d.testBit 19 && cls != 0))),
      stBadDescriptor),
    (cpBase s c n + k.width > 16384 || (k.source == 1 && cpAddr s c n + count > secureBase) ||
      (k.source == 2 && !winOn s (cpWindow s c n)) || (push && sourceBad s probe (coursePort s c)),
      stBadAddress)]

/-- Acknowledge the register write that set START, if its sender asked for it. -/
def ackWrite (s : State) (owner : Option Packet) (st : Status) : State :=
  match owner with
  | some p => respond s p st []
  | none => s

/-- Write the RW fields of CRS_CP_CTRL. -/
def writeCpCtl (s : State) (c : Fin 64) (n : Fin 4) (v : Reg32) : State :=
  let s := setReg s (cpReg c n 0) (v &&& 0x003FFFFC)
  if v.toNat ≥ 2 ^ 22 then regWarnAt s (logSource 0x01 c.val) (0x100 + 0x20 * n.val) else s

/-- A transfer begins. -/
def beginTransfer (s : State) (c : Fin 64) (n : Fin 4) (owner : Option Packet) : State :=
  let k := cpCtl s c n
  let g := (chan s c n).gen + 1
  let s := setChan s c n { Chan.reset with
    st := if k.outbound then 2 else 1, sync := !k.cont && (k.format == 1 || k.format == 2), gen := g, owner }
  if k.outbound ∨ k.source = 0 then s else sendRead s c n

/-- A write of CRS_CP_CTRL with ABORT = 1 (R51); its reserved bits are recorded (R5, R52). [log entry 41: DEDUCED] -/
def abortChannel (s : State) (c : Fin 64) (n : Fin 4) (v : Reg32) (req : Option Packet) : State :=
  let k := chan s c n
  if k.st = 0 then ackWrite (writeCpCtl s c n v) req stLateAbort
  else
  let s := if v.toNat ≥ 2 ^ 22 then regWarnAt s (logSource 0x01 c.val) (0x100 + 0x20 * n.val) else s
  if k.st = 3 then ackWrite (setChan s c n { k with st := 0, bank := [] }) req stLateAbort
  else
    let s := setChan s c n { Chan.reset with gen := k.gen, consumed := k.consumed }
    let s := ackWrite (setRegBits s (cpReg c n 0x10) 9 2 stAborted.toNat) k.owner stAborted
    ackWrite s req stOK

/-- A write of CRS_CP_CTRL with START = 1 (R51). [log entry 41: DEDUCED] -/
def startChannel (s : State) (c : Fin 64) (n : Fin 4) (v : Reg32) (req : Option Packet) : State :=
  if v.getLsbD 1 then abortChannel s c n v req
  else if (chan s c n).st ≠ 0 then ackWrite s req stNoResource
  else
    let s := writeCpCtl s c n v
    match startBad s c n with
    | some st => ackWrite (setRegBits s (cpReg c n 0x10) 9 2 st.toNat) req st
    | none => beginTransfer s c n req

/-! ### The plane phase (R46, R49) -/

/-- The group that is one course. -/
def courseRect (c : Fin 64) : Rect := { x0 := BitVec.ofNat 3 (c.val % 8), y0 := BitVec.ofNat 3 (c.val / 8), w := 1, h := 1 }

/-- The PEs of the slot range, in slot order. -/
def slotPes (s : State) (c : Fin 64) (n : Fin 4) : List Nat :=
  (List.range (cpCount s c n)).map (fun j => localPe c (cpCtl s c n).column (cpFirst s c n + j))

/-- Write one plane of a filled bank. -/
def writeSlotPlane (s : State) (c : Fin 64) (n : Fin 4) : State :=
  let k := chan s c n
  let pes := slotPes s c n
  let a := cpBase s c n + k.planes
  let mask := planeBy pes (fun _ => true)
  let bits := (pes.zip k.bank).foldl (fun acc pv => if pv.2.getLsbD k.planes then acc ||| (1#65536 <<< pv.1) else acc) 0
  let s := reencode s (courseRect c) a
  let s := { s with pe := cset zeroes s.pe a (blend mask (cget zeroes s.pe a) bits) }
  setChan s c n { k with planes := k.planes + 1 }

/-- Read one plane of an outbound transfer into the bank. An uncorrectable error is recorded with CRS_ECC_ADDR.SOURCE = 0.
[log entry 150: DESIGN CHOICE] -/
def readSlotPlane (s : State) (c : Fin 64) (n : Fin 4) : State :=
  let k := chan s c n
  let pes := slotPes s c n
  let a := cpBase s c n + k.planes
  let v := (viewOf s).deliver a
  let old := if k.planes = 0 then List.replicate pes.length 0 else k.bank
  let bank := (pes.zip old).map (fun pv => if v.getLsbD pv.1 then pv.2 ||| BitVec.ofNat 40 (2 ^ k.planes) else pv.2)
  let s := ((viewOf s).found (courseRect c) [a]).foldl (fun s e => countPeError s e false) s
  setChan s c n { chan s c n with bank, planes := k.planes + 1 }

/-- An outbound word as it leaves (R42). -/
def outWord (k : CpCtl) (v : Word) : Word := if k.signx then BitVec.ofInt 40 (sx k.width v.toNat) else v

/-- Packets of at most 32 words. -/
def chunks : Nat → List Word → List (List Word)
  | 0, _ => []
  | _, [] => []
  | f + 1, ws => ws.take 32 :: chunks f (ws.drop 32)

/-- Runs of a window from element `idx`: element index and words. -/
def winChunks (s : State) (w : Fin 16) : Nat → Nat → List Word → List (Nat × List Word)
  | 0, _, _ => []
  | _, _, [] => []
  | f + 1, idx, ws =>
    let m := max 1 (winRun s w idx (min 32 ws.length))
    (idx, ws.take m) :: winChunks s w f ((idx + m) % winLen s w) (ws.drop m)

/-- The words of an outbound transfer leave; acknowledged writes are counted in `waiting`. -/
def sendWords (s : State) (c : Fin 64) (n : Fin 4) : State :=
  let k := cpCtl s c n
  let ws := (chan s c n).bank.map (outWord k)
  let d := cpDest s c n
  let parts := chunks 32 ws
  let ch := chan s c n
  let s := setChan s c n { ch with st := 1 }
  if k.source = 0 ∧ d.testBit 19 then
    parts.foldl (fun s ps => inject s ptCpPush
      { cpPacket s c n (ident (bitsOf d 15 12) (d % 256)) (BitVec.ofNat 3 (bitsOf d 18 16)) ps.length 0 (bitsOf d 21 20) ps with
        lanes := 0 }) s
  else
    let dst := if k.source = 0 then ident (bitsOf d 15 12) (d % 256) else ident 2 0
    let dev := if k.source = 0 then BitVec.ofNat 3 (bitsOf d 18 16) else ownDev s
    let w := cpWindow s c n
    let runs : List (Nat × List Word) :=
      if k.source = 2 then (winChunks s w 1024 (winTail s w % winLen s w) ws).map (fun r => (winElem s w r.1, r.2))
      else ((List.range parts.length).zip parts).map (fun r => (cpAddr s c n + 32 * r.1, r.2))
    let s := setChan s c n { chan s c n with waiting := runs.length }
    runs.foldl (fun s r => inject s ptWr (cpPacket s c n dst dev r.2.length r.1 1 r.2)) s

/-- One plane access of the plane phase, held while the course runs ahead (R46, R49). -/
def planePhase (s : State) (c : Fin 64) (n : Fin 4) : State :=
  let k := cpCtl s c n
  let ch := chan s c n
  if ch.st ≠ 2 ∨ courseSpeculative s c ∨ ch.planes ≥ k.width ∨ ch.bad.isSome then s
  else if k.outbound then
    let s := readSlotPlane s c n
    if (chan s c n).planes ≥ k.width then sendWords s c n else s
  else
    let s := writeSlotPlane s c n
    if (chan s c n).planes ≥ k.width ∧ k.source = 2 then sendAdvance s c n false ch.consumed else s

/-! ### Responses and completion (R46, R51) -/

/-- The first status other than OK is kept. -/
def noteBad (k : Chan) (st : Status) : Chan := if st = stOK ∨ k.bad.isSome then k else { k with bad := some st }

/-- A response reaches a channel. -/
def channelResponse (s : State) (c : Fin 64) (p : Packet) : State :=
  let n := Fin.ofNat 4 (p.tag.toNat % 4)
  let k := chan s c n
  let ctl := cpCtl s c n
  let st : Status := knownStatus (p.addr.setWidth 8)
  if k.gen ≠ p.tag.extractLsb' 2 6 ∨ k.st = 0 ∨ k.st = 3 then s
  else if k.adv = 1 then setChan s c n (noteBad { k with adv := 2 } st)
  else if ctl.outbound then
    let k := noteBad { k with waiting := k.waiting - 1 } st
    let s := setChan s c n k
    if k.waiting = 0 ∧ ctl.source = 2 ∧ k.bad = none then sendAdvance s c n true (cpCount s c n) else s
  else if st = stUndefRead then sendRead s c n
  else if st = stOK then
    let s := setChan s c n { k with asked := k.asked + k.waiting, waiting := 0 }
    afterWords (feedWords c n s p.data).1 c n
  else setChan s c n (noteBad { k with waiting := 0 } st)

/-- The transfer has done all its work, or a read of it has failed. -/
def transferDone (s : State) (c : Fin 64) (n : Fin 4) : Bool :=
  let k := chan s c n
  let ctl := cpCtl s c n
  let advanced : Bool := ctl.source != 2 || k.adv == 2
  if k.st = 0 ∨ k.st = 3 then false
  else if ctl.outbound then k.st == 1 && k.waiting == 0 && (advanced || k.bad.isSome)
  else k.bad.isSome ||
    (slotsLeft s c n == 0 && advanced && (if ctl.port then true else k.st == 2 && k.planes ≥ ctl.width))

/-- A transfer completes: its status is written and acknowledged; a PORT bank becomes READY (R46, R50, R51), unless the
transfer failed: one whose RING_ADVANCE fails drops its bank. [log entry 149: DESIGN CHOICE] -/
def completeTransfer (s : State) (c : Fin 64) (n : Fin 4) : State :=
  if !transferDone s c n then s
  else
    let k := chan s c n
    let ctl := cpCtl s c n
    let st := match k.bad with
      | some b => b
      | none => stOK
    let ready : Bool := !ctl.outbound && ctl.port && st == stOK
    let s := setChan s c n { k with st := if ready then 3 else 0, bank := if ready then k.bank else [], owner := none }
    ackWrite (setRegBits s (cpReg c n 0x10) 9 2 st.toNat) k.owner st

/-! ### The register file of a course (R52) -/

/-- Write the fields of a register that a write may set, and record ignored reserved bits (R5, R6). The third value
tells whether something was ignored. -/
def writeFields (fs : List RegField) (old v : Nat) (locked : Bool) : Nat × Bool :=
  fs.foldl (fun r f =>
    let m := fieldMask f
    let x := bitsOf v f.hi f.lo
    match f.acc with
    | .rw => (putBits r.1 f.hi f.lo x, r.2)
    | .w1c => (r.1 - (r.1 &&& v &&& m), r.2)
    | .w1s => (r.1 ||| (v &&& m), r.2)
    | .rwl =>
      if locked then (r.1, r.2 || x != bitsOf old f.hi f.lo) else (putBits r.1 f.hi f.lo x, r.2)
    | _ => r) (old, v &&& (2 ^ 32 - 1 - maskOf [.rw, .ro, .w1c, .w1s, .wo, .rwl] fs) != 0)

def setupLocked (s : State) : Bool := (reg s 0x1000).getLsbD 31

/-- A write of a register without behaviour of its own: new state, and whether it is to be recorded. -/
def plainWrite (s : State) (o : Nat) (v : Reg32) : State × Bool :=
  match regLayout o with
  | none => (s, true)
  | some fs =>
    let r := writeFields fs (reg s o).toNat v.toNat (setupLocked s)
    (setReg s o (BitVec.ofNat 32 r.1), r.2)

/-- A register-access write to a course's file; `req` is the request to acknowledge. -/
def courseRegWrite (s : State) (c : Fin 64) (o : Nat) (v : Reg32) (req : Option Packet) : State :=
  let inChan : Bool := (0x100 ≤ o ∧ o < 0x180) ∨ (0x180 ≤ o ∧ o < 0x190)
  let n := Fin.ofNat 4 (if o < 0x180 then (o - 0x100) / 0x20 else (o - 0x180) / 4)
  if inChan ∧ o < 0x180 ∧ o % 0x20 = 0 ∧ v.getLsbD 1 then abortChannel s c n v req
  else if inChan ∧ o < 0x180 ∧ o % 0x20 = 0 ∧ v.getLsbD 0 then startChannel s c n v req
  else if inChan ∧ (chan s c n).st ≠ 0 then ackWrite (regWarnAt s (logSource 0x01 c.val) o) req stOK
  else
    let r := plainWrite s (crsReg c o) v
    let s := if r.2 then regWarnAt r.1 (logSource 0x01 c.val) o else r.1
    ackWrite s req stOK

end Sys2Proof.Machine
end

