-- ==== Sys2Proof/Machine/Power.lean ====
section
/-! DEFINITION. Losing and clearing the contents of a domain: courses, bows and store quadrants (R22, R36, R254, R277,
R394, R395). -/

namespace Sys2Proof.Machine

/-! ### Courses -/

/-- The PEs of a course take their clear values (R23): every item of the logical array that is held, both micro-scratch
banks among them (R36), is 0. -/
def clearPes (pe : Cells 65536) (m : Plane) : Cells 65536 :=
  (pe.map (fun e => (e.1, e.2 &&& ~~~m))).filter (fun e => e.2 != 0)

/-- A course's PE memory, flags and error marks go; its channels and its register file return to their reset state.
[log entry 42: DESIGN CHOICE] -/
def loseCourse (s : State) (c : Fin 64) : State :=
  let k := course s c
  let s := setCourse s c { k with ready := false, eccQueue := [], fastLeft := 0, chans := k.chans.map (fun h => { Chan.reset with gen := h.gen }) }
  { s with pe := clearPes s.pe (courseMask c), peErr := s.peErr.filter (fun e => e.course != c),
           scrErr := s.scrErr.filter (fun e => e.course != c)
           regs := cclear (crsReg c 0) (crsReg c 0x3FF) s.regs }

/-- The undo log of a course (R36): a window of its group is left with nothing to restore there. -/
def dropUndo (s : State) (c : Fin 64) : State :=
  match (course s c).owner with
  | some b =>
    match (bow s b).window with
    | some win => setBow s b { bow s b with window := some { win with
        undo := win.undo.map (fun e => (e.1, e.2 &&& ~~~(courseMask c))) } }
    | none => s
  | none => s

/-- The hardware memory clear of a course (R36), after which it is ready. -/
def clearCourse (s : State) (c : Fin 64) : State :=
  let s := dropUndo s c
  let s := { s with pe := clearPes s.pe (courseMask c), peErr := s.peErr.filter (fun e => e.course != c)
                    scrErr := s.scrErr.filter (fun e => e.course != c) }
  setCourse s c { course s c with ready := true, eccQueue := [] }

/-! ### The Shared Store (R277) -/

/-- The store banks are written with zeros; the window unit, the collision and undefined-read counters and any lease are
reset. -/
def clearStore (s : State) : State :=
  { s with store := [], shadow := [], storeErr := [], lease := { block := 0, st := .none, retained := false }, scrubRow := 0, scrubLeft := 0,
           dresult := Vector.replicate 4 { rvalid := false, rdata := 0, status := 0, busy := false }
           pins := { s.pins with storeBusy := false }
           regs := cclear 0x30040 0x30083 (cclear 0x30100 0x302FF s.regs) }

end Sys2Proof.Machine
end

