-- ==== Sys2Proof/Machine/Flags.lean ====
section
/-! DEFINITION. The bow flags BF and the scalar integer results with their flags (R60, R61, R144, R146, R147, R160 to
R163). Values are the low w bits as natural numbers. -/

namespace Sys2Proof.Machine

abbrev Bf := BitVec 10

def bfZ : Nat := 0
def bfN : Nat := 1
def bfC : Nat := 2
def bfV : Nat := 3
def bfG : Nat := 4
def bfDZ : Nat := 5

/-- Write one flag. -/
def putBf (bf : Bf) (i : Nat) (v : Bool) : Bf :=
  if v then bf ||| BitVec.ofNat 10 (2 ^ i) else bf &&& ~~~(BitVec.ofNat 10 (2 ^ i))

/-- Raise a sticky flag. -/
def raiseBf (bf : Bf) (i : Nat) (v : Bool) : Bf := if v then putBf bf i true else bf

/-- Z and N of a w-bit result. -/
def putZN (bf : Bf) (w r : Nat) : Bf := putBf (putBf bf bfZ (r == 0)) bfN (r.testBit (w - 1))

/-- Z, N, C and V. -/
def putZNCV (bf : Bf) (w r : Nat) (c v : Bool) : Bf := putBf (putBf (putZN bf w r) bfC c) bfV v

/-- OR the exceptions of a scalar FP operation into the sticky bits: IV 6, DZ 5, OF 7, UF 8, IX 9. -/
def raiseFp (bf : Bf) (f : FFlags) : Bf :=
  bf ||| BitVec.ofNat 10 ((f.getLsbD 0).toNat * 64 + (f.getLsbD 1).toNat * 32 + (f.getLsbD 2).toNat * 128 +
    (f.getLsbD 3).toNat * 256 + (f.getLsbD 4).toNat * 512)

/-- Signed reading of w bits. -/
def toSigned (w v : Nat) : Int := if v.testBit (w - 1) then (v % 2 ^ w : Nat) - (2 ^ w : Nat) else (v % 2 ^ w : Nat)

/-- Low w bits of an integer. -/
def toLow (w : Nat) (v : Int) : Nat := (v % (2 ^ w : Nat)).toNat

/-- An exact value lies outside w signed bits. -/
def outside (w : Nat) (v : Int) : Bool := decide (v < -(2 ^ (w - 1) : Nat)) || decide (v > (2 ^ (w - 1) : Nat) - 1)

/-- A w-bit result extended to 40 bits by sign, or by zero. -/
def extendSign (w r : Nat) : BitVec 40 := BitVec.ofInt 40 (toSigned w r)
def extendZero (w r : Nat) : BitVec 40 := BitVec.ofNat 40 (r % 2 ^ w)

/-- a + b + cin: result, carry out of bit w − 1, and signed overflow. -/
def addCarry (w a b : Nat) (cin : Bool) : Nat × Bool × Bool :=
  let sum := a % 2 ^ w + b % 2 ^ w + cin.toNat
  (sum % 2 ^ w, sum.testBit w, outside w (toSigned w a + toSigned w b + (cin.toNat : Int)))

/-- a − b − (1 − cin), as a + NOT b + cin (R123). -/
def subCarry (w a b : Nat) (cin : Bool) : Nat × Bool × Bool :=
  let r := addCarry w a (2 ^ w - 1 - b % 2 ^ w) cin
  (r.1, r.2.1, outside w (toSigned w a - toSigned w b - (1 - (cin.toNat : Int))))

/-- SSHL: result and C (R162). -/
def shiftLeft (w v n : Nat) : Nat × Bool :=
  (if n ≥ w then 0 else v * 2 ^ n % 2 ^ w, decide (1 ≤ n ∧ n ≤ w) && v.testBit (w - n))

/-- SSHR. -/
def shiftRight (w v n : Nat) : Nat × Bool :=
  (if n ≥ w then 0 else v / 2 ^ n, decide (1 ≤ n ∧ n ≤ w) && v.testBit (n - 1))

/-- SSAR. -/
def shiftArith (w v n : Nat) : Nat × Bool :=
  (toLow w (toSigned w v / (2 ^ (min n (w - 1)) : Nat)),
   if n = 0 then false else if n ≤ w then v.testBit (n - 1) else v.testBit (w - 1))

/-- SROL. -/
def rotateLeft (w v n : Nat) : Nat :=
  let r := n % w
  (v * 2 ^ r + v / 2 ^ (w - r)) % 2 ^ w

/-- Quotient, remainder, V and DZ of a scalar division (R146, R163). -/
def scalarDivide (signed : Bool) (w a b : Nat) : Nat × Nat × Bool × Bool :=
  if b = 0 then (2 ^ w - 1, a, false, true)
  else if signed then
    if toSigned w a = -(2 ^ (w - 1) : Nat) ∧ toSigned w b = -1 then (a, 0, true, false)
    else (toLow w ((toSigned w a).tdiv (toSigned w b)), toLow w ((toSigned w a).tmod (toSigned w b)), false, false)
  else (a / b, a % b, false, false)

/-- What a scalar instruction leaves: its 40-bit result, if it has one, and BF. -/
structure ScalarOut where
  value : Option (BitVec 40)
  bf    : Bf
deriving DecidableEq, Repr

/-- Operands of a scalar computation: width, the two sources taken as their low w bits, the whole second source, the
destination's old value and BF. -/
structure ScalarIn where
  w    : Nat
  a    : Nat
  b    : Nat
  full : BitVec 40
  dst  : BitVec 40
  bf   : Bf
deriving DecidableEq, Repr

/-- Sums and differences. -/
def outAdd (i : ScalarIn) (cin : Bool) : ScalarOut :=
  let r := addCarry i.w i.a i.b cin
  { value := some (extendSign i.w r.1), bf := putZNCV i.bf i.w r.1 r.2.1 r.2.2 }
def outSub (i : ScalarIn) (a b : Nat) (cin : Bool) : ScalarOut :=
  let r := subCarry i.w a b cin
  { value := some (extendSign i.w r.1), bf := putZNCV i.bf i.w r.1 r.2.1 r.2.2 }

/-- A bitwise result, zero-extended, with Z and N. -/
def outLogic (i : ScalarIn) (r : Nat) : ScalarOut :=
  { value := some (extendZero i.w r), bf := putZN i.bf i.w (r % 2 ^ i.w) }

/-- A shift: Z, N and C. -/
def outShift (i : ScalarIn) (sign : Bool) (r : Nat × Bool) : ScalarOut :=
  { value := some (if sign then extendSign i.w r.1 else extendZero i.w r.1),
    bf := putBf (putZN i.bf i.w r.1) bfC r.2 }

/-- SMUL: low w bits, V where the product does not fit. -/
def outMul (i : ScalarIn) : ScalarOut :=
  let p := toSigned i.w i.a * toSigned i.w i.b
  let r := toLow i.w p
  { value := some (extendSign i.w r), bf := putBf (putZN i.bf i.w r) bfV (outside i.w p) }

/-- SMULH and SMULHU: bits [2w−1:w] of the exact product. -/
def outMulHigh (i : ScalarIn) (signed : Bool) : ScalarOut :=
  let r := if signed then toLow i.w (toSigned i.w i.a * toSigned i.w i.b / (2 ^ i.w : Nat)) else i.a * i.b / 2 ^ i.w
  { value := some (if signed then extendSign i.w r else extendZero i.w r), bf := putZN i.bf i.w r }

/-- SDIV, SDIVU, SREM, SREMU. -/
def outDiv (i : ScalarIn) (signed rem : Bool) : ScalarOut :=
  let q := scalarDivide signed i.w i.a i.b
  let r := if rem then q.2.1 else q.1
  let bf := putZN i.bf i.w r
  let bf := if signed then putBf bf bfV q.2.2.1 else bf
  { value := some (if signed then extendSign i.w r else extendZero i.w r), bf := raiseBf bf bfDZ q.2.2.2 }

/-- MACS (R147). -/
def outMacs (i : ScalarIn) : ScalarOut :=
  let v := toSigned i.w (i.dst.toNat % 2 ^ i.w) + toSigned i.w i.a * toSigned i.w i.b
  let r := toLow i.w v
  { value := some (extendSign i.w r), bf := putBf (putZN i.bf i.w r) bfV (outside i.w v) }

/-- A scalar FP40 result with its exceptions (R144). -/
def outFp (i : ScalarIn) (r : BitVec 40 × FFlags) : ScalarOut := { value := some r.1, bf := raiseFp i.bf r.2 }

/-- SFCMP (R148). -/
def outFcmp (i : ScalarIn) (c : FpCtl) : ScalarOut :=
  let a := BitVec.ofNat 40 i.a
  let b := BitVec.ofNat 40 i.b
  let eq := fpCompare 0 c a b
  let lt := fpCompare 1 c a b
  let un := fpCompare 3 c a b
  { value := none,
    bf := raiseFp (putBf (putBf (putBf (putBf i.bf bfZ eq.1) bfN lt.1) bfC un.1) bfV false) eq.2 }

end Sys2Proof.Machine
end

