-- ==== Sys2Proof/Machine/Scalar.lean ====
section
/-! DEFINITION. Meanings of the scalar instructions (R143 to R149). -/

namespace Sys2Proof.Machine

/-- Value of a scalar operand: an S register, an immediate sign-extended to 40 bits, or a data-memory word (R94, R98). -/
def scalarRead (s : State) (b : Fin 16) (c : Context) (o : BitVec 20) : Word :=
  if modeOf o = 5 then sValue c o
  else if modeOf o = 6 then (fieldOf o).signExtend 40
  else dmemRead s b (wordAddr c.a o).toNat

/-- Write a scalar destination: an S register or a data-memory word. -/
def scalarWrite (s : State) (b : Fin 16) (c : Ctx) (o : BitVec 20) (v : Word) : State :=
  let k := ctx s b c
  if modeOf o = 5 then
    setCtx s b c { k with s := k.s.set (o.extractLsb' 0 4).toNat v (o.extractLsb' 0 4).isLt }
  else dmemWrite s b (wordAddr k.a o).toNat v

/-- Inputs of a scalar instruction: `two` when it has a second source. -/
def scalarIn (two : Bool) (x : Issue) (s : State) : ScalarIn :=
  let c := ctx s x.bow x.ctx
  let w := widthOf x
  let a := scalarRead s x.bow c x.src1
  let b := if two then scalarRead s x.bow c x.src2 else 0
  { w, a := a.toNat % 2 ^ w, b := b.toNat % 2 ^ w, full := b,
    dst := if modeOf x.dst = 5 then sValue c x.dst else 0, bf := c.bf }

/-- Run a scalar computation: its result is extended by the entry and written, with BF. -/
def runScalar (op : Nat) (two : Bool) (f : ScalarIn → FpCtl → ScalarOut) (x : Issue) (s : State) : State :=
  issue op x (fun s =>
    let c := ctx s x.bow x.ctx
    let o := f (scalarIn two x s) (fpCtlOf c.fpctl)
    let t := match o.value with
      | some v => scalarWrite s x.bow x.ctx x.dst v
      | none => s
    let k := ctx t x.bow x.ctx
    setCtx t x.bow x.ctx { k with bf := o.bf }) s

/-- The shift amount: bits [5:0] of the whole second source (R162). -/
def amount (i : ScalarIn) : Nat := i.full.toNat % 64

/-- The operands as FP40 words. -/
def fa (i : ScalarIn) : Word := BitVec.ofNat 40 i.a
def fb (i : ScalarIn) : Word := BitVec.ofNat 40 i.b

/-- Write an A register. -/
def setA (c : Context) (n : BitVec 3) (v : AWord) : Context := { c with a := c.a.set n.toNat v n.isLt }

/-! ### Meanings -/

def execSadd (x : Issue) (s : State) : Host.Outcome State Fault Refusal :=
  .next (runScalar 0x80 true (fun i _ => outAdd i false) x s)
def execSadc (x : Issue) (s : State) : Host.Outcome State Fault Refusal :=
  .next (runScalar 0x81 true (fun i _ => outAdd i (i.bf.getLsbD bfC)) x s)
def execSsub (x : Issue) (s : State) : Host.Outcome State Fault Refusal :=
  .next (runScalar 0x82 true (fun i _ => outSub i i.a i.b true) x s)
def execSsbc (x : Issue) (s : State) : Host.Outcome State Fault Refusal :=
  .next (runScalar 0x83 true (fun i _ => outSub i i.a i.b (i.bf.getLsbD bfC)) x s)
def execSneg (x : Issue) (s : State) : Host.Outcome State Fault Refusal :=
  .next (runScalar 0x84 false (fun i _ => outSub i 0 i.a true) x s)
def execScmp (x : Issue) (s : State) : Host.Outcome State Fault Refusal :=
  .next (runScalar 0x85 true (fun i _ => { outSub i i.a i.b true with value := none }) x s)
def execSand (x : Issue) (s : State) : Host.Outcome State Fault Refusal :=
  .next (runScalar 0x86 true (fun i _ => outLogic i (i.a &&& i.b)) x s)
def execSor (x : Issue) (s : State) : Host.Outcome State Fault Refusal :=
  .next (runScalar 0x87 true (fun i _ => outLogic i (i.a ||| i.b)) x s)
def execSxor (x : Issue) (s : State) : Host.Outcome State Fault Refusal :=
  .next (runScalar 0x88 true (fun i _ => outLogic i (i.a ^^^ i.b)) x s)
def execSandn (x : Issue) (s : State) : Host.Outcome State Fault Refusal :=
  .next (runScalar 0x89 true (fun i _ => outLogic i (i.a &&& (2 ^ i.w - 1 - i.b))) x s)
def execSnot (x : Issue) (s : State) : Host.Outcome State Fault Refusal :=
  .next (runScalar 0x8A false (fun i _ => outLogic i (2 ^ i.w - 1 - i.a)) x s)
def execStst (x : Issue) (s : State) : Host.Outcome State Fault Refusal :=
  .next (runScalar 0x8B true (fun i _ => { outLogic i (i.a &&& i.b) with value := none }) x s)
def execSshl (x : Issue) (s : State) : Host.Outcome State Fault Refusal :=
  .next (runScalar 0x90 true (fun i _ => outShift i false (shiftLeft i.w i.a (amount i))) x s)
def execSshr (x : Issue) (s : State) : Host.Outcome State Fault Refusal :=
  .next (runScalar 0x91 true (fun i _ => outShift i false (shiftRight i.w i.a (amount i))) x s)
def execSsar (x : Issue) (s : State) : Host.Outcome State Fault Refusal :=
  .next (runScalar 0x92 true (fun i _ => outShift i true (shiftArith i.w i.a (amount i))) x s)
def execSrol (x : Issue) (s : State) : Host.Outcome State Fault Refusal :=
  .next (runScalar 0x93 true (fun i _ => outLogic i (rotateLeft i.w i.a (amount i))) x s)
def execSmul (x : Issue) (s : State) : Host.Outcome State Fault Refusal :=
  .next (runScalar 0x94 true (fun i _ => outMul i) x s)
def execSmulh (x : Issue) (s : State) : Host.Outcome State Fault Refusal :=
  .next (runScalar 0x95 true (fun i _ => outMulHigh i true) x s)
def execSmulhu (x : Issue) (s : State) : Host.Outcome State Fault Refusal :=
  .next (runScalar 0x96 true (fun i _ => outMulHigh i false) x s)
def execSdiv (x : Issue) (s : State) : Host.Outcome State Fault Refusal :=
  .next (runScalar 0x97 true (fun i _ => outDiv i true false) x s)
def execSdivu (x : Issue) (s : State) : Host.Outcome State Fault Refusal :=
  .next (runScalar 0x98 true (fun i _ => outDiv i false false) x s)
def execSrem (x : Issue) (s : State) : Host.Outcome State Fault Refusal :=
  .next (runScalar 0x99 true (fun i _ => outDiv i true true) x s)
def execSremu (x : Issue) (s : State) : Host.Outcome State Fault Refusal :=
  .next (runScalar 0x9A true (fun i _ => outDiv i false true) x s)
def execMacs (x : Issue) (s : State) : Host.Outcome State Fault Refusal :=
  .next (runScalar 0x9C true (fun i _ => outMacs i) x s)
def execSfadd (x : Issue) (s : State) : Host.Outcome State Fault Refusal :=
  .next (runScalar 0xA0 true (fun i c => outFp i (fpAdd c (fa i) (fb i))) x s)
def execSfsub (x : Issue) (s : State) : Host.Outcome State Fault Refusal :=
  .next (runScalar 0xA1 true (fun i c => outFp i (fpSub c (fa i) (fb i))) x s)
def execSfmul (x : Issue) (s : State) : Host.Outcome State Fault Refusal :=
  .next (runScalar 0xA2 true (fun i c => outFp i (fpMul c (fa i) (fb i))) x s)
def execSfdiv (x : Issue) (s : State) : Host.Outcome State Fault Refusal :=
  .next (runScalar 0xA3 true (fun i c => outFp i (fpDiv c (fa i) (fb i))) x s)
def execSfsqrt (x : Issue) (s : State) : Host.Outcome State Fault Refusal :=
  .next (runScalar 0xA4 false (fun i c => outFp i (fpSqrt c (fa i))) x s)
def execSfcmp (x : Issue) (s : State) : Host.Outcome State Fault Refusal :=
  .next (runScalar 0xA5 true (fun i c => outFcmp i c) x s)
def execSfmin (x : Issue) (s : State) : Host.Outcome State Fault Refusal :=
  .next (runScalar 0xA6 true (fun i c => outFp i (fpMinMax false c (fa i) (fb i))) x s)
def execSfmax (x : Issue) (s : State) : Host.Outcome State Fault Refusal :=
  .next (runScalar 0xA7 true (fun i c => outFp i (fpMinMax true c (fa i) (fb i))) x s)
def execMacsf (x : Issue) (s : State) : Host.Outcome State Fault Refusal :=
  .next (runScalar 0xA8 true (fun i c => outFp i (fpMac c i.dst (fa i) (fb i))) x s)
def execSfneg (x : Issue) (s : State) : Host.Outcome State Fault Refusal :=
  .next (runScalar 0xA9 false (fun i c => outFp i (fpSign false c (fa i))) x s)
def execSfabs (x : Issue) (s : State) : Host.Outcome State Fault Refusal :=
  .next (runScalar 0xAA false (fun i c => outFp i (fpSign true c (fa i))) x s)
/-- SFCVTI: the source is a whole FP40 word, w the width of the result (R179). -/
def execSfcvti (x : Issue) (s : State) : Host.Outcome State Fault Refusal :=
  .next (issue 0xAB x (fun s =>
    let c := ctx s x.bow x.ctx
    let w := widthOf x
    let r := fpToInt (fpCtlOf c.fpctl) (-(2 ^ (w - 1) : Nat)) ((2 ^ (w - 1) : Nat) - 1) (scalarRead s x.bow c x.src1)
    let t := scalarWrite s x.bow x.ctx x.dst (BitVec.ofInt 40 r.1)
    let k := ctx t x.bow x.ctx
    setCtx t x.bow x.ctx { k with bf := raiseFp c.bf r.2 }) s)
def execSicvtf (x : Issue) (s : State) : Host.Outcome State Fault Refusal :=
  .next (runScalar 0xAC false (fun i c => outFp i (intToFp c (toSigned i.w i.a))) x s)
def execSmov (x : Issue) (s : State) : Host.Outcome State Fault Refusal :=
  .next (runScalar 0xB0 false
    (fun i _ => { value := some (extendSign i.w i.a), bf := putZN i.bf i.w i.a }) x s)
def execSmovz (x : Issue) (s : State) : Host.Outcome State Fault Refusal :=
  .next (runScalar 0xB1 false
    (fun i _ => { value := some (extendZero i.w i.a), bf := putZN i.bf i.w i.a }) x s)
def execSins (x : Issue) (s : State) : Host.Outcome State Fault Refusal :=
  .next (issue 0xB2 x (fun s =>
    let c := ctx s x.bow x.ctx
    scalarWrite s x.bow x.ctx x.dst ((sValue c x.dst <<< 16) ||| (fieldOf x.src1).setWidth 40)) s)
def execPush (x : Issue) (s : State) : Host.Outcome State Fault Refusal :=
  .next (issue 0xB4 x (fun s =>
    let c := ctx s x.bow x.ctx
    let v := scalarRead s x.bow c x.src1
    let sp := c.a[7] - 1
    dmemWrite (setCtx s x.bow x.ctx (setA c 7 sp)) x.bow sp.toNat v) s)
def execPop (x : Issue) (s : State) : Host.Outcome State Fault Refusal :=
  .next (issue 0xB5 x (fun s =>
    let c := ctx s x.bow x.ctx
    let v := dmemRead s x.bow c.a[7].toNat
    -- the destination's address is formed at issue, from A7 before the increment
    let t := scalarWrite s x.bow x.ctx x.dst v
    setCtx t x.bow x.ctx (setA (ctx t x.bow x.ctx) 7 (c.a[7] + 1))) s)
def execAmov (x : Issue) (s : State) : Host.Outcome State Fault Refusal :=
  .next (issue 0xB8 x (fun s =>
    let c := ctx s x.bow x.ctx
    setCtx s x.bow x.ctx (setA c (x.dst.extractLsb' 0 3) (aValue c x.src1))) s)
def execAadd (x : Issue) (s : State) : Host.Outcome State Fault Refusal :=
  .next (issue 0xB9 x (fun s =>
    let c := ctx s x.bow x.ctx
    setCtx s x.bow x.ctx (setA c (x.dst.extractLsb' 0 3) (aValue c x.src1 + aValue c x.src2))) s)
def execAcmp (x : Issue) (s : State) : Host.Outcome State Fault Refusal :=
  .next (issue 0xBA x (fun s =>
    let c := ctx s x.bow x.ctx
    let r := subCarry 16 (aValue c x.src1).toNat (aValue c x.src2).toNat true
    setCtx s x.bow x.ctx { c with bf := putZNCV c.bf 16 r.1 r.2.1 r.2.2 }) s)
def execA2s (x : Issue) (s : State) : Host.Outcome State Fault Refusal :=
  .next (issue 0xBB x (fun s =>
    let c := ctx s x.bow x.ctx
    scalarWrite s x.bow x.ctx x.dst ((aValue c x.src1).setWidth 40)) s)
def execS2a (x : Issue) (s : State) : Host.Outcome State Fault Refusal :=
  .next (issue 0xBC x (fun s =>
    let c := ctx s x.bow x.ctx
    setCtx s x.bow x.ctx (setA c (x.dst.extractLsb' 0 3) ((sValue c x.src1).extractLsb' 0 16))) s)

end Sys2Proof.Machine
end

