-- ==== Sys2Proof/Machine/Control.lean ====
section
/-! DEFINITION. Meanings of the control-flow instructions (R150 to R153, R105 to R108, R215 to R218). -/

namespace Sys2Proof.Machine

/-- Continue at an address. -/
def jumpTo (s : State) (b : Fin 16) (c : Ctx) (t : Nat) : State :=
  let k := ctx s b c
  setCtx s b c { k with pc := BitVec.ofNat 13 t }

/-- Branch history after an outcome (R216). -/
def newHistory (h : BitVec 2) (hint taken : Bool) : BitVec 2 :=
  if taken = hint then (if h = 0 then 0 else h - 1) else (if h = 3 then 3 else h + 1)

/-- Update the history of the branch at `pc` (R216). -/
def updateHistory (s : State) (b : Fin 16) (c : Ctx) (pc : BitVec 13) (hint taken : Bool) : State :=
  let k := ctx s b c
  let slot := pc.toNat % 128
  setCtx s b c { k with history := cset zeroes k.history slot (newHistory (cget zeroes k.history slot) hint taken) }

/-- The scalar checkpoint of a context (R218). -/
def checkpoint (w : Bow) (c : Context) : Checkpoint :=
  { pc := c.pc, s := c.s, a := c.a, lk := c.lk, rc := c.rc, bf := c.bf, fpctl := c.fpctl, stackLo := c.stackLo,
    rep := c.rep, accum := w.accum }

/-- Predict a branch while G is outstanding and open the window (R215 to R218). -/
def openWindowAt (x : Issue) (s : State) : State :=
  let w := bow s x.bow
  let k := ctxOf w x.ctx
  let hint := x.hint = 1
  let h := cget zeroes k.history (k.pc.toNat % 128)
  let hintOnly := (reg s (bowReg x.bow 0x0C0)).getLsbD 7
  let predicted : Bool := if hintOnly then hint else (hint ^^ decide (2 ≤ h.toNat))
  let win : Window :=
    { ctx := x.ctx, ck := checkpoint w k, need := k.gOut.length, predicted, brPc := k.pc,
      target := BitVec.ofNat 13 (immNat x.src1), hint, onSet := x.cond = 0xE, undo := [], slots := 0, stopped := false,
      latent := none, sbuf := [] }
  let s := countUp (setBow s x.bow { w with window := some win }) (bowReg x.bow 0x0C4) 31 0 1
  if predicted then jumpTo s x.bow x.ctx (immNat x.src1) else advanceAt s x.bow x.ctx

/-- BR (R150, R215): a false condition has been skipped already, except that of a branch on G, which updates the history
whatever the outcome (R216). -/
def branch (x : Issue) (s : State) : State :=
  let k := ctx s x.bow x.ctx
  if isGBranch 0xC0 x then
    if k.gOut.isEmpty then
      let taken := condHolds x.cond k.bf
      let s := updateHistory s x.bow x.ctx k.pc (x.hint = 1) taken
      if taken then jumpTo s x.bow x.ctx (immNat x.src1) else advanceAt s x.bow x.ctx
    else openWindowAt x s
  else jumpTo s x.bow x.ctx (immNat x.src1)

/-- Save the return address, then continue at the target (R111). -/
def callTo (x : Issue) (t : Nat) (s : State) : State :=
  let k := ctx s x.bow x.ctx
  setCtx s x.bow x.ctx { k with lk := k.pc + 1, pc := BitVec.ofNat 13 t }

/-- REP: latch the count (R105). -/
def repeatNext (x : Issue) (s : State) : State :=
  let k := ctx s x.bow x.ctx
  let n : BitVec 16 := if modeOf x.src1 = 6 then fieldOf x.src1 else (sValue k x.src1).extractLsb' 0 16
  setCtx s x.bow x.ctx { k with rc := n, rep := some { pc := k.pc + 1, left := n, intr := x.dst.getLsbD 0 }, pc := k.pc + 1 }

/-- RETT (R70, R107, R152): `past` resumes at TRAPPC + 1, or at the next repetition. -/
def returnTrap (past : Bool) (k : Context) : Context :=
  let k := { k with th := false, pc := k.trapPc }
  if past then advance k else k

def execBr (x : Issue) (s : State) : Host.Outcome State Fault Refusal := .next (issueRaw 0xC0 x none (branch x) s)
def execBrr (x : Issue) (s : State) : Host.Outcome State Fault Refusal :=
  .next (issueRaw 0xC1 x none (fun s => jumpTo s x.bow x.ctx (sValue (ctx s x.bow x.ctx) x.src1).toNat) s)
def execCall (x : Issue) (s : State) : Host.Outcome State Fault Refusal :=
  .next (issueRaw 0xC2 x none (callTo x (immNat x.src1)) s)
def execCallr (x : Issue) (s : State) : Host.Outcome State Fault Refusal :=
  .next (issueRaw 0xC3 x none (fun s => callTo x (sValue (ctx s x.bow x.ctx) x.src1).toNat s) s)
def execRet (x : Issue) (s : State) : Host.Outcome State Fault Refusal :=
  .next (issueRaw 0xC4 x none (fun s => jumpTo s x.bow x.ctx (ctx s x.bow x.ctx).lk.toNat) s)
def execLoop (x : Issue) (s : State) : Host.Outcome State Fault Refusal :=
  .next (issueRaw 0xC5 x none (fun s =>
    let k := ctx s x.bow x.ctx
    let v := aValue k x.dst - 1
    let s := setCtx s x.bow x.ctx (setA k (x.dst.extractLsb' 0 3) v)
    if v = 0 then advanceAt s x.bow x.ctx else jumpTo s x.bow x.ctx (immNat x.src1)) s)
def execNop (x : Issue) (s : State) : Host.Outcome State Fault Refusal := .next (issue 0xC6 x (fun s => s) s)
def execRep (x : Issue) (following : IWord) (s : State) : Host.Outcome State Fault Refusal :=
  .next (issueRaw 0xC8 x (some following) (repeatNext x) s)
/-- YIELD: every pending delivery is written, and a waiting urgent launch is taken before the next instruction (R153). -/
def yieldTo (x : Issue) (s : State) : State :=
  let s := advanceAt (flushDeliveries s x.bow x.ctx) x.bow x.ctx
  match x.ctx with
  | .n => preempt x.bow 0 s
  | .u => s

def execYield (x : Issue) (s : State) : Host.Outcome State Fault Refusal := .next (issueRaw 0xCC x none (yieldTo x) s)
def execTrap (x : Issue) (s : State) : Host.Outcome State Fault Refusal :=
  .next (issueRaw 0xCE x none (fun s => takeTrap s x.bow x.ctx (encodeWord 0xCE x) causeSoftware) s)
def execRett (x : Issue) (s : State) : Host.Outcome State Fault Refusal :=
  .next (issueRaw 0xCF x none (fun s =>
    let k := ctx s x.bow x.ctx
    setCtx s x.bow x.ctx (returnTrap (immNat x.src1 = 1) k)) s)

end Sys2Proof.Machine
end

