-- ==== Sys2Proof/Machine/Window.lean ====
section
/-! DEFINITION. The delivery of G and the closing of a speculative window (R104, R216, R223, R224, R226, R227). -/

namespace Sys2Proof.Machine

/-- The planes that a replay rewrites are dirty for a migration of a course of the group (R226). -/
def replayDirty (s : State) (r : Rect) (undo : List (Nat × Plane)) : State :=
  match s.migration with
  | some m =>
    let planes := ((undo.map (fun e => e.1)).filter (fun a => a < 16384)).eraseDups
    if inRect r m.logical then
      { s with migration := some { m with dirty := planes.filter (fun a => !m.dirty.contains a) ++ m.dirty } }
    else s
  | none => s

/-- Undo a window's writes, newest first, in the PEs of the bow's group (R224): SECDED is recomputed. -/
def replayUndo (s : State) (b : Fin 16) (undo : List (Nat × Plane)) : State :=
  match (bow s b).group with
  | some r =>
    replayDirty (undo.foldl (fun s e =>
      let t := reencode s r e.1
      { t with pe := cset zeroes t.pe e.1 (blend (groupMask r) (cget zeroes t.pe e.1) e.2) }) s) r undo
  | none => s

/-- The checkpoint comes back; captures and deliveries issued in the window are discarded, and the issue slots that the
window used no longer count for the others. [log entry 173: DESIGN CHOICE] -/
def restoreCheckpoint (k : Context) (win : Window) : Context :=
  { k with
    run := .running, pc := win.ck.pc, s := win.ck.s, a := win.ck.a, lk := win.ck.lk, rc := win.ck.rc, bf := win.ck.bf
    fpctl := win.ck.fpctl, stackLo := win.ck.stackLo, rep := win.ck.rep, wait := none, gOut := []
    deliveries := (k.deliveries.filter (fun d => !d.spec)).map (fun d => { d with left := d.left + win.slots }) }

/-- The window is undone as if nothing had issued after the branch. -/
def rollback (s : State) (b : Fin 16) (win : Window) : State :=
  let s := replayUndo s b win.undo
  let w := bow s b
  setBow s b { putCtx w win.ctx (restoreCheckpoint (ctxOf w win.ctx) win) with window := none, accum := win.ck.accum }

/-- A window closes wrongly with outcome g (R224): `extra` log entries belong to the routine in progress. -/
def closeWrong (s : State) (b : Fin 16) (win : Window) (taken g : Bool) (extra : Nat) : State :=
  let lp := win.undo.length + extra
  let s := rollback s b win
  let k := ctx s b win.ctx
  let s := setCtx s b win.ctx { k with bf := putBf k.bf bfG g, pc := if taken then win.target else win.brPc + 1 }
  let s := countUp (countUp s (bowReg b 0x0C8) 31 0 1) (bowReg b 0x0CC) 31 0 lp
  raiseTo s (bowReg b 0x0DC) 10 0 lp

/-- A window closes rightly (R223): its stores reach the data memory, and a trap that a run-ahead instruction met is
taken (R226). -/
def closeRight (s : State) (b : Fin 16) (win : Window) : State :=
  let w := bow s b
  let dmem := win.sbuf.foldr (fun e m => cset zeroes m e.1.toNat e.2) w.dmem
  let bad := w.dmemErr.filter (fun a => !win.sbuf.any (fun e => e.1 == a.addr))
  let k := ctxOf w win.ctx
  let k := { k with run := if k.run = .stalled then .running else k.run
                    deliveries := k.deliveries.map (fun d => { d with spec := false }) }
  let s := setBow s b { putCtx w win.ctx k with window := none, dmem, dmemErr := bad }
  match win.latent with
  | some (word, cause, m) =>
    let s := match m with
      | some f => recordMicro s b win.ctx f
      | none => s
    takeTrap s b win.ctx word cause
  | none => s

/-- The oldest capture of a context reaches BF.G; the one that a window waits for closes it. -/
def deliverG (b : Fin 16) (c : Ctx) (extra waited : Nat) (s : State) : State :=
  let k := ctx s b c
  match k.gOut with
  | [] => s
  | g :: rest =>
    let s := countUp (setCtx s b c { k with bf := putBf k.bf bfG g, gOut := rest }) (bowReg b 0x0D4) 31 0 waited
    match (bow s b).window with
    | none => s
    | some win =>
      if win.ctx ≠ c then s
      else if win.need > 1 then
        setBow s b { bow s b with window := some { win with need := win.need - 1, ck := { win.ck with bf := putBf win.ck.bf bfG g } } }
      else
        let taken : Bool := g == win.onSet
        let s := updateHistory s b c win.brPc win.hint taken
        let s := if taken = win.predicted then closeRight s b win else closeWrong s b win taken g extra
        atEdge s b c

/-- A delivery whose slot has come is written at the start of the instruction (R109). -/
def deliverX (b : Fin 16) (c : Ctx) (s : State) : State := deliverDue s b c

end Sys2Proof.Machine
end

