-- ==== Sys2Proof/Machine/Kernels.lean ====
section
/-! DEFINITION. Capo groups and kernels: choosing rectangles, forming groups, pinning images, queues, urgent launches,
arming, aborting and stealing (R62 to R67, R72 to R88). -/

namespace Sys2Proof.Machine

/-! ### Courses of a group (R76, R77, R79, R80) -/

/-- A course that a group of bow b may take; LEASED ones only where `leased` allows them. -/
def courseOpen (s : State) (b : Fin 16) (leased : Bool) (c : Fin 64) : Bool :=
  let k := course s c
  (k.owner.isNone || k.owner == some b) && (k.reserved.isNone || k.reserved == some b) && (leased || !k.leased)

/-- Rectangles of a size, in row-major order of origin. [log entry 44: DESIGN CHOICE] -/
def rectsOf (w h : Nat) : List Rect :=
  (List.range (9 - h)).flatMap (fun y => (List.range (9 - w)).map (fun x =>
    { x0 := BitVec.ofNat 3 x, y0 := BitVec.ofNat 3 y, w, h }))

/-- Courses of a rectangle that bow b holds. -/
def ownCount (s : State) (b : Fin 16) (r : Rect) : Nat := ((rectCourses r).filter (fun c => (course s c).owner == some b)).length

/-- The rectangle for a shape (R80): the open one with the most of the bow's courses, else the first open one.
[log entry 44: DESIGN CHOICE] -/
def chooseRect (s : State) (b : Fin 16) (w h : Nat) (leased : Bool) : Option Rect :=
  let ok := (rectsOf w h).filter (fun r => (rectCourses r).all (courseOpen s b leased))
  ok.foldl (fun best r => match best with
    | none => some r
    | some q => if ownCount s b r > ownCount s b q then some r else best) none

/-- Modes in which course and bow domains are powered as needed (R396). [log entry 126: DEDUCED] -/
def bowsMayRun (s : State) : Bool := match s.mode with
  | .hold | .idle | .run | .service | .halt => true
  | _ => s.bootPass.isSome

/-- A course's domain is powered and cleared, and its NI opens. [log entry 42: DESIGN CHOICE] -/
def powerCourse (s : State) (c : Fin 64) : State :=
  if (course s c).ready || !bowsMayRun s then s
  else setNiState (markDomain (clearCourse s c) (s.lmap[c]).val true) (coursePort s c) 0

/-- A lease of a course ends: the test controller yields it (R88, R410). -/
def endLease (s : State) (c : Fin 64) : State :=
  let s := setCourse s c { course s c with leased := false }
  let s := { s with pcourse := s.pcourse.set (s.lmap[c]) .active }
  settleMode (setRegBits s 0x70000 6 6 0)

/-- A course joins a group: a leased one is recalled and cleared, one that is off is powered and cleared. -/
def attachCourse (b : Fin 16) (s : State) (c : Fin 64) : State :=
  let s := if (course s c).leased then endLease { s with courses := s.courses.set c { s.courses[c] with ready := false } } c else s
  let s := powerCourse s c
  setCourse s c { course s c with owner := some b, reserved := none }

/-- Courses of a bow outside a rectangle leave its group. -/
def leaveGroup (s : State) (b : Fin 16) (r : Rect) : State :=
  { s with courses := Vector.ofFn (fun c =>
      let k := s.courses[c]
      if k.owner = some b ∧ !inRect r c then { k with owner := none } else k) }

/-- Bow b takes a rectangle as its group. -/
def formGroup (s : State) (b : Fin 16) (r : Rect) : State :=
  let s := forCourses (leaveGroup s b r) (rectCourses r) (attachCourse b)
  let w := bow s b
  setBow s b { w with group := some r, clock := if w.group.isSome then w.clock else w.clockSet,
                      clockNext := if w.group.isSome then w.clockNext else none }

/-- A course of a rectangle is leased. -/
def anyLeased (s : State) (r : Rect) : Bool := (rectCourses r).any (fun c => (course s c).leased)

/-- The bow's group has a shape. -/
def shapeIs (s : State) (b : Fin 16) (w h : Nat) : Bool := match (bow s b).group with
  | some r => r.w == w && r.h == h
  | none => false

/-- A migration of one of the bow's courses holds a reshape back (R409). [log entry 45: DEDUCED] -/
def reshapeHeld (s : State) (b : Fin 16) : Bool := match s.migration with
  | some m => (course s m.logical).owner == some b
  | none => false

/-- A kernel's shape can be formed by a bow now. [log entry 45: DEDUCED] -/
def canForm (s : State) (b : Fin 16) (d : Desc) : Bool :=
  shapeIs s b (kWidth d) (kHeight d) ||
  (!(bow s b).held && !reshapeHeld s b && (chooseRect s b (kWidth d) (kHeight d) false).isSome)

/-- Form the group for a kernel. -/
def reshapeFor (s : State) (b : Fin 16) (d : Desc) : State :=
  if shapeIs s b (kWidth d) (kHeight d) then s
  else match chooseRect s b (kWidth d) (kHeight d) false with
    | some r => formGroup s b r
    | none => s

/-! ### The instruction store (R63 to R67) -/

/-- The first of the sixteen words of a line. -/
def lineFirst (base : BitVec 21) (num : Nat) : Nat := base.toNat + 16 * num - 64

/-- A line as the response to its request gives it: OK and UNDEF_READ carry words, any other status marks the line invalid
(R65). [log entry 10: DEDUCED] -/
def lineOf (base : BitVec 21) (num : Nat) (pinned : Bool) (st : Status) (ws : List Word) : Line :=
  let word := fun (i : Nat) => ((ws[2 * i + 1]?).getD 0 ++ (ws[2 * i]?).getD 0 : BitVec 80)
  let ok : Bool := st == stOK || st == stUndefRead
  { base, num := BitVec.ofNat 10 num, ok, pinned, code := if ok then (List.range 8).map word else [] }

/-- A line of an image is read as one request of 16 words, which answers with a status: BAD_ADDRESS where it reaches the
secure partition (R62), DOMAIN_OFF where the store does not serve. [log entry 10: DEDUCED] -/
def readLine (s : State) (base : BitVec 21) (num : Nat) (pinned : Bool) (meets : List (Nat × Meet)) : State × Line :=
  let first := lineFirst base num
  if first + 15 ≥ secureBase then (s, lineOf base num pinned stBadAddress [])
  else if !storeServes s then (s, lineOf base num pinned stDomainOff [])
  else
    let r := readRun false first meets 16 s
    (r.1, lineOf base num pinned r.2.2 r.2.1)

/-- The request of a line (R64): a read of 16 words. -/
def linePacket (s : State) (b : Fin 16) (base : BitVec 21) (num : Nat) (tag : BitVec 8) : Packet :=
  { ddev := ownDev s, dst := ident 2 0, sdev := ownDev s, src := ident 1 b.val, tag, words := 16,
    addr := BitVec.ofNat 21 (lineFirst base num), lanes := 0b11111, arg := 0, data := [], flits := 0, host := 0 }

/-- Ways of a set that lines of images may take: the trap table holds one way of sets 0 to 3. -/
def waysOf (set : Nat) : Nat := if set < 4 then 7 else 8

def setOf (l : Line) : Nat := l.num.toNat % 128

/-- Remove the least recently used unpinned line of a set. -/
def evict (set : Nat) (ls : List Line) : List Line :=
  (ls.reverse.eraseP (fun l => setOf l == set && !l.pinned)).reverse

/-- Put a line into the store, as the most recently used of its set. -/
def putLine (ls : List Line) (l : Line) : List Line :=
  let rest := ls.filter (fun x => !(x.base == l.base && x.num == l.num))
  let rest := if (rest.filter (fun x => setOf x == setOf l)).length ≥ waysOf (setOf l) then evict (setOf l) rest else rest
  l :: rest

/-- Lines of an image of n lines, from line 4, that lie in a set. -/
def linesInSet (n set : Nat) : Nat := ((List.range n).filter (fun i => (i + 4) % 128 == set)).length

/-- Lines that pinning an image loads: at most up to the end of the address space. [log entry 23: DESIGN CHOICE] -/
def imageLines (base : BitVec 21) : Nat := min (Config.imageLines base) 1020

/-- Pinning an image besides those pinned would leave a set with all eight ways pinned (R67).
[log entry 23: DESIGN CHOICE] -/
def pinBad (w : Bow) (base : BitVec 21) : Bool :=
  let images := (base :: w.pins).eraseDups
  (List.range 128).any (fun k => images.foldl (fun n i => n + linesInSet (imageLines i) k) 0 ≥ waysOf k)

/-- Every line of a pinned image is read into a bow; what the D ports do meanwhile is a free value (R67, R268). -/
def loadImage (b : Fin 16) (s : State) (base : BitVec 21) : State :=
  let f := takeFree s
  let r := (List.range (imageLines base)).foldl (fun a i =>
    let l := readLine a.1 base (i + 4) true (Config.engineMeets f.1)
    (tallyPair l.1 ptRd (linePacket a.1 b base (i + 4) 0) 16, putLine a.2 l.2)) (f.2, (bow s b).lines)
  setBow r.1 b { bow r.1 b with lines := r.2 }

/-- Pin a kernel's image in a bow: none where the pin is refused, PIN_REFUSED being set. An image that is pinned already
is loaded no second time; a bow that is off loads it when it powers up. -/
def pinImage (s : State) (b : Fin 16) (d : Desc) : State × Bool :=
  let w := bow s b
  let base := kImage d
  if w.pins.contains base then (setBow s b { w with pins := base :: w.pins }, true)
  else if pinBad w base then (setRegBits s (bowReg b 0x010) 10 10 1, false)
  else
    let s := setBow s b { w with pins := base :: w.pins }
    (if w.powered then loadImage b s base else s, true)

/-- Lines of an image are pinned in some bow (R66). -/
def imagePinned (s : State) (base : BitVec 21) : Bool := s.bows.toList.any (fun w => w.pins.contains base)

/-- RELOAD invalidates every unpinned line of an image in every bow. -/
def dropImage (s : State) (base : BitVec 21) : State :=
  { s with bows := s.bows.map (fun w => { w with lines := w.lines.filter (fun l => l.pinned || l.base != base) }) }

/-! ### Queues (R85) -/

def queueLimit (s : State) (b : Fin 16) : Nat := regBits s (bowReg b 0x008) 14 8
def queueFull (s : State) (b : Fin 16) : Bool := (bow s b).queue.length ≥ queueLimit s b

def newJob (d : Desc) (late : Bool) : Job := { desc := d, testYield := false, patchWait := false, late, added := 0, abortLate := false, pin := none }

/-- A deadline kernel stands before those with later deadlines and before those with none. -/
def insertJob (j : Job) : List Job → List Job
  | [] => [j]
  | x :: xs =>
    if kHasDeadline j.desc && (!kHasDeadline x.desc || kDeadline j.desc < kDeadline x.desc) then j :: x :: xs
    else x :: insertJob j xs

/-- Pin a job's image in a bow where it is to be pinned and is not yet (R67): a pin of arming in another bow ends. The
second value says that the pin is refused. [log entry 146: DESIGN CHOICE] -/
def pinJob (s : State) (b : Fin 16) (j : Job) : State × Job × Bool :=
  if !kernelPins j.desc || j.pin == some b then (s, j, false)
  else
    let s := unpinImage s j
    let r := pinImage s b j.desc
    if r.2 then (r.1, { j with pin := some b }, false) else (r.1, { j with pin := none }, true)

/-- Put a kernel into a bow's queue, its image pinned where it is to be; a refused pin completes it. -/
def enqueue (s : State) (b : Fin 16) (j : Job) : State :=
  let r := pinJob s b j
  if r.2.2 then completeJob r.1 r.2.1 stNoResource 0 0
  else setBow r.1 b { bow r.1 b with queue := insertJob r.2.1 (bow r.1 b).queue }

/-- A bow that dispatch may give a FLOATING kernel, its queue apart. -/
def acceptsFloating (s : State) (b : Fin 16) : Bool :=
  let w := bow s b
  w.powered && (reg s (bowReg b 0x008)).getLsbD 1 && !(w.held && w.group.isSome) && w.armed.isNone

/-- Courses that are neither in held groups nor RESERVED. -/
def openCourses (s : State) : Nat :=
  (s.courses.toList.filter (fun k => k.reserved.isNone && (match k.owner with
    | some b => !(bow s b).held
    | none => true))).length

/-- The shortest queue among the bows that may take a FLOATING kernel. -/
def floatingBow (s : State) : Option (Fin 16) :=
  ((List.finRange 16).filter (fun b => acceptsFloating s b && !queueFull s b)).foldl (fun best b => match best with
    | none => some b
    | some q => if (bow s b).queue.length < (bow s q).queue.length then some b else best) none

/-- The kernel ends without a place. -/
def refuseJob (s : State) (j : Job) (st : Status) : State := completeJob s j st 0 0

/-- SHAPE and ORIGIN of a PINNED kernel are those of its bow's held group; an URGENT one of 0 × 0 takes the group (R82). -/
def groupMismatch (s : State) (d : Desc) : Bool :=
  if !kPinned d || (kUrgent d && kWidth d == 0) then false
  else
    let w := bow s (kBow d)
    !(w.held && (match w.group with
      | some r => r.x0.toNat == dle d 0x11 1 % 8 && r.y0.toNat == dle d 0x11 1 / 8 && r.w == kWidth d && r.h == kHeight d
      | none => false))

/-- A kernel enters a queue (R85); one whose group has gone since its arming is refused as it would be on acceptance now
(R87). -/
def placeKernel (s : State) (j : Job) : State :=
  let d := j.desc
  if kPinned d then
    let b := kBow d
    if groupMismatch s d then refuseJob s j stBadDescriptor
    else if queueFull s b || (bow s b).armed.isSome then refuseJob s j stNoResource else enqueue s b j
  else
    match floatingBow s with
    | some b => if kWidth d * kHeight d > openCourses s then refuseJob s j stNoResource else enqueue s b j
    | none => refuseJob s j stNoResource

/-- The bow in which a phase-triggered kernel's image is pinned at arming (R67): its own, or for a FLOATING kernel the one
that dispatch would choose then. [log entry 146: DESIGN CHOICE] -/
def armBow (s : State) (d : Desc) : Option (Fin 16) :=
  if kUrgent d || kPinned d then some (kBow d) else floatingBow s

/-! ### Urgent launches (R72, R73, R87, R88) -/

/-- The kernel takes its bow's group as it is: shape 0 × 0, or that of the group. -/
def takesGroup (s : State) (d : Desc) : Bool := (kWidth d == 0 && kHeight d == 0) || shapeIs s (kBow d) (kWidth d) (kHeight d)

/-- Courses reserved for a bow are reserved no longer. -/
def unreserve (s : State) (b : Fin 16) : State :=
  { s with courses := s.courses.map (fun k => if k.reserved = some b then { k with reserved := none } else k) }

/-- The reservation of an armed expansion is given up. -/
def giveUpExpansion (s : State) (d : Desc) : State :=
  if kUrgent d && !takesGroup s d then
    let s := unreserve s (kBow d)
    setBow s (kBow d) { bow s (kBow d) with armed := none }
  else s

/-- Reserve a rectangle for an expansion (R87): none where that is refused. [log entries 46: DEDUCED; 47: DEDUCED] -/
def reserveExpansion (s : State) (d : Desc) : Option State :=
  let b := kBow d
  let w := bow s b
  if w.n.job.isSome || w.u.job.isSome || !w.queue.isEmpty || w.held || w.armed.isSome then none
  else
    match chooseRect s b (kWidth d) (kHeight d) true with
    | none => none
    | some r =>
      let s := forCourses s (rectCourses r) (fun s c =>
        let s := if (course s c).leased then s else powerCourse s c
        setCourse s c { course s c with reserved := some b })
      some (setBow s b { bow s b with armed := some (r, d) })

/-- The reserved courses are attached when the kernel fires: a recall sets TEST_YIELD and adds its time. Where another
urgent kernel runs in U at that moment, the group is reshaped under it at once. [log entry 164: DESIGN CHOICE] -/
def attachExpansion (s : State) (j : Job) : State × Job :=
  let b := kBow j.desc
  match (bow s b).armed with
  | some (r, _) =>
    if takesGroup s j.desc then (s, j)
    else
      let recalled := anyLeased s r
      let f := if recalled then takeFree s else (0, s)
      let j := if recalled then { j with testYield := true, added := BitVec.ofNat 32 (min (Config.addedNs f.1).toNat 16000) } else j
      (formGroup f.2 b r, j)
  | none => (s, j)

/-- A launch that finds U and N free enters U at once; any other waits. -/
def enterOrWait (s : State) (b : Fin 16) (j : Job) : State :=
  let s := setBow s b { bow s b with launches := (bow s b).launches ++ [j] }
  let w := bow s b
  if w.powered && w.n.job.isNone && w.u.job.isNone && !haltedBow s b then settleMode (nextLaunch s b) else s

/-- A launch request reaches its bow: past its DEADLINE it ends with TIMEOUT (R83). A ninth waiting launch is refused, and
one that finds the bow held by a patch swap waits with PATCH_WAIT set (R213). -/
def requestLaunch (s : State) (j : Job) : State :=
  let b := kBow j.desc
  let j := if swapHeld (bow s b) then { j with patchWait := true } else j
  if expired s j.desc then refuseJob (giveUpExpansion s j.desc) j stTimeout
  else if s.brown.hold then { s with brown := { s.brown with held := s.brown.held ++ [j] } }
  else if (bow s b).launches.length ≥ 8 then
    let s := logEvent s (logSource 0x02 b.val) 0x0013 stNoResource
      (BitVec.ofNat 24 (b.val + (descTag j.desc).toNat % 2 ^ 16 * 2 ^ 8))
    refuseJob (giveUpExpansion s j.desc) j stNoResource
  else
    let r := attachExpansion s j
    enterOrWait r.1 b r.2

/-- An URGENT kernel without a trigger: its courses are found and attached as at arming and firing in one, and its image is
pinned at its launch request where it is to be pinned, since it enters no queue.
[log entries 22: DESIGN CHOICE; 46: DEDUCED; 146: DESIGN CHOICE] -/
def launchUrgent (s : State) (j : Job) : State :=
  let r := pinJob s (kBow j.desc) j
  if r.2.2 then refuseJob r.1 r.2.1 stNoResource
  else if takesGroup s j.desc then requestLaunch r.1 r.2.1
  else
    match reserveExpansion r.1 j.desc with
    | some s => requestLaunch s r.2.1
    | none => refuseJob r.1 r.2.1 stNoResource

/-! ### Starting (R72, R82, R85) -/

/-- The job of a scheduler entry's kernel. -/
def entryJob (e : SchedEntry) : Job := { newJob e.desc e.late with pin := e.pin }

/-- Armed kernels that satisfy a predicate are removed with their entries and complete (R83, R84). -/
def removeArmed (s : State) (p : Desc → Bool) (st : Status) : State :=
  let gone := s.sched.filter (fun e => e.kernel && p e.desc)
  let s := { s with sched := s.sched.filter (fun e => !(e.kernel && p e.desc)) }
  gone.foldl (fun s e => refuseJob (giveUpExpansion s e.desc) (entryJob e) st) s

/-- The kernels of a bow that wait and whose deadline has come complete with TIMEOUT (R83): queued, waiting for U, held by
a brownout or armed. -/
def expireBow (s : State) (b : Fin 16) : State :=
  let w := bow s b
  let q := w.queue.filter (fun j => expired s j.desc)
  let s := setBow s b { w with queue := w.queue.filter (fun j => !expired s j.desc) }
  let s := disarm (expireLaunches (completeJobs s q stTimeout) b) b
  let late := fun (j : Job) => kBow j.desc == b && expired s j.desc
  let held := s.brown.held.filter late
  let s := { s with brown := { s.brown with held := s.brown.held.filter (fun j => !(kBow j.desc == b && expired s j.desc)) } }
  let s := held.foldl (fun s j => refuseJob (giveUpExpansion s j.desc) j stTimeout) s
  removeArmed s (fun d => kBow d == b && expired s d) stTimeout

/-- The head of a bow's queue starts (R85). -/
def startHead (b : Fin 16) (s : State) : State :=
  let s := expireBow s b
  let w := bow s b
  match w.queue with
  | [] => s
  | j :: rest =>
    if !w.powered || w.n.job.isSome || w.u.job.isSome || !w.launches.isEmpty || haltedBow s b || !canForm s b j.desc then s
    else if swapHeld w then setBow s b { w with queue := { j with patchWait := true } :: rest }
    else if s.brown.hold then setBow s b { w with queue := { j with late := true } :: rest }
    else
      let s := reshapeFor (setBow s b { w with queue := rest }) b j.desc
      let w := bow s b
      settleMode (setBow s b { w with n := enterKernel w.n j })

/-! ### Ending all work (R383, R388, R402) -/

/-- The kernel of a context ends at once, an open window being undone first. -/
def stopContext (s : State) (b : Fin 16) (c : Ctx) (st : Status) : State :=
  let s := match (bow s b).window with
    | some win => if win.ctx = c then rollback s b win else s
    | none => s
  let s := flushDeliveries s b c
  let k := ctx s b c
  let s := match k.job with
    | some j => completeJob s j st 0 k.bf
    | none => s
  let w := bow s b
  setBow s b (putCtx w c (vacate (ctxOf w c)))

/-- Every kernel of a bow, running, queued or waiting, completes with a status. -/
def stopBow (s : State) (b : Fin 16) (st : Status) : State :=
  let w := bow s b
  let s := setBow s b { w with queue := [], launches := [], ended := [], armed := none }
  let s := completeJobs (completeJobs s w.queue st) w.launches st
  let s := w.ended.foldl completeEnding s
  unreserve (stopContext (stopContext s b .u st) b .n st) b

/-- Every running, queued and armed kernel completes with a status. -/
def stopKernels (s : State) (st : Status) : State :=
  let s := (List.finRange 16).foldl (fun s b => stopBow s b st) s
  let held := s.brown.held
  let s := { s with brown := { s.brown with held := [] } }
  let s := held.foldl (fun s j => refuseJob s j st) s
  removeArmed s (fun _ => true) st

end Sys2Proof.Machine
end

