-- ==== Sys2Proof/Machine/Bows.lean ====
section
/-! DEFINITION. Meanings of the bow events: deliveries, line fills, preemption, launches, starts, deadlines, stealing,
the power of a bow domain and clock steps (R64, R65, R72, R76, R78, R83, R85, R86, R104, R109, R208, R217). -/

namespace Sys2Proof.Machine

/-! ### The power of a bow domain (R76, R208, R217) -/

def stealEnabled (s : State) (b : Fin 16) : Bool := (reg s (bowReg b 0x008)).getLsbD 0

/-- A scheduler entry holds a kernel of the bow. -/
def armedFor (s : State) (b : Fin 16) : Bool := s.sched.any (fun e => e.kernel && kBow e.desc == b)

/-- All conditions under which a bow's domain is off hold (R76). [log entry 83: DEDUCED] -/
def bowUnused (s : State) (b : Fin 16) : Bool :=
  let w := bow s b
  w.group.isNone && w.n.job.isNone && w.u.job.isNone && w.queue.isEmpty && w.launches.isEmpty && w.ended.isEmpty &&
  w.armed.isNone && !armedFor s b && !stealEnabled s b && !(reg s (bowReg b 0x008)).getLsbD 1

/-- A bow's domain is switched off: contexts, data memory, instruction store, branch histories and bit errors go. The trap
table and the patch set stand for the copies that the firmware keeps and reloads (R71, R208).
[log entry 48: DEDUCED] -/
def bowOff (s : State) (b : Fin 16) : State :=
  let w := bow s b
  let s := setBow s b { w with powered := false, n := Context.reset, u := Context.reset, dmem := [], dmemErr := [],
                               lines := [], asked := [], patchErr := [], rewrite := false, swapEnd := none,
                               microHit := none, window := none, accum := 0 }
  setDomainNis (markDomain s (68 + b.val) false) (68 + b.val) 2

/-- A bow's domain is powered: data memory zero, branch histories zero, a pending patch set swapped in (R212), its NI
open, and the images pinned in it loaded (R67). [log entry 48: DEDUCED] -/
def bowOn (s : State) (b : Fin 16) : State :=
  let w := bow s b
  let patch := match w.pending with
    | some p => p
    | none => w.patch
  let s := setBow s b { w with powered := true, dmem := [], dmemErr := [], lines := [], patch, pending := none
                               n := { w.n with history := [] }, u := { w.u with history := [] } }
  let s := match w.pending with
    | some p => logEvent s (logSource 0x02 b.val) 0x0031 stOK (BitVec.ofNat 24 (b.val + p.version.toNat % 2 ^ 16 * 2 ^ 8))
    | none => s
  let s := setDomainNis (markDomain s (68 + b.val) true) (68 + b.val) 0
  w.pins.eraseDups.foldl (loadImage b) s

/-- A bow comes up; the scheduler's urgent launch that waited for it enters U (R76). -/
def powerBow (b : Fin 16) (s : State) : State :=
  if (bow s b).powered || bowUnused s b || !bowsMayRun s then s
  else
    let s := bowOn s b
    let w := bow s b
    if w.n.job.isNone && w.u.job.isNone then settleMode (nextLaunch s b) else s

/-! ### Line fills (R64, R65) -/

/-- A line enters the instruction store, and its request is over. -/
def lineArrives (s : State) (b : Fin 16) (image : BitVec 21) (num : BitVec 10) (st : Status) (ws : List Word) : State :=
  let w := bow s b
  setBow s b { w with
    lines := putLine w.lines (lineOf image num.toNat (w.pins.contains image) st ws)
    asked := w.asked.filter (fun q => !(q.base == image && q.num == num)) }

/-- The bow's NI takes the requests of its missing lines: reads of 16 words, under TAGs of context N (R64).
[log entry 181: DESIGN CHOICE] -/
def sendLine (b : Fin 16) (s : State) (q : LineAsk) : State :=
  let k := ctx s b .n
  if q.sent || k.asks.length ≥ 128 || niState s (2 * b.val + 1, 2) != 0 then s
  else
    let tag := askTag .n k
    let s := setCtx s b .n { k with asks := k.asks ++ [{ tag, kind := .line q.base q.num }], nextTag := askNum .n k + 1 }
    let w := bow s b
    let s := setBow s b { w with asked := w.asked.map (fun a => if a = q then { a with sent := true } else a) }
    inject s ptRd (linePacket s b q.base q.num.toNat tag)

def sendLines (s : State) (b : Fin 16) : State :=
  if (bow s b).powered then (bow s b).asked.reverse.foldl (sendLine b) s else s

/-- A line that the bow has missed arrives before its request has left: what its sixteen words hold, or the mark of an
invalid line (R64, R65). [log entries 10: DEDUCED; 181: DESIGN CHOICE] -/
def fillLine (b : Fin 16) (image : BitVec 21) (num : BitVec 10) (meets : List (Nat × Meet)) (s : State) : State :=
  let w := bow s b
  let mine := fun (q : LineAsk) => q.base == image && q.num == num && !q.sent
  if !w.powered || !w.asked.any mine then s
  else
    let r := readLine s image num.toNat (w.pins.contains image) meets
    setBow r.1 b { bow r.1 b with lines := putLine w.lines r.2, asked := w.asked.filter (fun q => !mine q) }

/-! ### Stealing (R86) -/

/-- The bow is idle for stealing. -/
def idleForSteal (s : State) (b : Fin 16) : Bool :=
  let w := bow s b
  w.powered && w.n.job.isNone && w.queue.isEmpty && stealEnabled s b && !w.held && w.armed.isNone && !swapHeld w

/-- The tail entry may be taken: FLOATING, with no DEADLINE, TRIGGER or PIN. -/
def stealable (j : Job) : Bool := !kPinned j.desc && !kHasDeadline j.desc && !kTrigger j.desc && !kPin j.desc

/-- Put an index behind those whose length is at least as great. -/
def insertLongest (len : Nat → Nat) (i : Nat) : List Nat → List Nat
  | [] => [i]
  | x :: xs => if len i > len x then i :: x :: xs else x :: insertLongest len i xs

/-- Indices 0 to n − 1, longest first, ties in rising order. -/
def longestFirst (len : Nat → Nat) (n : Nat) : List Nat :=
  (List.range n).foldl (fun acc i => insertLongest len i acc) []

/-- One attempt: the first tail entry that may be taken and formed goes to the stealer's queue. -/
def stealAttempt (b : Fin 16) (s : State) : State :=
  if !idleForSteal s b then s
  else
    let q := fun (i : Nat) => (bow s (Fin.ofNat 16 i)).queue
    let found := (longestFirst (fun i => (q i).length) 16).find? (fun i =>
      i != b.val && (q i).length ≥ 2 && (match (q i).getLast? with
        | some j => stealable j && canForm s b j.desc
        | none => false))
    match found with
    | none => s
    | some i =>
      match (q i).getLast? with
      | none => s
      | some j =>
        let v := Fin.ofNat 16 i
        let s := setBow s v { bow s v with queue := (q i).dropLast }
        countUp (countUp (setBow s b { bow s b with queue := [j] }) (bowReg b 0x084) 31 0 1) (bowReg v 0x088) 31 0 1

/-- CHAIN of a transfer descriptor (R349). -/
def descChain (d : Desc) : Bool := (dle d 1 1).testBit 2

/-- The tail of a mover's list may be stolen: it is neither a chain's member nor the transfer in progress, and at least
two transfers are queued. -/
def moverTail (l : List Desc) : Option Desc :=
  if l.length < 3 then none
  else match l.getLast?, l.dropLast.getLast? with
    | some d, some p => if descChain d || descChain p then none else some d
    | _, _ => none

/-- An idle mover takes the tail of the longest peer queue that gives one. -/
def moverSteal (m : Fin 8) (s : State) : State :=
  if !s.movers[m].isEmpty then s
  else
    let q := fun (i : Nat) => s.movers[Fin.ofNat 8 i]
    let found := (longestFirst (fun i => (q i).length) 8).find? (fun i => i != m.val && (moverTail (q i)).isSome)
    match found with
    | none => s
    | some i =>
      match moverTail (q i) with
      | none => s
      | some d => { s with movers := (s.movers.set (Fin.ofNat 8 i) (q i).dropLast).set m [d] }

/-! ### Clock steps (R78) -/

/-- The running clock of a group changes at a preemption point; above the setting it does not rise. A step that is asked
for while an urgent launch waits, runs or is predicted, or between preemption points, is deferred. A later step replaces
it. [log entries 55: DEDUCED; 143: DESIGN CHOICE] -/
def clockStep (b : Fin 16) (clock : BitVec 5) (s : State) : State :=
  let w := bow s b
  if w.group.isNone || clock.toNat < 6 || clock.toNat > 24 ||
      (clock.toNat > w.clock.toNat && clock.toNat > w.clockSet.toNat) then s
  else if urgentBusy w || launchPredicted s b || !atBoundary w then setBow s b { w with clockNext := some clock }
  else setBow s b { w with clock, clockNext := none }

/-! ### Meanings -/

def execGDelivery (bow : Fin 16) (ctx : Ctx) (extra waited : Nat) (s : State) : Host.Outcome State Fault Refusal :=
  .next (deliverG bow ctx extra waited s)
def execGetxDelivery (bow : Fin 16) (ctx : Ctx) (s : State) : Host.Outcome State Fault Refusal := .next (deliverX bow ctx s)
def execPreemption (bow : Fin 16) (ac : Nat) (s : State) : Host.Outcome State Fault Refusal := .next (preempt bow ac s)

/-- A launch request of an URGENT kernel without a trigger. -/
def execUrgentLaunch (d : Desc) (s : State) : Host.Outcome State Fault Refusal :=
  .next (if kUrgent d then launchUrgent s (newJob d false) else s)
def execKernelStart (bow : Fin 16) (s : State) : Host.Outcome State Fault Refusal := .next (startHead bow s)
def execDeadlineExpiry (bow : Fin 16) (s : State) : Host.Outcome State Fault Refusal := .next (expireBow s bow)
def execStealAttempt (bow : Fin 16) (s : State) : Host.Outcome State Fault Refusal := .next (stealAttempt bow s)
def execMoverSteal (mover : Fin 8) (s : State) : Host.Outcome State Fault Refusal := .next (moverSteal mover s)
def execBowPowerDown (bow : Fin 16) (s : State) : Host.Outcome State Fault Refusal :=
  .next (if (s.bows[bow]).powered && bowUnused s bow then bowOff s bow else s)
def execBowPowerUp (bow : Fin 16) (s : State) : Host.Outcome State Fault Refusal := .next (powerBow bow s)
def execClockStep (bow : Fin 16) (clock : BitVec 5) (s : State) : Host.Outcome State Fault Refusal :=
  .next (clockStep bow clock s)

end Sys2Proof.Machine
end

