-- ==== Sys2Proof/Machine/Patch.lean ====
section
/-! DEFINITION. Patch images and patch sets: the checks of R210 on header, microwords and match entries, and the swap of
a bow's set (R190 to R198, R208 to R213). -/

namespace Sys2Proof.Machine

/-! ### The checks (R210) -/

/-- `n` little-endian bytes of a patch image's header from byte offset `o`. -/
def ple (i : PatchImage) (o n : Nat) : Nat := (i.header.toNat >>> (8 * o)) % 2 ^ (8 * n)

def patchNwords (i : PatchImage) : Nat := ple i 0x10 2
def patchNmatch (i : PatchImage) : Nat := ple i 0x12 1
def patchVersion (i : PatchImage) : Nat := ple i 0x0C 4

/-- Order 1: header fields (R209). [log entry 176: DEDUCED] -/
def patchHeaderOk (i : PatchImage) : Bool :=
  ple i 0x00 4 == 0x4D435031 && ple i 0x04 2 == 1 && ple i 0x06 2 == 160 && 1 ≤ patchVersion i &&
  1 ≤ patchNwords i && patchNwords i ≤ 256 && 1 ≤ patchNmatch i && patchNmatch i ≤ 32 && ple i 0x13 1 == 0 &&
  ple i 0x14 4 == patchNwords i * 18 + patchNmatch i * 4 && ple i 0x94 12 == 0

/-- The number that little-endian bytes spell. -/
def leNat (bs : List (BitVec 8)) : Nat := bs.foldr (fun b n => b.toNat + 256 * n) 0

/-- `n` little-endian bytes of the body from byte offset `o`. -/
def bodyNat (i : PatchImage) (o n : Nat) : Nat := leNat ((i.body.drop o).take n)

/-- The words and the match entries of the body (R209). -/
def patchWords (i : PatchImage) : List (BitVec 144) :=
  (List.range (patchNwords i)).map (fun k => BitVec.ofNat 144 (bodyNat i (18 * k) 18))
def patchEntries (i : PatchImage) : List (BitVec 32) :=
  (List.range (patchNmatch i)).map (fun k => BitVec.ofNat 32 (bodyNat i (18 * patchNwords i + 4 * k) 4))

/-- A patch-space target of a microword lies outside the set (R197). -/
def patchTargetBad (nwords w : Nat) : Bool :=
  let op := bitsOf w 94 92
  let a := bitsOf w 110 99
  w.testBit 111 && (a ≥ 256 || ((op == 1 || op == 2) && a ≥ nwords) || (op == 4 && a + 3 ≥ nwords))

/-- Order 5, words: index and cause of the first offending word. -/
def patchWordsBad (nwords : Nat) : Nat → List (BitVec 144) → Option (Nat × Nat)
  | _, [] => none
  | i, w :: ws =>
    if wordReserved true w.toNat then some (i, 1)
    else if patchTargetBad nwords w.toNat then some (i, 2)
    else patchWordsBad nwords (i + 1) ws

/-- Order 5, match entries: index and cause of the first offending entry. -/
def patchEntriesBad (nwords : Nat) : Nat → List (BitVec 32) → List Nat → Option (Nat × Nat)
  | _, [], _ => none
  | i, e :: es, seen =>
    let v := e.toNat
    if bitsOf v 19 12 ≥ nwords then some (i, 3)
    else if seen.contains (bitsOf v 11 0) then some (i, 4)
    else if bitsOf v 31 20 ≠ 0 then some (i, 5)
    else patchEntriesBad nwords (i + 1) es (bitsOf v 11 0 :: seen)

/-- The ROM revision of every bow (BOW_UROM_ID). -/
def uromId : Nat := 0x65400001

/-- The checks of R210: status and detail of the first failure. `live` gives the versions in use for a live
replacement. [log entries 121: DEDUCED; 140: DEDUCED] -/
def patchCheck (i : PatchImage) (live : List Nat) : Option (Status × Nat) :=
  if !patchHeaderOk i then some (stBadDescriptor, 0)
  else if !i.sigOk || !i.gcmOk then some (stAuthFail, 0)
  else if ple i 0x08 4 ≠ uromId ∨ live.any (fun v => decide (patchVersion i < v)) then some (stVersionReject, 0)
  else
    match patchWordsBad (patchNwords i) 0 (patchWords i) with
    | some (k, c) => some (stBadDescriptor, k + c * 2 ^ 12)
    | none =>
      match patchEntriesBad (patchNwords i) 0 (patchEntries i) [] with
      | some (k, c) => some (stBadDescriptor, k + c * 2 ^ 12)
      | none => none

def patchSetOf (i : PatchImage) : PatchSet :=
  { version := BitVec.ofNat 32 (patchVersion i), words := patchWords i, entries := patchEntries i }

/-! ### Swaps (R212, R213) -/

/-- The bow stands at a boundary at which it may be swapped (R212): no kernel, no waiting launch, no trigger of an armed
expansion due, no launch predicted within 20 µs, and no swap in progress. [log entry 143: DESIGN CHOICE] -/
def swapBoundary (s : State) (b : Fin 16) : Bool :=
  let w := bow s b
  w.n.job.isNone && w.u.job.isNone && w.launches.isEmpty && !launchPredicted s b && !swapHeld w

/-- Ticks of 3.8 ns that cover the nc of a swap of a set: (NWORDS + NMATCH + 8) × 6 nc of 1 ns (R212). -/
def swapTicks (p : PatchSet) : Nat := ((p.words.length + p.entries.length + 8) * 6 * 4096 + 15624) / 15625

/-- A swap writes the pending set, or rewrites the set in use after an uncorrectable patch word (R208), and holds the bow
meanwhile: Logbook entry with the bow and SET_VERSION. [log entry 121: DEDUCED] -/
def swapPatch (s : State) (b : Fin 16) : State :=
  let w := bow s b
  let p := match w.pending with
    | some p => p
    | none => w.patch
  let s := setBow s b { w with patch := p, pending := none, patchErr := [], rewrite := false,
                               swapEnd := some (s.epoch + BitVec.ofNat 64 (swapTicks p)) }
  logEvent s (logSource 0x02 b.val) 0x0031 stOK (BitVec.ofNat 24 (b.val + p.version.toNat % 2 ^ 16 * 2 ^ 8))

/-- A swap that has ended releases its bow: the launch that waited longest enters (R212, R213). -/
def releaseSwap (s : State) (b : Fin 16) : State :=
  let w := bow s b
  match w.swapEnd with
  | some e =>
    if e ≤ s.epoch then
      let s := setBow s b { w with swapEnd := none }
      if w.powered && w.n.job.isNone && w.u.job.isNone && !s.brown.hold then settleMode (nextLaunch s b) else s
    else s
  | none => s

/-- A bow of a PATCH_LOAD has been swapped; the last one completes the command. -/
def swapCounted (s : State) (b : Fin 16) : State :=
  match s.patchLoad with
  | some l =>
    let left := l.left &&& ~~~(BitVec.ofNat 16 (2 ^ b.val))
    if left = 0 then completeSt { s with patchLoad := none } l.desc stOK
    else { s with patchLoad := some { l with left } }
  | none => s

/-- A pending set is withdrawn from the bows that have not swapped. -/
def cancelPending (s : State) (left : BitVec 16) : State :=
  { s with bows := Vector.ofFn (fun (b : Fin 16) =>
      if left.getLsbD b.val then { s.bows[b] with pending := none } else s.bows[b]) }

end Sys2Proof.Machine
end

