-- ==== Sys2Proof/Machine/Domains.lean ====
section
/-! DEFINITION. Switching the domains: courses, bows, fabric quadrants, store quadrants and peer links off and on, the
reset of the host interface, and what SLEEP, STANDBY, SENTINEL and RESTART switch off together (R301, R340, R394, R395,
R401, R402). -/

namespace Sys2Proof.Machine

/-! ### Courses (R395) -/

def logicalOf (s : State) (p : Fin 68) : Option (Fin 64) := (List.finRange 64).find? (fun c => s.lmap[c] == p)

/-- Course Port requests of a course that await their acknowledgement are answered with DOMAIN_OFF (R254). -/
def answerOwners (s : State) (c : Fin 64) : State :=
  let ps := (course s c).chans.toList.filterMap (fun k => k.owner)
  let s := setCourse s c { course s c with chans := (course s c).chans.map (fun k => { k with owner := none }) }
  ps.foldl (fun s p => respond s p stDomainOff []) s

/-- A physical course's domain goes off: its contents are lost. -/
def courseDomainOff (s : State) (p : Fin 68) : State :=
  let s := match logicalOf s p with
    | some c => loseCourse (answerOwners s c) c
    | none => s
  let s := if s.pcourse[p] = .spareOn then { s with pcourse := s.pcourse.set p .spareOff } else s
  setDomainNis (markDomain s p.val false) p.val 2

/-! ### Fabric quadrants (R301, R303) -/

def quadPort (f : Fin 4) : Nat × Nat := (10 * f.val, 2)

/-- Requests delivered to the fabric logic and not answered are answered with DOMAIN_OFF (R254). -/
def dropPending (s : State) (f : Fin 4) : State :=
  let k := s.fp[f]
  let s := { s with fp := s.fp.set f FpSt.reset }
  k.pend.foldl (fun s p => respond s p stDomainOff []) s

/-- A quadrant changes its state: leaving RUNNING isolates it; its flip-flops are held unless it is RUNNING or ISOLATING, and
its network port is open while it is RUNNING, closing while it is ISOLATING (R293, R301, R303). -/
def setQuad (s : State) (f : Fin 4) (v : Nat) : State :=
  let s := if quadRuns s f && v != 2 then isolate s f else s
  let s := if quadLive s f && v != 2 && v != 3 then { s with fab := { s.fab with ffs := holdFfs s f } } else s
  let s := if v = 2 then startQuad s f else s
  let s := setRegBits s 0x40000 (4 * f.val + 3) (4 * f.val) v
  if v = 2 then setNiState s (quadPort f) 0 else if v = 3 then setNiState s (quadPort f) 1
  else setNiState (dropPending s f) (quadPort f) 2

/-- A quadrant is left EMPTY: no image is in it. [log entry 73: DESIGN CHOICE] -/
def emptyQuad (s : State) (f : Fin 4) : State := writeQuad (setReg (setQuad s f 0) (0x40010 + 4 * f.val) 0) f QuadConf.blank

def fabricOff (s : State) (f : Fin 4) : State := markDomain (dropQuad (emptyQuad s f) f) (84 + f.val) false

/-- A boot image is applied to all quadrants, which are READY then (R302); its GLOBAL frame comes into force.
[log entry 74: DEDUCED] -/
def loadAllQuads (s : State) (version : BitVec 32) (global : GlobalConf) (quads : Vector QuadConf 4) : State :=
  (List.finRange 4).foldl (fun s f =>
    writeQuad (setReg (setQuad (markDomain s (84 + f.val) true) f 1) (0x40010 + 4 * f.val) version) f quads[f]) { s with fabGlobal := global }

/-- All READY quadrants start (R302). -/
def startQuads (s : State) : State :=
  (List.finRange 4).foldl (fun s f => if quadState s f = 1 then setQuad s f 2 else s) s

/-! ### Store quadrants (R259, R277) -/

/-- Time of the clear: 65,536 nc of 1 ns in tt of 262.144 MHz, rounded up (R277). -/
def clearTicks : BitVec 64 := 17180

/-- The four store quadrants go off together: the store's contents are lost. -/
def storeOff (s : State) : State :=
  let s := setRegBits (setRegBits { clearStore s with clearEnd := none } 0x30004 5 2 0) 0x30004 0 0 0
  (List.range 4).foldl (fun s q => setDomainNis (markDomain s (88 + q) false) (88 + q) 2) s

/-- They come up, and every bank writes zeros; meanwhile CLEARING is 1 and their NIs are OFF (R277). -/
def storePower (s : State) : State :=
  let s := setRegBits (setRegBits { clearStore s with clearEnd := some (s.epoch + clearTicks) } 0x30004 5 2 0xF) 0x30004 0 0 1
  (List.range 4).foldl (fun s q => setDomainNis (markDomain s (88 + q) true) (88 + q) 2) s

/-- The clear ends, and their NIs open. -/
def storeServe (s : State) : State :=
  (List.range 4).foldl (fun s q => setDomainNis s (88 + q) 0) (setRegBits { s with clearEnd := none } 0x30004 0 0 0)

/-- They come up, cleared, and serve. -/
def storeOn (s : State) : State := storeServe (storePower s)

/-- The clear has ended once its time has passed. -/
def endClear (s : State) : State := if s.clearEnd.any (fun e => e ≤ s.epoch) then storeServe s else s

/-! ### Peer links (R427) -/

/-- A link is DOWN and its domain off. -/
def peerOff (s : State) (l : Fin 2) : State :=
  let s := { s with peers := s.peers.set l PeerSt.reset }
  setDomainNis (markDomain (setRegBits s (linkReg l.val 0) 2 0 0) (92 + l.val) false) (92 + l.val) 2

/-- A link is enabled: its domain is powered and training starts at LOCK. -/
def peerOn (s : State) (l : Fin 2) : State :=
  markDomain (setRegBits s (linkReg l.val 0) 2 0 1) (92 + l.val) true

def peerEnabled (s : State) (l : Fin 2) : Bool := (reg s 0x80000).getLsbD (8 + l.val)

/-- Enabled links whose domain is off start to train. -/
def peersOn (s : State) : State :=
  (List.finRange 2).foldl (fun s l => if peerEnabled s l && !domainOn s (92 + l.val) then peerOn s l else s) s

/-! ### Everything that a low-power mode, SENTINEL or RESTART switches off -/

/-- Groups that are not held dissolve; held groups stay assigned, without contents, and armed expansions keep their
reservations with their LAUNCH entries (R401). [log entry 66: DEDUCED] -/
def dissolveGroups (s : State) (keepHeld : Bool) : State :=
  let keep := fun (b : Fin 16) => keepHeld && (bow s b).held
  { s with
    bows := Vector.ofFn (fun (b : Fin 16) =>
      let w := s.bows[b]
      { w with group := if keep b then w.group else none, held := keep b, armed := if keepHeld then w.armed else none })
    courses := Vector.ofFn (fun (c : Fin 64) =>
      let k := s.courses[c]
      { k with owner := k.owner.filter keep, reserved := if keepHeld then k.reserved else none, leased := false }) }

/-- Migration, leases, fabric load and snapshot in progress end with their domains; their commands complete with
ABORTED. [log entry 67: DESIGN CHOICE] -/
def dropServices (s : State) : State :=
  let s := dropMove s
  let s := match s.migration with
    | some m =>
      let t := { s with migration := none, pcourse := s.pcourse.set m.mirror .spareOff }
      let t := setReg t 0x700C0 0
      match m.desc with
      | some d => completeSt t d stAborted
      | none => t
    | none => s
  let s := match s.fabLoad with
    | some l => completeSt (setRegBits { (if l.step ≥ 2 then emptyQuad s l.quad else s) with fabLoad := none } 0x40004 0 0 0) l.desc stAborted
    | none => s
  let s := match s.snap with
    | some k => completeSt (setRegBits { s with snap := none } 0x40030 1 0 0) k.desc stAborted
    | none => s
  let s := { s with pcourse := Vector.ofFn (fun (p : Fin 68) =>
      if s.pcourse[p] = .leased then (if (logicalOf s p).isSome then PState.active else .spareOff) else s.pcourse[p]) }
  setRegBits s 0x70000 7 5 0

/-- Every switched domain but PCIe goes off. [log entry 66: DEDUCED] -/
def switchOff (s : State) (keepHeld : Bool) : State :=
  let s := dissolveGroups (dropServices s) keepHeld
  let s := (List.finRange 68).foldl courseDomainOff s
  let s := (List.finRange 16).foldl bowOff s
  let s := (List.finRange 4).foldl fabricOff s
  let s := storeOff s
  (List.finRange 2).foldl peerOff s

/-- Always-on ports are open (R394: the always-on domain is powered from POR_N release). -/
def openAlwaysOn (s : State) : State := markDomain (setDomainNis s 95 0) 95 true

/-! ### The host interface (R340, R341) -/

/-- A ring's ENABLE goes to 0: a submission ring leaves FAULTED. -/
def disableSq (s : State) (n : Nat) : State :=
  let s := setReg (setRegBits s (sqBase n + 0x18) 0 0 0) (sqBase n + 0x20) 0
  let s := setRegBits s (0x1010 + n / 32 * 4) (n % 32) (n % 32) 0
  { s with sq := s.sq.set (Fin.ofNat 64 n) { s.sq[Fin.ofNat 64 n] with idlePolls := 0, badPolls := 0, refetch := false, chain := none } }

/-- Registers that a reset of the host interface leaves: the stream bindings and their SEQ (R340, R359, R360).
[log entry 123: DEDUCED] -/
def keptHif (o : Nat) : Bool := 0x4000 ≤ o && o < 0x5000 && (o % 0x40 == 0x18 || o % 0x40 == 0x1C || o % 0x40 == 0x20)

/-- Function Level Reset and PERST_N: every ring is disabled, the host interface's registers, configuration space and the MSI-X
table return to their reset values, SETUP_LOCK and the stream bindings stay. [log entry 123: DEDUCED] -/
def hifReset (s : State) : State :=
  let lock := reg s 0x1000 &&& 0x80000000#32
  let s := (List.range 64).foldl disableSq s
  let s := { s with regs := s.regs.filter (fun e =>
      e.1 < 0x1000 || keptHif e.1 || (0x5000 ≤ e.1 && e.1 < 0x8000) || (0x9008 ≤ e.1 && e.1 < 0x110000)),
                         msixPend := 0 }
  let s := setReg s 0x1000 (reg s 0x1000 ||| lock)
  let s := setRegBits s 0x1004 3 0 (modeCode s.mode)
  { s with cq := s.cq.map (fun q => { q with since := 0 }), st := s.st.map (fun q => { q with since := 0, written := 0 }) }

/-- RWL fields of a register return to their reset values. -/
def resetLockable (s : State) (o : Nat) : State :=
  match regLayout o with
  | some fs => (fs.filter (fun f => f.acc == .rwl)).foldl (fun s f => setRegBits s o f.hi f.lo f.reset) s
  | none => s

/-- Registers with RWL fields (R341): after a RESTART each holds its reset value. -/
def lockableRegs : List Nat :=
  [0x30000, 0x50000, 0x50600, 0x50604, 0x80000] ++
  (List.range 16).flatMap (fun n => [0x10008 + n * 0x1000, 0x100C0 + n * 0x1000, 0x51000 + n * 0x40, 0x51038 + n * 0x40,
    0x5103C + n * 0x40])

end Sys2Proof.Machine
end

