-- ==== Sys2Proof/Machine/Descriptors.lean ====
section
/-! DEFINITION. Descriptors: layouts, the checks of a ring engine in the order of R363, and their acceptance (R349 to R355,
R363, R364, R379, R380, R402, R420). -/

namespace Sys2Proof.Machine

/-! ### Layouts (R351 to R354, R380, R420) -/

/-- A field of a layout: byte offset, size, bits that may be set, and least and greatest value. -/
structure DField where
  off  : Nat
  size : Nat
  bits : Nat
  lo   : Nat
  hi   : Nat
deriving DecidableEq, Repr

def byteAt (d : Desc) (o : Nat) : Nat := dle d o 1

/-- First non-zero byte from `o` on, among `n`. -/
def gapBad (d : Desc) (o : Nat) : Nat → Option (Nat × Nat)
  | 0 => none
  | n + 1 => if byteAt d o ≠ 0 then some (o, 1) else gapBad d (o + 1) n

/-- First offending field of a layout in rising offset order, with its cause: 1 reserved, 2 range (R363). -/
def fieldsBad (d : Desc) : Nat → List DField → Option (Nat × Nat)
  | pos, [] => gapBad d pos (128 - pos)
  | pos, f :: fs =>
    match gapBad d pos (f.off - pos) with
    | some x => some x
    | none =>
      let v := dle d f.off f.size
      if v % 2 ^ f.bits ≠ v then some (f.off, 1)
      else if v < f.lo ∨ v > f.hi then some (f.off, 2)
      else fieldsBad d (f.off + f.size) fs

/-- A field of `n` bits in `size` bytes, any value. -/
def fBits (off size n : Nat) : DField := { off, size, bits := n, lo := 0, hi := 2 ^ n }
/-- A field of `size` bytes with a range. -/
def fRange (off size lo hi : Nat) : DField := { off, size, bits := 8 * size, lo, hi }
/-- A whole field. -/
def fAny (off size : Nat) : DField := fBits off size (8 * size)

def kernelLayout : List DField :=
  [fBits 0x08 4 21, { off := 0x0C, size := 2, bits := 13, lo := 0x20, hi := 0x1FFF }, fBits 0x0E 2 7, fAny 0x10 1, fBits 0x11 1 6,
   fBits 0x12 1 4, fBits 0x13 1 4, fRange 0x14 2 0 0x4000, fBits 0x16 2 14, fBits 0x18 2 14, fBits 0x1A 2 14, fBits 0x1C 2 14,
   fBits 0x1E 2 14, fBits 0x20 8 40, { off := 0x28, size := 1, bits := 4, lo := 0, hi := 8 }, fRange 0x29 1 0 8, fAny 0x2A 2,
   fAny 0x30 8] ++ (List.range 8).map (fun i => fBits (0x40 + 8 * i) 8 40)

/-- One endpoint of a COPY at a byte offset; `k` is its KIND. -/
def endpointLayout (o k : Nat) : List DField :=
  [fRange o 1 0 4] ++
  (match k with
    | 2 => [fRange (o + 1) 1 0 15, fBits (o + 8) 8 21]
    | 3 => [fRange (o + 1) 1 0 63, fRange (o + 2) 1 0 3]
    | 4 => [fRange (o + 1) 1 0 3, fBits (o + 8) 8 21]
    | 1 => [fBits (o + 8) 8 21]
    | _ => [fAny (o + 8) 8])

def transferLayout (d : Desc) : Nat → List DField
  | 0 => [fRange 0x08 4 1 2097152, fBits 0x0C 2 3, fAny 0x0E 1] ++ endpointLayout 0x10 (byteAt d 0x10) ++
      endpointLayout 0x28 (byteAt d 0x28)
  | 1 => [fAny 0x08 2, fBits 0x0A 1 3, fRange 0x0B 1 1 16, fAny 0x0C 2, fAny 0x10 8]
  | _ => [fAny 0x08 2, fBits 0x0A 1 3, fRange 0x0B 1 1 16, fAny 0x0C 2] ++ (List.range 16).map (fun i => fAny (0x40 + 4 * i) 4)

/-- Layouts of the admin commands; none for a reserved CODE. -/
def adminLayout : Nat → Option (List DField)
  | 0x0001 => some [fRange 0x08 1 0 15, fBits 0x09 1 6, fAny 0x0A 1]
  | 0x0002 => some [fRange 0x08 1 0 15]
  | 0x0003 => some [fRange 0x08 1 0 15, fRange 0x09 1 6 24]
  | 0x0008 => some [fRange 0x08 1 0 63, fAny 0x0C 4]
  | 0x0009 => some []
  | 0x0010 => some [fRange 0x08 1 0 1, fAny 0x0A 2, fAny 0x0C 4, fAny 0x10 8, fRange 0x18 2 1 60000]
  | 0x0011 => some [fRange 0x08 1 0 35, fBits 0x09 1 4, fBits 0x0A 2 12, fAny 0x0C 4]
  | 0x0018 => some [fRange 0x08 1 0 1, fBits 0x09 1 4, fBits 0x0A 1 1, fAny 0x0C 4, fAny 0x10 8]
  | 0x0019 => some [fBits 0x09 1 4]
  | 0x001A => some ([fAny 0x08 8] ++ (List.range 64).map (fun i => fAny (0x10 + i) 1))
  | 0x001B => some [fRange 0x08 1 0 3, fRange 0x09 1 0 2, fRange 0x0A 1 0 15, fRange 0x0B 1 0 1, fAny 0x10 8]
  | 0x0020 => some [{ off := 0x08, size := 1, bits := 4, lo := 0, hi := 8 }, fRange 0x09 1 1 9, fAny 0x0A 2, fAny 0x0C 2,
      fBits 0x0E 1 1, fBits 0x10 8 40, fBits 0x18 8 40, fAny 0x20 8]
  | 0x0021 => some [fAny 0x08 4]
  | 0x0028 => some [fRange 0x08 1 0 31, fRange 0x09 1 0 15, fBits 0x0A 1 3, fRange 0x0C 4 1 16384, fRange 0x10 1 0 7]
  | 0x0029 => some [fRange 0x08 1 0 31]
  | 0x0030 | 0x0031 | 0x0032 | 0x0037 | 0x0041 | 0x0047 | 0x0048 => some []
  | 0x0033 => some [fRange 0x08 1 0 3, fRange 0x0C 4 0 0xFFFFFF, fRange 0x10 4 0 0x1000000]
  | 0x0034 => some [fRange 0x08 1 0 3, fRange 0x09 1 0 1, fRange 0x0C 4 0 0xFFFFFF, fRange 0x10 4 0 0x100000, fAny 0x18 8]
  | 0x0035 | 0x0036 | 0x0044 => some [fRange 0x08 1 0 3]
  | 0x0038 => some [fBits 0x08 1 1]
  | 0x0039 => some [fRange 0x08 1 0 1, fBits 0x09 1 1, fAny 0x10 8]
  | 0x003A => some [fRange 0x08 1 0 4, fRange 0x09 1 0 1, fAny 0x10 8]
  | 0x003B => some [fBits 0x08 1 5, fBits 0x09 1 5, fRange 0x0A 2 1 1000]
  | 0x003C => some [fRange 0x08 1 0 1, fAny 0x10 8]
  | 0x0040 => some [fAny 0x08 1, fBits 0x09 1 1]
  | 0x0042 => some [fRange 0x08 1 0 3, fAny 0x09 1, fAny 0x0A 1, fAny 0x0B 1, fRange 0x0C 2 1 65535, fBits 0x0E 1 2, fAny 0x10 8]
  | 0x0043 => some [fRange 0x08 1 0 63, fAny 0x09 1]
  | 0x0045 => some [fRange 0x08 1 0 15, fRange 0x09 1 0 2, fRange 0x0A 1 0 15, fRange 0x0B 1 0 16, fAny 0x0C 2, fAny 0x0E 2,
      fBits 0x10 8 40, fBits 0x18 8 40]
  | 0x0046 => some [fAny 0x08 4, fRange 0x0C 4 1 10000, fRange 0x10 4 0 10000]
  | 0x0049 => some [fRange 0x08 1 0 1, fAny 0x0C 4, fRange 0x10 4 1 16384, fAny 0x18 8]
  | _ => none

/-! ### Order 1 (R363) -/

/-- The header (R349): TYPE, FLAGS, CODE. -/
def headerBad (d : Desc) : Option (Nat × Nat) :=
  let t := descType d
  let c := descCode d
  if t = 0 ∨ t > 3 then some (0, 1)
  else if byteAt d 1 % 2 ^ (if t = 2 then 3 else 2) ≠ byteAt d 1 then some (1, 1)
  else if (t = 1 ∧ c ≠ 0) ∨ (t = 2 ∧ c > 2) ∨ (t = 3 ∧ (adminLayout c).isNone) then some (2, 1)
  else none

def layoutOf (d : Desc) : List DField :=
  match descType d with
  | 1 => kernelLayout
  | 2 => transferLayout d (descCode d)
  | _ => match adminLayout (descCode d) with
    | some l => l
    | none => []

/-- The finding at the lower offset; the reserved value at equal ones. -/
def earlier (a b : Option (Nat × Nat)) : Option (Nat × Nat) :=
  match a, b with
  | some x, some y => if y.1 < x.1 ∨ (y.1 = x.1 ∧ y.2 < x.2) then some y else some x
  | some x, none => some x
  | none, y => y

/-- A finding where a condition holds. -/
def flagAt (bad : Bool) (off cause : Nat) : Option (Nat × Nat) := if bad then some (off, cause) else none

def findings (l : List (Option (Nat × Nat))) : Option (Nat × Nat) := l.foldl earlier none

/-- Conditions of R351 over several fields. [log entry 49: DEDUCED] -/
def kernelExtra (d : Desc) : Option (Nat × Nat) :=
  let w := kWidth d
  let h := kHeight d
  let x0 := byteAt d 0x11 % 8
  let y0 := byteAt d 0x11 / 8 % 8
  findings ([
    flagAt (!kTrigger d && kFlag d 6) 0x0E 1,
    flagAt (w > 8 || h > 8 || ((w == 0) != (h == 0)) || (w == 0 && h == 0 && !kUrgent d)) 0x10 2,
    flagAt (kPinned d && (x0 + w > 8 || y0 + h > 8)) 0x11 2,
    flagAt (!kTrigger d && dle d 0x20 8 != 0) 0x20 1,
    flagAt (!kTrigger d && byteAt d 0x28 != 0) 0x28 1,
    flagAt (!kTrigger d && dle d 0x2A 2 != 0) 0x2A 1,
    flagAt (!kHasDeadline d && kDeadline d != 0) 0x30 1] ++
    (List.range 8).map (fun i => flagAt (byteAt d 0x29 ≤ i && dle d (0x40 + 8 * i) 8 != 0) (0x40 + 8 * i) 1))

/-- Conditions of R352 and R353 over several fields. -/
def transferExtra (d : Desc) : Option (Nat × Nat) :=
  if descCode d = 0 then
    findings [flagAt (byteAt d 0x0E > 7 && byteAt d 0x0E != 0xFF) 0x0E 2,
              flagAt (byteAt d 0x10 == 3) 0x10 2,
              flagAt (byteAt d 0x10 == 0 && byteAt d 0x28 == 0) 0x28 2]
  else flagAt (bitsOf (dle d 0x08 2) 11 8 != 0) 0x08 1

/-- Bits that an action's ARG may set, and whether its value is in range (R322). -/
def argBad (action arg : Nat) : Option Nat :=
  match action with
  | 1 => if arg ≥ 2 ^ 12 then some 1 else if arg / 16 = 0 then some 2 else none
  | 2 | 3 | 4 => if arg ≥ 2 ^ 4 then some 1 else none
  | 5 | 6 | 7 => if arg ≥ 2 ^ 3 then some 1 else none
  | 9 => if arg ≥ 2 ^ 6 then some 1 else none
  | _ => if arg ≠ 0 then some 1 else none

/-- An entry of the ball safe table holds a reserved value (R305). -/
def safeEntryBad (e : Nat) : Bool :=
  e % 8 ≥ 5 || bitsOf e 4 3 == 3 || bitsOf e 7 5 != 0

/-- Conditions of the admin commands over several fields. -/
def adminExtra (d : Desc) : Option (Nat × Nat) :=
  match descCode d with
  | 0x0001 =>
    let w := byteAt d 0x0A % 16
    let h := byteAt d 0x0A / 16
    flagAt (w == 0 || h == 0 || w > 8 || h > 8 || byteAt d 0x09 % 8 + w > 8 || byteAt d 0x09 / 8 + h > 8) 0x0A 2
  | 0x0011 =>
    findings [flagAt ((List.range 4).any (fun v => bitsOf (dle d 0x0A 2) (3 * v + 2) (3 * v) == 0 ||
                bitsOf (dle d 0x0A 2) (3 * v + 2) (3 * v) > 4)) 0x0A 2,
              flagAt ((List.range 8).any (fun k => bitsOf (dle d 0x0C 4) (4 * k + 3) (4 * k) == 0)) 0x0C 2]
  | 0x001A => findings ((List.range 64).map (fun i => flagAt (safeEntryBad (byteAt d (0x10 + i))) (0x10 + i) 1))
  | 0x001B => flagAt (byteAt d 0x09 == 0 && byteAt d 0x0A != 0) 0x0A 1
  | 0x0020 => match argBad (byteAt d 0x09) (dle d 0x20 8) with
    | some c => some (0x20, c)
    | none => none
  | 0x0033 =>
    findings [flagAt (dle d 0x0C 4 % 65536 != 0) 0x0C 2,
              flagAt (dle d 0x10 4 % 65536 != 0 || dle d 0x0C 4 + dle d 0x10 4 > 0x1000000) 0x10 2]
  | 0x0034 =>
    findings [flagAt (dle d 0x0C 4 % 256 != 0) 0x0C 2,
              flagAt (dle d 0x10 4 % 256 != 0 || dle d 0x0C 4 + dle d 0x10 4 > 0x1000000) 0x10 2]
  | 0x0040 => flagAt (byteAt d 0x08 != 1 && byteAt d 0x08 != 10) 0x08 2
  | 0x0042 => flagAt (!(byteAt d 0x0A < byteAt d 0x09 && byteAt d 0x09 < byteAt d 0x0B)) 0x09 2
  | 0x0043 => flagAt (byteAt d 0x09 > 67 && byteAt d 0x09 != 0xFF) 0x09 2
  | _ => none

/-- Order 1: byte offset of the first offending field and the cause. [log entry 49: DEDUCED] -/
def order1 (d : Desc) : Option (Nat × Nat) :=
  match headerBad d with
  | some x => some x
  | none =>
    earlier (fieldsBad d 8 (layoutOf d)) (match descType d with
      | 1 => kernelExtra d
      | 2 => transferExtra d
      | _ => adminExtra d)

/-! ### Order 2: addresses (R363) -/

/-- Words that hold `n` bytes at five bytes a word (R354). -/
def wordsFor (n : Nat) : Nat := (n + 4) / 5

/-- Store words that an address field spans: beyond the general store they are out of range. -/
def storeSpanBad (a n : Nat) : Bool := a + n > secureBase

/-- One endpoint of a COPY. -/
def endpointBad (d : Desc) (o : Nat) : Bool :=
  let a := dle d (o + 8) 8
  let n := dle d 0x08 4
  match byteAt d o with
  | 0 => !(byteAt d 0x0C).testBit 0 && a % 8 != 0
  | 1 => storeSpanBad a n
  | 4 => a + n > 2 ^ 21
  | _ => false

/-- A probe packet of a mover to the register file that a transfer names. -/
def registerProbe (s : State) (d : Desc) (m : Nat) : Packet :=
  { ddev := BitVec.ofNat 3 (byteAt d 0x0A), dst := ident (dle d 0x08 2 / 2 ^ 12) (dle d 0x08 2), sdev := ownDev s,
    src := ident 6 m, tag := 0, words := 1, addr := BitVec.ofNat 21 (dle d 0x0C 2), lanes := 0b11111, arg := 0, data := [],
    flits := 0, host := 0 }

/-- A store address field of an admin command: selector offset, address offset, words. -/
def adminSpan (d : Desc) : Option (Nat × Nat × Nat) :=
  match descCode d with
  | 0x0010 | 0x0018 => some (0x08, 0x10, wordsFor (dle d 0x0C 4))
  | 0x001B => some (0x0B, 0x10, wordsFor 5824)
  | 0x0034 => some (0x09, 0x18, wordsFor (dle d 0x10 4))
  | 0x0039 => some (0x08, 0x10, wordsFor 128)
  | 0x003A => some (0x09, 0x10, wordsFor 96)
  | 0x003C => some (0x08, 0x10, wordsFor 96)
  | 0x0049 => some (0x08, 0x18, wordsFor (16 * dle d 0x10 4))
  | _ => none

/-- Order 2: byte offset of the first offending address field. [log entry 49: DEDUCED] -/
def order2 (s : State) (d : Desc) : Option Nat :=
  match descType d with
  | 1 => if dle d 0x08 4 % 16 ≠ 0 ∨ dle d 0x08 4 + 2 * (kEntry d - 0x20) + 1 ≥ secureBase then some 0x08 else none
  | 2 =>
    if descCode d = 0 then
      (if endpointBad d 0x10 then some 0x18 else if endpointBad d 0x28 then some 0x30 else none)
    else if sourceBad s (withQuadrant ptRegRd (registerProbe s d 0)) (4, 2) then some 0x08
    else if dle d 0x0C 2 % 4 ≠ 0 then some 0x0C
    else if descCode d = 1 ∧ dle d 0x10 8 % 4 ≠ 0 then some 0x10 else none
  | _ =>
    match adminSpan d with
    | some (sel, o, n) => if byteAt d sel = 1 ∧ storeSpanBad (dle d o 8) n then some o else none
    | none => none

/-! ### Order 3 and the modes (R363, R379, R402, R380, R420) -/

/-- Whether a command of R380 or R420 is accepted in a mode. [log entry 68: DEDUCED] -/
def modeAllows (m : Mode) (code : Nat) : Bool :=
  let fromHold : Bool := match m with
    | .off | .boot | .calibrate => false
    | _ => true
  let live : Bool := match m with
    | .hold | .idle | .run | .service => true
    | _ => false
  match code with
  | 0x0030 | 0x0031 | 0x0033 | 0x0034 | 0x0035 | 0x0036 | 0x0037 | 0x0038 | 0x0044 => live
  | 0x0032 | 0x0039 | 0x003A | 0x003B | 0x003C | 0x0040 | 0x0009 => m == .hold || m == .idle
  | 0x0041 => m == .sentinel
  | 0x0042 | 0x0045 | 0x0046 | 0x0049 => fromHold
  | 0x0043 | 0x0048 => m == .idle || m == .run || m == .service
  | 0x0047 => m == .idle || m == .run || m == .service || m == .halt
  | _ => true

/-- A kernel or a transfer has no place in a mode in which the array and the store are off or no firmware runs.
[log entry 68: DEDUCED] -/
def modeGate (m : Mode) : Option Status := match m with
  | .sentinel | .sleep | .standby => some stDomainOff
  | .off | .boot | .calibrate | .erase => some stHoldActive
  | _ => none

/-- Order 3 of R363, HOLD with the slot refused (R379), SENTINEL (R402), and the modes of a command, the lowest code where
several fail (R9): the STARTUP commands run as in HOLD, in a wake from STANDBY too (R378).
[log entries 68: DEDUCED; 94: DESIGN CHOICE] -/
def gateBad (s : State) (d : Desc) : Option Status :=
  let t := descType d
  let c := descCode d
  if t = 3 then
    firstFail [(!modeAllows (if d.startup then .hold else s.mode) c, stNoResource),
      (s.mode == .sentinel && !(decide (0x0040 ≤ c) && decide (c ≤ 0x0049)), stDomainOff),
      (s.mode == .hold && s.refused && c != 0x0009 && !(decide (0x0030 ≤ c) && decide (c ≤ 0x003C)), stHoldActive)]
  else if t = 1 ∧ s.mode = .hold then some stHoldActive
  else if s.mode = .hold ∧ s.refused then some stHoldActive
  else modeGate s.mode

/-! ### Acceptance (R355, R363, R364) -/

/-- A fault of a submission ring: recorded, and at 16 in a row the ring is FAULTED (R364). -/
def faultRing (s : State) (n : Nat) (cause : Nat) : State :=
  let s := setRegBits (setRegBits s (sqBase n + 0x20) 1 0 3) (sqBase n + 0x20) 3 2 cause
  let s := setRegBits s (0x1010 + n / 32 * 4) (n % 32) (n % 32) 1
  let s := hifEvent s 0
  logEvent s (logSource 0x08 n) 0x0060 stBadDescriptor (BitVec.ofNat 24 (n + 256 * cause))

def countFault (s : State) (n : Nat) (st : Status) : State :=
  let s := logEvent s (logSource 0x08 n) 0x0060 st (BitVec.ofNat 24 n)
  let k := regBits s (sqBase n + 0x20) 8 4 + 1
  let s := setRegBits s (sqBase n + 0x20) 8 4 (min k 16)
  if k ≥ 16 ∧ regBits s (sqBase n + 0x20) 1 0 ≠ 3 then faultRing s n 1 else s

/-- The finding of orders 1 to 3, with its detail. [log entry 69: DEDUCED] -/
def checkDesc (s : State) (d : Desc) : Option (Status × BitVec 24) :=
  match order1 d with
  | some x => some (stBadDescriptor, badDetail x.1 x.2)
  | none =>
    match order2 s d with
    | some o => some (stBadAddress, badDetail o 2)
    | none => (gateBad s d).map (fun st => (st, 0))

/-- ABORT and TB_SCHED_CANCEL run ahead of every queued command (R355). -/
def runsAhead (d : Desc) : Bool := descCode d = 0x0008 || descCode d = 0x0021

/-- A descriptor of a ring still runs. -/
def ringBusy (s : State) (n : BitVec 6) : Bool := s.accepted.any (fun d => d.ring == n && !d.startup)

def descFence (d : Desc) : Bool := (dle d 1 1).testBit 1

/-- FENCE: earlier descriptors of the ring have not completed, and it is not accepted (R350).
[log entry 124: DEDUCED] -/
def fenceHolds (s : State) (d : Desc) : Bool := descFence d && !d.startup && ringBusy s d.ring

/-- A ring engine takes a descriptor: a failure completes it at once. The second value tells whether it goes on.
[log entries 69: DEDUCED; 124: DEDUCED] -/
def acceptDesc (s : State) (d : Desc) : State × Bool :=
  let n := d.ring.toNat
  let s := { s with accepted := s.accepted ++ [d] }
  match checkDesc s d with
  | some (st, det) =>
    let s := if d.startup then s
      else if st = stBadDescriptor then countFault s n st
      else if st = stBadAddress then s
      else countUp (setRegBits s (sqBase n + 0x20) 8 4 0) (sqBase n + 0x24) 31 0 1
    (complete s d st det 0, false)
  | none =>
    let s := if d.startup then s else countUp (setRegBits s (sqBase n + 0x20) 8 4 0) (sqBase n + 0x24) 31 0 1
    if descType d = 3 then
      if s.adminQ.length ≥ 64 ∧ !runsAhead d then (completeSt s d stNoResource, false)
      else ({ s with adminQ := s.adminQ ++ [d] }, true)
    else (s, true)

/-- An admin command's turn has come: no command stands before it but those it runs ahead of, and no firmware switch is in
progress (R411). [log entry 94: DESIGN CHOICE] -/
def atTurn (s : State) (d : Desc) : Bool :=
  runsAhead d || (s.fwSwitch.isNone && match s.adminQ.filter (fun x => !runsAhead x) with
    | [] => true
    | x :: _ => x == d)

end Sys2Proof.Machine
end

