-- ==== Sys2Proof/Machine/Tamper.lean ====
section
/-! DEFINITION. ERASE, the wipe of the secure partition, and tamper detections (R276, R388 to R391). -/

namespace Sys2Proof.Machine

def cfgReg (o : Nat) : Nat := 0x60000 + o
def lifecycleCode (s : State) : Nat := regBits s (cfgReg 0x30) 2 0
def tamperLatched (s : State) : Nat := regBits s (cfgReg 0x34) 4 0

/-- Ticks of the 2,048 nc that a wipe takes. [log entry 62: DESIGN CHOICE] -/
def wipeTicks : BitVec 64 := 537

/-- The secure partition is written with zeros and valid check bits; WIPING shows for the time of the wipe.
[log entry 62: DESIGN CHOICE] -/
def wipeSecure (s : State) : State :=
  setRegBits { s with store := cclear secureBase (storeWords - 1) s.store,
                      storeErr := s.storeErr.filter (fun e => e.addr.toNat < secureBase)
                      wipeEnd := some (s.epoch + wipeTicks) } 0x30004 1 1 1

/-- The wipe has ended once its time has passed. -/
def endWipe (s : State) : State :=
  if s.wipeEnd.any (fun e => e ≤ s.epoch) then setRegBits { s with wipeEnd := none } 0x30004 1 1 0 else s

/-- The owner content key unsealed with the sealing key of the present lifecycle code (R385, R388). -/
def ownerContentKey (s : State) : Option (BitVec 256) :=
  (s.ownerCk.find? (fun k => k.1 == lifecycleCode s)).map (fun k => k.2)

/-- Key registers and Vault secret area go; a transition to FIELD keeps the owner content key, sealed anew with the key of
the FIELD code beside the older copy (R388). -/
def clearKeys (s : State) : State :=
  let toField : Bool := match s.lifecycle with
    | some l => l.2 == 2
    | none => false
  let kept := match toField, ownerContentKey s with
    | true, some k => [(lifecycleCode s, k), (2, k)]
    | _, _ => []
  { s with keysGone := true, ownerCk := kept }

/-- Every kernel and every scheduler entry ends with ABORTED. -/
def stopAllWork (s : State) : State :=
  let s := stopKernels s stAborted
  { s with sched := [] }

/-- The gains are above 0. -/
def outputsActive (s : State) : Bool := (gainAt s).1 != 0

/-- ERASE begins: all work ends, the secure partition is wiped, keys are cleared (R388); an admin pass of STARTUP is cut
off. [log entry 62: DESIGN CHOICE] -/
def enterErase (s : State) : State :=
  let s := clearKeys (wipeSecure (stopAllWork { s with bootPass := none }))
  let s := setReg (setReg s 0x90010 0) 0x90004 0
  setMode s .erase

/-- HOLD with the slot refused (R379). -/
def holdRefused (s : State) : State := setMode { s with refused := true } .hold

/-- Abandon a LIFECYCLE command whose fuses are not burned yet (R391). -/
def dropLifecycle (s : State) : State :=
  match s.lifecycle with
  | some l => completeSt { s with lifecycle := none } l.1 stAborted
  | none => s

/-- Bit of a tamper source. -/
def tamperBit : TamperSource → Nat
  | .pin => 0 | .supply => 1 | .clock => 2 | .temperature => 3 | .debug => 4

/-- What a detection does in the present mode (R390, R391): one in BOOT or CALIBRATE abandons the attempt, and one during a
lifecycle ERASE leaves a burn that has begun to complete. [log entry 183: DESIGN CHOICE] -/
def tamperResponse (s : State) (erase : Bool) : State :=
  match s.mode with
  | .off => s
  | .boot | .calibrate =>
    if erase then enterErase { s with refused := true } else holdRefused { wipeSecure s with keysGone := true }
  | .standby | .sleep => { s with keysGone := true, ownerCk := [], fullBoot := true }
  | .erase =>
    let f := takeFree s
    let t := clearKeys (wipeSecure f.2)
    if s.lifecycle.isSome && Config.burnBegun f.1 then t else dropLifecycle t
  | _ =>
    if erase then
      let s := if outputsActive s then startRamp s 6 0 else s
      enterErase s
    else { wipeSecure s with keysGone := true }

/-- A source is detected (R389): an enabled one is latched, counted, recorded and answered. -/
def tamper (src : TamperSource) (s : State) : State :=
  let i := tamperBit src
  if !(reg s (cfgReg 0x34)).getLsbD (8 + i) then s
  else
    let s := countUp (setRegBits s (cfgReg 0x34) i i 1) (cfgReg 0x38) 15 0 1
    let s := logEvent s (logSource 0x0A 0) 0x0034 stOK (BitVec.ofNat 24 i)
    tamperResponse s ((reg s (cfgReg 0x34)).getLsbD (16 + i))

end Sys2Proof.Machine
end

