-- ==== Sys2Proof/Machine/RegWrite.lean ====
section
/-! DEFINITION. Writes of host-visible registers: fields with behaviour of their own, frozen and clamped fields, and the
BAR0 write rules of R339 (R5, R6, R89, R231, R271, R311 to R316, R328, R341, R342, R366, R427, R434 to R442, R441). -/

namespace Sys2Proof.Machine

/-- A plain write of an adjusted value; `extra` says that the adjustment is recorded. -/
def adjustedWrite (s : State) (o v : Nat) (extra : Bool) : State × Bool :=
  let r := plainWrite s o (BitVec.ofNat 32 v)
  (r.1, r.2 || extra)

/-- Replace the value of a field by `sub` where it is not acceptable. -/
def clampField (v hi lo : Nat) (ok : Nat → Bool) (sub : Nat) : Nat × Bool :=
  if ok (bitsOf v hi lo) then (v, false) else (putBits v hi lo sub, true)

/-- Bits that no field of a register covers are not all zero. [log entry 30: DEDUCED] -/
def reservedSet (o v : Nat) : Bool := match regLayout o with
  | some fs => v &&& (2 ^ 32 - 1 - maskOf [.rw, .ro, .w1c, .w1s, .wo, .rwl] fs) != 0
  | none => true

/-- A write of a register whose fields cannot change now: recorded only where one would change. -/
def frozenWrite (s : State) (o v : Nat) : State × Bool :=
  match regLayout o with
  | some fs =>
    let m := maskOf [.rw] fs
    (s, reservedSet o v || (v &&& m) != ((reg s o).toNat &&& m))
  | none => (s, true)

/-! ### Host memory (R345, R357) -/

/-- The device writes bytes to host memory. -/
def hostWrite (s : State) (a : Nat) (bs : List (BitVec 8)) : State := { s with host := csetList zeroes s.host a bs }

/-- The completion area of a submission ring (R345), which the device writes only as a bus master (R340).
[log entry 72: DESIGN CHOICE] -/
def writeArea (s : State) (n : Nat) (needWake : Bool) : State :=
  if !busMaster s then s else
  let a := (reg64 s (sqBase n + 0x10) (sqBase n + 0x14)).toNat
  let st := (reg s (sqBase n + 0x20)).toNat
  hostWrite s a (leBytes (reg s (sqBase n + 0x1C)).toNat 4 ++ leBytes needWake.toNat 4 ++ leBytes (bitsOf st 1 0) 4 ++
    leBytes (bitsOf st 3 2) 4 ++ List.replicate 48 0)

/-! ### Rings (R342, R364) -/

/-- ENABLE of a ring's CTRL as it stands. -/
def ringOn (s : State) (ctrl : Nat) : Bool := (reg s ctrl).getLsbD 0

/-- A write of SQ_CTRL. [log entries 50: DESIGN CHOICE; 52: DEDUCED] -/
def sqCtrlWrite (s : State) (n v : Nat) : State × Bool :=
  let o := sqBase n + 0x18
  let on := ringOn s o
  let fields := if on then (reg s o).toNat &&& 0xFFE else v &&& 0xFFE
  let frozen : Bool := on && (v &&& 0xFFE) != fields
  let extra := reservedSet o v || frozen
  if v.testBit 0 then
    if on then (s, extra)
    else
      let fits : Bool := 4 ≤ bitsOf fields 5 1 && bitsOf fields 5 1 ≤ 16 && ringOn s (cqBase (bitsOf fields 11 6) + 0x10)
      let s := setReg s o (BitVec.ofNat 32 fields)
      if fits then
        let s := setRegBits (setReg (disableSq s n) (sqBase n + 0x20) 1) o 0 0 1
        let k := s.sq[Fin.ofNat 64 n]
        let s := { s with sq := s.sq.set (Fin.ofNat 64 n) { k with cq := Fin.ofNat 64 (bitsOf fields 11 6) } }
        (writeArea s n false, extra)
      else (s, true)
  else
    let s := setReg s o (BitVec.ofNat 32 fields)
    let s := if regBits s (sqBase n + 0x20) 1 0 = 3 then s else setRegBits s (sqBase n + 0x20) 1 0 0
    (s, extra)

/-- A write of CQ_CTRL or ST_CTRL: MOD_COUNT 0 becomes 1; LOG2 and, for a stream ring, RSIZE are checked on enabling.
[log entries 50: DESIGN CHOICE; 51: DESIGN CHOICE] -/
def outCtrlWrite (s : State) (o v maxLog : Nat) (sizeOk : Bool) : State × Bool :=
  let on := ringOn s o
  let c := clampField v 19 12 (fun x => x != 0) 1
  let m := 0x3FFFFFFE
  let fields := if on then (reg s o).toNat &&& m else c.1 &&& m
  let frozen : Bool := on && (c.1 &&& m) != fields
  let extra := reservedSet o v || c.2 || frozen
  if v.testBit 0 then
    if on then (s, extra)
    else
      let fits : Bool := 4 ≤ bitsOf fields 5 1 && bitsOf fields 5 1 ≤ maxLog && sizeOk
      (setReg s o (BitVec.ofNat 32 (fields + fits.toNat)), extra || !fits)
  else (setReg s o (BitVec.ofNat 32 fields), extra)

def ringWrite (s : State) (o v : Nat) : State × Bool :=
  let r := o % 0x40
  if o < 0x3000 then
    let n := (o - 0x2000) / 0x40
    if r = 0x18 then sqCtrlWrite s n v
    else if r ≤ 0x1C ∧ ringOn s (sqBase n + 0x18) then frozenWrite s o v
    else plainWrite s o (BitVec.ofNat 32 v)
  else if o < 0x4000 then
    let base := o - r
    if r = 0x10 then
      let old := ringOn s o
      let w := outCtrlWrite s o v 16 true
      let n := Fin.ofNat 64 ((o - 0x3000) / 0x40)
      if old then w else ({ w.1 with cq := w.1.cq.set n { w.1.cq[n] with since := 0 } }, w.2)
    else if r < 0x10 ∧ ringOn s (base + 0x10) then frozenWrite s o v
    else plainWrite s o (BitVec.ofNat 32 v)
  else
    let base := o - r
    if r = 0x10 then outCtrlWrite s o v 20 (regBits s (base + 0x14) 19 0 % 64 == 0)
    else if (r < 0x10 ∨ r = 0x14) ∧ ringOn s (base + 0x10) then frozenWrite s o v
    else plainWrite s o (BitVec.ofNat 32 v)

/-- HIF_CTRL (R366, R341). -/
def hifCtrlWrite (s : State) (v : Nat) : State × Bool :=
  let a := clampField v 6 0 (fun x => 1 ≤ x && x ≤ 100) 100
  let b := clampField a.1 23 8 (fun x => x != 0) 1
  adjustedWrite s 0x1000 b.1 (a.2 || b.2)

/-! ### Timebase (R311 to R316, R328 to R330) -/

/-- TB_CTRL: setting DISCIPLINE starts the discipline anew. -/
def tbCtrlWrite (s : State) (v : Nat) : State × Bool :=
  let old := (reg s 0x50000).getLsbD 0
  let r := plainWrite s 0x50000 (BitVec.ofNat 32 v)
  if (reg r.1 0x50000).getLsbD 0 ∧ !old then ({ r.1 with ppsSeen := false, ppsRun := 0 }, r.2) else r

/-- TB_TRIM: ignored under DISCIPLINE, else clamped. -/
def trimWrite (s : State) (v : Nat) : State × Bool :=
  if (reg s 0x50000).getLsbD 0 then (s, true)
  else
    let x := BitVec.ofNat 32 v
    (setReg s 0x50010 (clampTrim x), clampTrim x != x)

/-- TB_ETIO_OWN: a reserved owner is ignored, and a ball given to the scheduler starts at its IDLE level. -/
def etioOwnWrite (s : State) (o v : Nat) : State × Bool :=
  let c := (List.range 4).foldl (fun (a : Nat × Bool) k =>
    if bitsOf a.1 (8 * k + 4) (8 * k) ≥ 18 then (putBits a.1 (8 * k + 4) (8 * k) (regBits s o (8 * k + 4) (8 * k)), true) else a) (v, false)
  let m := (o - 0x50600) / 4
  let before := fun (k : Nat) => etioOwner s (4 * m + k)
  let r := adjustedWrite s o c.1 c.2
  ((List.range 4).foldl (fun s k => if before k ≠ 16 ∧ etioOwner s (4 * m + k) = 16 then etioGive s (4 * m + k) else s) r.1, r.2)

/-- ET_CFG: the direction bit follows DIR, and an up/down timer that starts counts upward (R328, R329).
[log entry 54: DESIGN CHOICE] -/
def etCfgWrite (s : State) (t : Fin 16) (v : Nat) : State × Bool :=
  let o := etReg t 0
  let was := (reg s o).getLsbD 27
  let r := plainWrite s o (BitVec.ofNat 32 v)
  let cfg := (reg r.1 o).toNat
  let dir := bitsOf cfg 1 0
  let s := if dir = 0 then setRegBits r.1 (etReg t 0x34) 4 4 0
    else if dir = 1 then setRegBits r.1 (etReg t 0x34) 4 4 1
    else if dir = 2 ∧ !was ∧ cfg.testBit 27 then setRegBits r.1 (etReg t 0x34) 4 4 0 else r.1
  (etLook false t s, r.2)

def timerWrite (s : State) (o v : Nat) : State × Bool :=
  let t := Fin.ofNat 16 ((o - 0x51000) / 0x40)
  let x := BitVec.ofNat 32 v
  match o % 0x40 with
  | 0x00 => etCfgWrite s t v
  | 0x04 | 0x08 =>
    if (reg s (etReg t 0)).getLsbD 27 then (s, reservedSet o v)
    else
      let r := plainWrite s o x
      (etLook false t r.1, r.2)
  | 0x0C => etStage t .period x s
  | 0x10 => etCommitWrite t .period x s
  | 0x14 => etStage t .cmp x s
  | 0x18 => etCommitWrite t .cmp x s
  | 0x38 => etStage t .safe x s
  | 0x3C => etCommitWrite t .safe x s
  | _ => plainWrite s o x

def tbWrite (s : State) (o v : Nat) : State × Bool :=
  let r := o - 0x50000
  if r = 0 then tbCtrlWrite s v
  else if r = 0x10 then trimWrite s v
  else if 0x100 ≤ r ∧ r < 0x200 ∧ r % 0x20 = 0 then phModeWrite (Fin.ofNat 8 ((r - 0x100) / 0x20)) (BitVec.ofNat 32 v) s
  else if r = 0x600 ∨ r = 0x604 then etioOwnWrite s o v
  else if 0x1000 ≤ r then timerWrite s o v
  else plainWrite s o (BitVec.ofNat 32 v)

/-! ### Store windows (R271) -/

def storeRegWrite (s : State) (o v : Nat) : State × Bool :=
  let r := o - 0x30000
  if 0x100 ≤ r ∧ r < 0x300 then
    let w := Fin.ofNat 16 ((r - 0x100) / 0x20)
    if r % 0x20 = 0x0C then winCtrlWrite s w (BitVec.ofNat 32 v)
    else if r % 0x20 ≠ 0x18 ∧ winOn s w then (s, true)
    else plainWrite s o (BitVec.ofNat 32 v)
  else plainWrite s o (BitVec.ofNat 32 v)

/-! ### Peer links (R427, R441) -/

/-- PEER_CTRL: links whose EN sets are powered and train; links whose EN clears go DOWN. -/
def peerCtrlWrite (s : State) (v : Nat) : State × Bool :=
  let c := clampField v 6 3 (fun x => 1 ≤ x && x ≤ 8) 1
  let r := adjustedWrite s 0x80000 c.1 c.2
  let s := (List.finRange 2).foldl (fun t l =>
    if peerEnabled t l && !peerEnabled s l then peerOn t l
    else if !peerEnabled t l && peerEnabled s l then peerOff t l else t) r.1
  (s, r.2)

/-! ### Debug (R434 to R440, R442) -/

/-- The check of the debug response; the third failure in a row is a tamper event (R389, R435). -/
def checkUnlock (s : State) (ok : Bool) : State :=
  let r := unlockCheck s ok
  if r.2 then tamper .debug r.1 else r.1

def dbgWrite (s : State) (o v : Nat) : State × Bool :=
  let x := BitVec.ofNat 32 v
  let extra := reservedSet o v
  let r := o - 0x90000
  if dbgHidden o && !debugOpen s then (s, true)
  else if r = 0x004 then (requestHalts s (x.extractLsb' 0 16), extra)
  else if r = 0x008 then (resumeBows s (x.extractLsb' 0 16), extra)
  else if r = 0x00C then (stepBow s (Fin.ofNat 16 (v % 16)) (if x.getLsbD 4 then .u else .n), extra)
  else if 0x100 ≤ r ∧ r < 0x500 ∧ (r % 0x40 = 0x20 ∨ r % 0x40 = 0x24) then
    writeDebugItem s (Fin.ofNat 16 ((r - 0x100) / 0x40)) (r % 0x40 == 0x24) x
  else if 0x840 ≤ r ∧ r < 0x8A0 then (setReg s o x, false)
  else if r = 0x8A0 then
    let s := if x.getLsbD 0 then checkUnlock s (responseOk s) else s
    (if x.getLsbD 1 then unlockLock s else s, extra)
  else plainWrite s o x

/-! ### A register by its BAR0 offset -/

/-- Write a register; the second value tells whether the write is to be recorded. -/
def writeReg (s : State) (o : Nat) (value : Reg32) : State × Bool :=
  let v := value.toNat
  match regLayout o with
  | none => (s, true)
  | some _ =>
    if o = 0x1000 then hifCtrlWrite s v
    else if 0x2000 ≤ o ∧ o < 0x5000 then ringWrite s o v
    else if 0x10000 ≤ o ∧ o < 0x20000 then
      if o % 0x1000 = 0x008 then
        let c := clampField v 14 8 (fun x => 1 ≤ x && x ≤ 64) 64
        adjustedWrite s o c.1 c.2
      else if o % 0x1000 = 0x0C0 then
        let c := clampField v 6 1 (fun x => 1 ≤ x && x ≤ 32) 32
        adjustedWrite s o c.1 c.2
      else plainWrite s o value
    else if 0x30000 ≤ o ∧ o < 0x40000 then storeRegWrite s o v
    else if 0x50000 ≤ o ∧ o < 0x60000 then tbWrite s o v
    else if o = 0x80000 then peerCtrlWrite s v
    else if 0x90000 ≤ o ∧ o < 0xA0000 then dbgWrite s o v
    else plainWrite s o value

/-- A host or DAP write of BAR0 (R339): byte enables not all set, and offsets without a register, are ignored and
recorded. A write of the MSI-X table may open vectors. -/
def bar0Write (s : State) (o : Nat) (v : Reg32) (full : Bool) : State :=
  if !full ∨ o ≥ 0x100000 then regWarn s o
  else
    let t := warned o (writeReg s o v)
    if 0x8000 ≤ o ∧ o < 0x8400 then flushMsix t else t

/-! ### HIF_WAKE (R347, R348) -/

/-- A write of the wake page: an idle ring is polled again; any other wake is counted as ignored. -/
def hifWake (s : State) (v : Reg32) : State :=
  let n := v.toNat
  if n ≥ 64 then countUp s 0x1018 31 16 1
  else if regBits s (sqBase n + 0x20) 1 0 = 2 ∧ ringOn s (sqBase n + 0x18) then
    let s := countUp (setRegBits s (sqBase n + 0x20) 1 0 1) 0x1018 15 0 1
    let k := s.sq[Fin.ofNat 64 n]
    writeArea { s with sq := s.sq.set (Fin.ofNat 64 n) { k with idlePolls := 0 } } n false
  else countUp s 0x1018 31 16 1

/-! ### BAR2 and configuration space (R336 to R340, R365) -/

/-- A write of BAR2: HIF_WAKE at offset 0, no register elsewhere. -/
def bar2Write (s : State) (o : Nat) (v : Reg32) (full : Bool) : State :=
  if !full ∨ o ≠ 0 then regWarn s o else hifWake s v

/-- Function Level Reset (0) and PERST_N (1), recorded.
[log entries 58: PRESUMED; 78: DESIGN CHOICE; 123: DEDUCED] -/
def hostReset (cause : Nat) (s : State) : State :=
  logEvent (hifReset s) (logSource 0x08 0) 0x0061 stOK (BitVec.ofNat 24 cause)

/-- A configuration write: a Retry Status before the function is set up (R337), Initiate Function Level Reset in Device
Control, else a plain register; a power state other than D0 and D3hot is ignored, and messages held back are sent where
their vectors open. [log entry 182: PRESUMED] -/
def configWrite (s : State) (o : Nat) (v : Reg32) : State :=
  if !hostLinkUp s then s
  else if o = 0x78 ∧ v.getLsbD 15 then hostReset 0 s
  else if o = 0x44 ∧ ¬(bitsOf v.toNat 1 0 = 0 ∨ bitsOf v.toNat 1 0 = 3) then s
  else flushMsix (plainWrite s (pciReg o) v).1

/-- A configuration read: none where the answer is a Retry Status (R337). -/
def configRead (s : State) (o : Nat) : Option Reg32 := if hostLinkUp s then some (regView s (pciReg o)) else none

/-- A poisoned write of BAR0 or BAR2 is discarded and reported (R365). [log entry 182: PRESUMED] -/
def poisonedWrite (s : State) : State :=
  logEvent (aerNote s 12) (logSource 0x08 0) 0x0060 stBadDescriptor 0

/-- A write of the host. -/
def hostRegWrite (p : HostPlace) (v : Reg32) (full : Bool) (s : State) : State :=
  let o := p.offset.toNat
  match p.space with
  | .bar0 => if p.poisoned then poisonedWrite s else bar0Write s o v full
  | .bar2 => if p.poisoned then poisonedWrite s else bar2Write s (o % 0x1000) v full
  | .config => if full && !p.poisoned then configWrite s (o % 0x1000) v else s

end Sys2Proof.Machine
end

