-- ==== Sys2Proof/Machine/Network.lean ====
section
/-! DEFINITION. Meanings of the packets (R245, R255, R264, R273, R274, R292, R293): what the client of a destination
does with a request, and what a requester does with a response. -/

namespace Sys2Proof.Machine

/-! ### Register files (R255, R279, R335, R52) -/

/-- BAR0 offset (or offset of a course's file from 0x100000) of the register that an identity and an offset name; none
where the identity has no register file. [log entry 61: DEDUCED] -/
def fileBase (s : State) (dst : BitVec 12) : Option Nat :=
  let n := instOf dst
  match clsOf dst with
  | 0x0 => some (0x100000 + n * 0x400)
  | 0x2 => some 0x30000
  | 0x5 => some 0x50000
  | 0xA => (logicalOf s (Fin.ofNat 68 n)).map (fun c => 0x100000 + c.val * 0x400)
  | _ => none

/-- An offset lies within the register range of its target. -/
def fileRange (dst : BitVec 12) (o : Nat) : Bool :=
  o % 4 == 0 && (match clsOf dst with
    | 0x0 | 0xA => o < 0x400
    | 0x2 => o < 0x300
    | 0x5 => o < 0x1400
    | _ => true)

/-- Identities that serve register-access packets. -/
def hasFile (dst : BitVec 12) : Bool := clsOf dst == 0 || clsOf dst == 2 || clsOf dst == 5 || clsOf dst == 0xA

/-- A register-access read within the range: 0 where no register lies. [log entry 61: DEDUCED] -/
def fileRead (s : State) (dst : BitVec 12) (o : Nat) : State × Word :=
  match fileBase s dst with
  | none => (s, 0)
  | some b =>
    match regLayout (b + o) with
    | none => (s, 0)
    | some fs => (noteRead s (b + o), (regView s (b + o) &&& ~~~(BitVec.ofNat 32 (maskOf [.wo] fs))).setWidth 40)

/-- SOURCE of a record about a register file (R422). [log entry 61: DEDUCED] -/
def fileSource (dst : BitVec 12) : BitVec 16 := match clsOf dst with
  | 0x0 => logSource 0x01 (instOf dst)
  | 0x2 => logSource 0x03 0
  | 0x5 => logSource 0x09 0
  | _ => logSource 0x0F (instOf dst)

/-- LANES of a REG_WR name the whole register; others leave it as it is, as byte enables of BAR0 do (R244, R339).
[log entry 177: DESIGN CHOICE] -/
def wholeReg (p : Packet) : Bool := p.lanes &&& 0b01111 == 0b01111

/-- A register-access write within the range; `req` is the request to acknowledge. [log entry 61: DEDUCED] -/
def fileWrite (s : State) (dst : BitVec 12) (o : Nat) (v : Reg32) (req : Option Packet) : State :=
  match clsOf dst with
  | 0x0 => courseRegWrite s (Fin.ofNat 64 (instOf dst)) o v req
  | 0xA =>
    match logicalOf s (Fin.ofNat 68 (instOf dst)) with
    | some c => courseRegWrite s c o v req
    | none => ackWrite (regWarnAt s (fileSource dst) o) req stOK
  | _ =>
    match fileBase s dst with
    | some b =>
      let r := writeReg s (b + o) v
      ackWrite (if r.2 then regWarnAt r.1 (fileSource dst) o else r.1) req stOK
    | none => s

/-! ### Requests at their destination -/

/-- A request that the fabric logic of a port receives (R293). -/
def toFabric (t : Nat) (p : Packet) (s : State) : State :=
  let f := Fin.ofNat 4 (instOf p.dst)
  let s := fpReceive s f (mkSent t p)
  let k := s.fp[f]
  if wantsResp t p then setFp s f { k with pend := k.pend ++ [p] } else s

/-- The answer of a request that expects one. -/
def answer (t : Nat) (p : Packet) (st : Status) (data : List Word) (s : State) : State :=
  if wantsResp t p then respond s p st data else s

/-- The answer of a request that the store has carried out: a status other than OK is a failure of order 4 (R255, R264). -/
def answerStore (t : Nat) (p : Packet) (np : Nat × Nat) (st : Status) (data : List Word) (s : State) : State :=
  answer t p st data (if st = stOK then s else noteFail s t np st)

/-- A request for the store or the fabric; every other client serves no such type. -/
def atStore (t : Nat) (p : Packet) (np : Nat × Nat) (f : State → State) (s : State) : State :=
  if clsOf p.dst = 2 then f s
  else if clsOf p.dst = 3 then toFabric t p s
  else failAt s t p np stBadDescriptor

/-- Check 2 of R255 by destination. [log entry 25: DEDUCED] -/
def rangeOk (t : Nat) (s : State) (p : Packet) : Bool :=
  if t = ptRegRd ∨ t = ptRegWr then fileRange p.dst p.addr.toNat
  else if clsOf p.dst = 2 then storeRange t s p else true

def rdBody (meets : List (Nat × Meet)) (p : Packet) (np : Nat × Nat) (s : State) : State :=
  atStore ptRd p np (fun s =>
    let r := readRun false p.addr.toNat meets p.words.toNat s
    answerStore ptRd p np r.2.2 r.2.1 r.1) s

def wrBody (meets : List (Nat × Meet)) (p : Packet) (np : Nat × Nat) (s : State) : State :=
  atStore ptWr p np (fun s =>
    if p.lanes = 0 then failAt s ptWr p np stBadDescriptor
    else
      let r := writeRun false p.lanes meets ((List.range p.words.toNat).map (fun i => p.data.getD i 0)) p.addr.toNat s
      answerStore ptWr p np r.2 [] r.1) s

def atomicBody (f : Word → Word → Word) (meet : Meet) (p : Packet) (np : Nat × Nat) (s : State) : State :=
  atStore ptAtomic p np (fun s =>
    if p.lanes ≠ 0b11111 then failAt s ptAtomic p np stBadDescriptor
    else
      let r := atomicWord false s p.addr.toNat (fun old => f old (p.data.headD 0)) meet
      answerStore ptAtomic p np r.2.status [r.2.word] r.1) s

def advanceBody (p : Packet) (np : Nat × Nat) (s : State) : State :=
  atStore ptAtomic p np (fun s =>
    if p.lanes ≠ 0b11111 then failAt s ptAtomic p np stBadDescriptor
    else
      match advanceBad s p.addr (p.data.headD 0) with
      | some st => failAt s ptAtomic p np st
      | none =>
        let r := advanceWindow s (Fin.ofNat 16 (p.addr.toNat % 16)) (p.addr.getLsbD 4) (advanceAmount (p.data.headD 0))
        answer ptAtomic p stOK [r.2] r.1) s

def regRdBody (p : Packet) (np : Nat × Nat) (s : State) : State :=
  if clsOf p.dst = 3 then toFabric ptRegRd p s
  else if !hasFile p.dst then failAt s ptRegRd p np stBadDescriptor
  else
    let r := fileRead s p.dst p.addr.toNat
    answer ptRegRd p stOK [r.2] r.1

def regWrBody (p : Packet) (np : Nat × Nat) (s : State) : State :=
  if clsOf p.dst = 3 then toFabric ptRegWr p s
  else if !hasFile p.dst then failAt s ptRegWr p np stBadDescriptor
  else
    let req := if wantsResp ptRegWr p then some p else none
    if wholeReg p then fileWrite s p.dst p.addr.toNat ((p.data.headD 0).setWidth 32) req
    else ackWrite (regWarnAt s (fileSource p.dst) p.addr.toNat) req stOK

/-- Bytes of words in host memory (R352): 8 bytes a word, or 5 when packed. [log entry 59: DESIGN CHOICE] -/
def wordBytes (pack : Bool) (ws : List Word) : List (BitVec 8) := ws.flatMap (fun w => leBytes w.toNat (if pack then 5 else 8))

/-- Words written to host memory under LANES: a lane that is not enabled keeps its byte (R244).
[log entry 177: DESIGN CHOICE] -/
def hostWriteLanes (s : State) (a : Nat) (lanes : BitVec 5) (ws : List Word) : State :=
  if lanes = 0b11111 then hostWrite s a (wordBytes false ws)
  else ((List.range ws.length).zip ws).foldl (fun s w => (List.range 8).foldl (fun s j =>
    if lanes.getLsbD j || 5 ≤ j then hostWrite s (a + 8 * w.1 + j) [BitVec.ofNat 8 (w.2.toNat / 2 ^ (8 * j))] else s) s) s

def hostRdBody (reply : Option (List Word)) (p : Packet) (np : Nat × Nat) (s : State) : State :=
  if clsOf p.dst = 4 then
    match reply with
    | some ws => answer ptHostRd p stOK ((List.range p.words.toNat).map (fun i => ws.getD i 0)) s
    | none => answer ptHostRd p stTimeout [] (hifEvent s 3)
  else if clsOf p.dst = 3 then toFabric ptHostRd p s
  else failAt s ptHostRd p np stBadDescriptor

def hostWrBody (p : Packet) (np : Nat × Nat) (s : State) : State :=
  if clsOf p.dst = 4 then
    let ws := (List.range p.words.toNat).map (fun i => p.data.getD i 0)
    answer ptHostWr p stOK [] (hostWriteLanes s p.host.toNat p.lanes ws)
  else if clsOf p.dst = 3 then toFabric ptHostWr p s
  else failAt s ptHostWr p np stBadDescriptor

/-! ### Responses -/

/-- Write a response's word to the destination operand of its instruction, in an open window to the checkpoint too. -/
def writeDst (s : State) (b : Fin 16) (c : Ctx) (dst : BitVec 20) (v : Word) : State :=
  if isMem dst then
    let w := bow s b
    let a := (fieldOf dst).toNat
    setBow s b { w with dmem := cset zeroes w.dmem a v, dmemErr := w.dmemErr.filter (fun x => x.addr.toNat != a) }
  else deliverTo s b c { reg := dst.extractLsb' 0 4, value := v, left := 0, spec := false }

/-- BF.V and LASTSTATUS after a response. -/
def noteStatus (s : State) (b : Fin 16) (c : Ctx) (st : Status) : State :=
  let bad : Bool := st != stOK
  let k := ctx s b c
  let s := setCtx s b c { k with bf := putBf k.bf bfV bad, lastStatus := if bad then st else k.lastStatus }
  match (bow s b).window with
  | some win => if win.ctx = c then
      setBow s b { bow s b with window := some { win with ck := { win.ck with bf := putBf win.ck.bf bfV bad } } } else s
  | none => s

/-- The trap of a load whose word holds an uncorrectable error (R156): TRAPPC and TRAPWORD are the load's.
[log entry 33: DEDUCED] -/
def loadTrap (s : State) (b : Fin 16) (c : Ctx) (pc : BitVec 13) (word : IWord) : State :=
  let k := ctx s b c
  let run := k.run
  let s := takeTrap (setCtx s b c { k with pc, wait := none, micro := none }) b c word causeEcc
  let k := ctx s b c
  if k.job.isSome ∧ (run = .preempted ∨ run = .halted) then setCtx s b c { k with run } else s

/-- The context of a bow that a response names. -/
def respCtx (p : Packet) : Ctx := if p.tag.getLsbD 7 then .u else .n

def respStatus (p : Packet) : Status := knownStatus (p.addr.setWidth 8)

/-- A response reaches a bow (R156, R157). -/
def bowResponse (s : State) (b : Fin 16) (p : Packet) : State :=
  let c := respCtx p
  let k := ctx s b c
  let st := respStatus p
  match k.asks.find? (fun a => a.tag == p.tag) with
  | none => s
  | some a =>
    let k := { k with asks := k.asks.erase a }
    match a.kind with
    | .gone => setCtx s b c k
    | .line base num => lineArrives (setCtx s b c k) b base num st p.data
    | .post => setCtx s b c (if st = stOK ∨ k.ackBad.isSome then k else { k with ackBad := some st })
    | .load dst pc word =>
      let s := noteStatus (setCtx s b c k) b c st
      if st = stEccUncorrected then loadTrap s b c pc word
      else writeDst s b c dst (if st = stOK ∨ st = stUndefRead then p.data.headD 0 else 0)

/-- A load's response that raises a trap waits while the context runs ahead (R219). -/
def respWaits (s : State) (p : Packet) : Bool :=
  let b := Fin.ofNat 16 (instOf p.dst)
  clsOf p.dst == 1 && p.ddev == ownDev s && respStatus p == stEccUncorrected && (match (bow s b).window with
    | some win => win.ctx == respCtx p && (ctx s b (respCtx p)).asks.any (fun a => a.tag == p.tag && (match a.kind with
      | .load _ _ _ => true
      | _ => false))
    | none => false)

/-- A transfer's completion (R353, R357): RESULT is the number of words or registers moved. -/
def completeTransferDesc (s : State) (d : Desc) (st : Status) (moved : Nat) : State :=
  complete s d st 0 (BitVec.ofNat 64 moved)

/-- A register write of a mover is acknowledged (R51, R353): the last acknowledgement completes the transfer.
[log entry 88: DEDUCED] -/
def moverResponse (s : State) (m : Fin 8) (p : Packet) : State :=
  let st := respStatus p
  match s.ackWaits.find? (fun w => w.mover == m && w.tags.contains p.tag) with
  | none => s
  | some w =>
    let tags := w.tags.erase p.tag
    let w' := { w with tags, bad := if st = stOK ∨ w.bad.isSome then w.bad else some st
                       moved := if st = stOK then w.moved + 1 else w.moved }
    if tags.isEmpty then
      completeTransferDesc { s with ackWaits := s.ackWaits.erase w } w.desc
        (match w'.bad with | some b => b | none => stOK) w'.moved
    else { s with ackWaits := w' :: s.ackWaits.erase w }

/-- The client of a response: the longest request-to-response time is kept by its NI (R257).
[log entry 33: DEDUCED] -/
def respBody (nc : Nat) (p : Packet) (np : Nat × Nat) (s : State) : State :=
  let s := raiseTo s (niReg np 0x14) 15 0 nc
  let n := instOf p.dst
  match clsOf p.dst with
  | 0x0 => channelResponse s (Fin.ofNat 64 n) p
  | 0x1 => bowResponse s (Fin.ofNat 16 n) p
  | 0x3 => fpAnswered s (Fin.ofNat 4 n) p true
  | 0x6 => moverResponse s (Fin.ofNat 8 n) p
  | _ => s

/-- A line arrives whose request has left: the store answers the request where it is still on its way, and the response
reaches the bow (R64). -/
def finishLine (b : Fin 16) (image : BitVec 21) (num : BitVec 10) (meets : List (Nat × Meet)) (s : State) : State :=
  match (ctx s b .n).asks.find? (fun a => a.kind == .line image num) with
  | some a =>
    let mine := fun (x : Sent) (id : BitVec 12) => x.pkt.tag == a.tag && id == ident 1 b.val
    let s := match s.flight.find? (fun x => x.type.toNat == ptRd && mine x x.pkt.src && x.pkt.sdev == ownDev s) with
      | some x => arrive ptRd x.pkt (rangeOk ptRd) (rdBody meets) s
      | none => s
    match s.flight.find? (fun x => x.type.toNat == ptResp && mine x x.pkt.dst && x.pkt.ddev == ownDev s) with
    | some x => arrive ptResp x.pkt anyRange (respBody 0) s
    | none => s
  | none => s

/-! ### Meanings -/

def execIstoreLineFill (bow : Fin 16) (image : BitVec 21) (line : BitVec 10) (reads : List Nat)
    (writes : List (Nat × BitVec 5 × Word)) (atomics : List (Nat × Word)) (s : State) :
    Host.Outcome State Fault Refusal :=
  .next (if (s.bows[bow]).asked.any (fun q => q.base == image && q.num == line && q.sent)
    then finishLine bow image line (portMeets reads writes atomics) s
    else fillLine bow image line (portMeets reads writes atomics) s)

def execRd (p : Packet) (meets : List (Nat × Meet)) (s : State) : Host.Outcome State Fault Refusal :=
  .next (arrive ptRd p (rangeOk ptRd) (rdBody meets) s)
def execWr (p : Packet) (meets : List (Nat × Meet)) (s : State) : Host.Outcome State Fault Refusal :=
  .next (arrive ptWr p (rangeOk ptWr) (wrBody meets) s)
/-- An ATOMIC of one operation: ARG[1:0] names it, and its other bits stay as they came (R245). -/
def atomicPacket (op : BitVec 6) (p : Packet) : Packet := { p with arg := (p.arg &&& 0b111100) ||| op }

def execFetchAdd (p : Packet) (meet : Meet) (s : State) : Host.Outcome State Fault Refusal :=
  .next (arrive ptAtomic (atomicPacket 0 p) (rangeOk ptAtomic) (atomicBody (fun old v => old + v) meet) s)
def execSwap (p : Packet) (meet : Meet) (s : State) : Host.Outcome State Fault Refusal :=
  .next (arrive ptAtomic (atomicPacket 1 p) (rangeOk ptAtomic) (atomicBody (fun _ v => v) meet) s)
def execRingAdvance (p : Packet) (s : State) : Host.Outcome State Fault Refusal :=
  .next (arrive ptAtomic (atomicPacket 2 p) (rangeOk ptAtomic) advanceBody s)
def execRegRd (p : Packet) (s : State) : Host.Outcome State Fault Refusal :=
  .next (arrive ptRegRd p (rangeOk ptRegRd) regRdBody s)
def execRegWr (p : Packet) (s : State) : Host.Outcome State Fault Refusal :=
  .next (arrive ptRegWr p (rangeOk ptRegWr) regWrBody s)
def execHostRd (p : Packet) (reply : Option (List Word)) (s : State) : Host.Outcome State Fault Refusal :=
  .next (arrive ptHostRd p anyRange (hostRdBody reply) s)
def execHostWr (p : Packet) (s : State) : Host.Outcome State Fault Refusal :=
  .next (arrive ptHostWr p anyRange hostWrBody s)

/-- NOTIFY carries content that its sender defines, and no client's reaction is given (R245), but that a logical course and
the store serve no such packet (R47, R264). [log entry 60: DESIGN CHOICE] -/
def notifyBody (p : Packet) (np : Nat × Nat) (s : State) : State :=
  if clsOf p.dst = 0 ∨ clsOf p.dst = 2 ∨ clsOf p.dst = 0xA then failAt s ptNotify p np stBadDescriptor
  else if clsOf p.dst = 3 then fpReceive s (Fin.ofNat 4 (instOf p.dst)) (mkSent ptNotify p) else s

def execNotify (p : Packet) (s : State) : Host.Outcome State Fault Refusal :=
  .next (arrive ptNotify p anyRange notifyBody s)
def execResp (p : Packet) (nc : Nat) (s : State) : Host.Outcome State Fault Refusal :=
  .next (if respWaits s p then s else arrive ptResp p anyRange (respBody nc) s)

end Sys2Proof.Machine
end

