-- ==== Sys2Proof/Machine/Submit.lean ====
section
/-! DEFINITION. Arming and firing scheduler entries, submitting kernels and transfers, and what a mover does with a
transfer (R82, R85 to R88, R321 to R327, R352, R353). -/

namespace Sys2Proof.Machine

/-! ### Arming (R321, R324, R351) -/

/-- Put an entry into the scheduler; none where all 256 are in use. [log entry 91: DESIGN CHOICE] -/
def armEntry (s : State) (e : SchedEntry) : Option State :=
  if s.sched.length ≥ 256 then none
  else some { s with sched := s.sched ++ [{ e with armNo := s.nextArm, late := reached (refValue s e.ref.toNat) e.target }],
                     nextArm := s.nextArm + 1 }

/-- The LAUNCH entry of a kernel descriptor. -/
def launchEntry (d : Desc) : SchedEntry :=
  { armNo := 0, ref := BitVec.ofNat 4 (byteAt d 0x28), target := BitVec.ofNat 40 (dle d 0x20 8), action := 0, arg := 0,
    incr := 0, count := 0, wake := kFlag d 6, tag := BitVec.ofNat 16 (dle d 0x2A 2), desc := d, kernel := true, late := false, pin := none }

/-- The LAUNCH entry of an expansion whose reshape waits for the end of a migration (R409): due at once.
[log entry 45: DEDUCED] -/
def heldEntry (s : State) (d : Desc) : SchedEntry := { launchEntry d with ref := 8, target := refValue s 8 }

/-- Arm a kernel (R87): courses are reserved and the image is pinned where R87 and R67 say so.
[log entry 47: DEDUCED] -/
def armKernel (s : State) (d : Desc) (e : SchedEntry) : State :=
  let j := newJob d false
  let r := if kUrgent d && !takesGroup s d then reserveExpansion s d else some s
  match r with
  | none => refuseJob s j stNoResource
  | some t =>
    let p := match armBow t d with
      | some b => pinJob t b j
      | none => (t, j, false)
    if p.2.2 then refuseJob (giveUpExpansion p.1 d) p.2.1 stNoResource
    else
      match armEntry p.1 { e with pin := p.2.1.pin } with
      | some u => u
      | none => refuseJob (giveUpExpansion p.1 d) p.2.1 stNoResource

/-! ### Kernels (R66, R82) -/

/-- The fences of a descriptor are in order. -/
def fencesBad (d : Desc) : Bool := dle d 0x18 2 > dle d 0x1A 2 || dle d 0x1C 2 > dle d 0x1E 2

/-- Checks of a kernel's own chapter (order 4 of R363). [log entry 49: DEDUCED] -/
def kernelBad (s : State) (d : Desc) : Option Status :=
  firstFail [(groupMismatch s d || fencesBad d, stBadDescriptor), (kReload d && imagePinned s (kImage d), stNoResource)]

/-- An accepted kernel descriptor is armed, launched or queued. [log entry 46: DEDUCED] -/
def submitKernel (s : State) (d : Desc) : State :=
  match kernelBad s d with
  | some st => refuseJob s (newJob d false) st
  | none =>
    let s := if kReload d then dropImage s (kImage d) else s
    if kTrigger d then armKernel s d (launchEntry d)
    else if kUrgent d && !takesGroup s d && reshapeHeld s (kBow d) then armKernel s d (heldEntry s d)
    else if kUrgent d then launchUrgent s (newJob d false)
    else placeKernel s (newJob d false)

/-! ### Firing (R322 to R326) -/

/-- A latch set (R325). -/
def takeLatch (s : State) (tag : BitVec 16) : State :=
  let seq := reg s 0x5040C
  let o := 0x50800 + seq.toNat % 16 * 0x80
  let s := setReg64 s o (o + 4) s.epoch
  let s := (List.finRange 8).foldl (fun t n => setReg40 t (o + 8 + 8 * n.val) (o + 12 + 8 * n.val) (phValue s n)) s
  let s := setReg (setReg s (o + 0x48) seq) (o + 0x4C) (tag.setWidth 32)
  setReg s 0x5040C (seq + 1)

/-- An event-line action (R322): 1 pulse, 2 set, 3 clear, 4 toggle. [log entry 89: DEDUCED] -/
def evAction (s : State) (code arg : Nat) : State :=
  let n := Fin.ofNat 16 (arg % 16)
  match code with
  | 1 => setEv s n true (BitVec.ofNat 8 (arg / 16))
  | 2 => setEv s n true 0
  | 3 => setEv s n false 0
  | _ => setEv s n (s.pulse[n] != 0 || !s.ev.getLsbD n.val) 0

/-- The launch of an entry's kernel (R322, R402). [log entry 89: DEDUCED] -/
def fireLaunch (s : State) (e : SchedEntry) : State :=
  let j := entryJob e
  if s.mode = .sentinel then refuseJob (giveUpExpansion s e.desc) j stDomainOff
  else if kUrgent e.desc then requestLaunch s j
  else placeKernel s j

/-- The completion of a POST action. [log entry 93: DEDUCED] -/
def firePost (s : State) (e : SchedEntry) : State :=
  pushCompletion s (Fin.ofNat 64 (e.arg.toNat % 64))
    { tag := e.tag.setWidth 32, status := stOK, ring := 0x80, type := 0, cflags := if e.late then 2 else 0, detail := 0,
      extra := 0, result := (refValue s e.ref.toNat).setWidth 64, irq := false }

/-- The action of an entry. [log entry 89: DEDUCED] -/
def fireAction (s : State) (e : SchedEntry) : State :=
  let s := if e.late then countUp s 0x50404 31 0 1 else s
  let a := e.action.toNat
  if a = 0 then fireLaunch s e
  else if a ≤ 4 then evAction s a e.arg.toNat
  else if a ≤ 7 then etioAction s a (e.arg.toNat % 8)
  else if a = 8 then takeLatch s e.tag
  else firePost s e

/-- Order of an entry among those of one tt (R323). -/
def fireClass (e : SchedEntry) : Nat :=
  let a := e.action.toNat
  if a = 8 then 0 else if a = 0 then 2 else if a = 9 then 3 else 1

/-- The entry after a firing: re-armed, or none. -/
def reArm (s : State) (e : SchedEntry) : Option SchedEntry :=
  if e.incr = 0 ∨ e.count = 1 then none
  else
    let t := e.target + e.incr
    some { e with target := t, count := if e.count = 0 then 0 else e.count - 1, late := reached (refValue s e.ref.toNat) t }

/-- An entry is due once its target is reached, be its reference STALLED or OFF. [log entry 151: DESIGN CHOICE] -/
def entryDue (s : State) (e : SchedEntry) : Bool := reached (refValue s e.ref.toNat) e.target

/-- A LAUNCH entry whose reshape waits for the end of a migration (R409). [log entry 45: DEDUCED] -/
def launchHeld (s : State) (e : SchedEntry) : Bool :=
  e.kernel && kUrgent e.desc && !takesGroup s e.desc && reshapeHeld s (kBow e.desc)

/-- An entry fires now, or is missed. -/
def entryFires (s : State) (e : SchedEntry) : Bool := entryDue s e && !launchHeld s e

/-- Fire entries in the order of R323. -/
def fireAll (s : State) (due : List SchedEntry) : State :=
  (List.range 4).foldl (fun s k => (due.filter (fun e => fireClass e == k)).foldl fireAction s) s

/-- The entry is one that fires in the low-power modes: LATCH and ETIO (R327). -/
def firesLow (e : SchedEntry) : Bool := e.action.toNat == 8 || (5 ≤ e.action.toNat && e.action.toNat ≤ 7)

/-- A LAUNCH, EV or POST entry missed in STANDBY or SLEEP (R327). [log entry 92: DESIGN CHOICE] -/
def missEntry (s : State) (e : SchedEntry) : State :=
  let s := countUp s 0x50408 31 0 1
  let s := logEvent s (logSource 0x07 0) 0x0070 stTimeout (e.tag.setWidth 24)
  if e.kernel then refuseJob (giveUpExpansion s e.desc) (entryJob e) stTimeout else s

/-- All due entries fire (R323); in STANDBY and SLEEP those of R327 are missed, and those with WAKE wait for the wake. -/
def fireDue (s : State) : State :=
  let low : Bool := s.mode == .standby || s.mode == .sleep
  let due := s.sched.filter (entryFires s)
  let waits := fun (e : SchedEntry) => low && e.wake
  let fires := due.filter (fun e => !waits e && (!low || firesLow e))
  let missed := due.filter (fun e => low && !e.wake && !firesLow e)
  let t := { s with sched := s.sched.filterMap (fun e =>
      if !entryFires s e then some e
      else if waits e then some { e with late := true }
      else if low && !firesLow e then none
      else reArm s e) }
  fireAll (missed.foldl missEntry t) fires

/-! ### Transfers (R352, R353) -/

/-- The mover with the shortest list. -/
def shortestMover (s : State) : Fin 8 :=
  (List.finRange 8).foldl (fun best m => if s.movers[m].length < s.movers[best].length then m else best) 0

/-- The mover that a transfer goes to: that of its chain, the one it names, or the shortest queue. -/
def moverOf (s : State) (d : Desc) : Fin 8 :=
  match s.sq[Fin.ofNat 64 d.ring.toNat].chain with
  | some m => m
  | none => if descCode d = 0 ∧ byteAt d 0x0E < 8 then Fin.ofNat 8 (byteAt d 0x0E) else shortestMover s

/-- An accepted transfer enters the queue of a mover: 32 wait beside the one in progress. -/
def submitTransfer (s : State) (d : Desc) : State :=
  let m := moverOf s d
  let n := Fin.ofNat 64 d.ring.toNat
  let s := { s with sq := s.sq.set n { s.sq[n] with chain := if descChain d then some m else none } }
  let q : List Desc := s.movers[m]
  if q.length ≥ 33 then completeTransferDesc s d stNoResource 0
  else { s with movers := s.movers.set m (q ++ [d]) }

/-- One endpoint of a COPY. -/
structure Endpoint where
  kind : Nat
  inst : Nat
  chan : Nat
  addr : Nat
deriving DecidableEq, Repr

def endpointOf (d : Desc) (o : Nat) : Endpoint :=
  { kind := byteAt d o, inst := byteAt d (o + 1), chan := byteAt d (o + 2), addr := dle d (o + 8) 8 }

def copyLength (d : Desc) : Nat := dle d 0x08 4
def copyPack (d : Desc) : Bool := (byteAt d 0x0C).testBit 0
def copySrcAdv (d : Desc) : Bool := (byteAt d 0x0C).testBit 1
def copyDstAdv (d : Desc) : Bool := (byteAt d 0x0C).testBit 2

/-- Store address of word i of an endpoint. [log entry 87: DESIGN CHOICE] -/
def endpointWord (s : State) (e : Endpoint) (src : Bool) (i : Nat) : Nat :=
  if e.kind = 1 then e.addr + i
  else
    let w := Fin.ofNat 16 e.inst
    if src then headElem s w (e.addr + i) else tailElem s w (e.addr + i)

/-- What stops an endpoint before the first word: a window that is not enabled, an advance for which the window has too few
elements or too little space, or a domain that does not serve; the lowest status where several do (R9). -/
def endpointStop (s : State) (e : Endpoint) (src adv : Bool) (n : Nat) : Option Status :=
  let w := Fin.ofNat 16 e.inst
  let room := if src then winUsed s w else winLen s w - winUsed s w
  match e.kind with
  | 1 => firstFail [(!storeServes s, stDomainOff)]
  | 2 => firstFail [(!winOn s w, stBadAddress), (adv && decide (room < e.addr + n), stNoResource), (!storeServes s, stDomainOff)]
  | 4 => firstFail [(quadState s (Fin.ofNat 4 e.inst) != 2, stDomainOff)]
  | _ => none

/-- The lower of two statuses (R9). -/
def lowerStatus : Option Status → Option Status → Option Status
  | some x, some y => some (if y.toNat < x.toNat then y else x)
  | some x, none => some x
  | none, y => y

/-! ### Packets of the movers (R257, R352, R353) -/

/-- A packet of a mover. [log entry 138: DESIGN CHOICE] -/
def moverPacket (s : State) (m : Fin 8) (dst : BitVec 12) (ddev : BitVec 3) (words addr arg : Nat) (data : List Word) : Packet :=
  { ddev, dst, sdev := ownDev s, src := ident 6 m.val, tag := 0, words := BitVec.ofNat 6 words, addr := BitVec.ofNat 21 addr,
    lanes := 0b11111, arg := BitVec.ofNat 6 arg, data, flits := half data.length, host := 0 }

/-- The packets of `n` words of an endpoint, 32 words in each, are counted. [log entry 178: DESIGN CHOICE] -/
def tallyWords (m : Fin 8) (e : Endpoint) (src : Bool) (n : Nat) (s : State) : State :=
  (List.range ((n + 31) / 32)).foldl (fun s i =>
    let words := min 32 (n - 32 * i)
    let a := if e.kind = 4 then e.addr + 32 * i else endpointWord s e src (32 * i)
    let dst := if e.kind = 4 then ident 3 e.inst else if e.kind = 3 then ident 0 e.inst else ident 2 0
    if e.kind = 0 then s
    else if src then tallyPair s ptRd (moverPacket s m dst (ownDev s) words a 0 []) words
    else if e.kind = 3 then tally s (mkSent ptCpPush { moverPacket s m dst (ownDev s) words 0 e.chan [] with flits := half words, lanes := 0 })
    else if e.kind = 4 then s
    else tallyPair s ptWr { moverPacket s m dst (ownDev s) words a 1 [] with flits := half words } 0) s

/-- Words for a fabric port leave as posted WR packets. [log entry 87: DESIGN CHOICE] -/
def sendFabric (m : Fin 8) (e : Endpoint) (ws : List Word) (s : State) : State :=
  (List.range ((ws.length + 31) / 32)).foldl (fun s i =>
    let part := (ws.drop (32 * i)).take 32
    inject s ptWr (moverPacket s m (ident 3 e.inst) (ownDev s) part.length (e.addr + 32 * i) 0 part)) s

/-- Read the source words that lie in the store, up to the first that fails. [log entry 85: DESIGN CHOICE] -/
def readSource (e : Endpoint) (meets : List (Nat × Meet)) : Nat → Nat → State → State × List Word × Status
  | 0, _, s => (s, [], stOK)
  | n + 1, i, s =>
    let r := readWord false s (endpointWord s e true i) (meetOf meets (endpointWord s e true i))
    if r.2.status ≠ stOK then (r.1, [], r.2.status)
    else
      let q := readSource e meets n (i + 1) r.1
      (q.1, r.2.word :: q.2.1, q.2.2)

/-- Write words to a store destination from index i, up to the first that fails: words written and status.
[log entry 85: DESIGN CHOICE] -/
def writeStore (e : Endpoint) (meets : List (Nat × Meet)) : List Word → Nat → State → State × Nat × Status
  | [], _, s => (s, 0, stOK)
  | v :: vs, i, s =>
    let a := endpointWord s e false i
    let r := writeWord false s a 0b11111 v (meetOf meets a)
    if r.2.status ≠ stOK then (r.1, 0, r.2.status)
    else
      let q := writeStore e meets vs (i + 1) r.1
      (q.1, q.2.1 + 1, q.2.2)

/-- Write words to a destination: words written and status. [log entry 87: DESIGN CHOICE] -/
def writeDest (m : Fin 8) (e : Endpoint) (pack : Bool) (meets : List (Nat × Meet)) (ws : List Word) (s : State) : State × Nat × Status :=
  match e.kind with
  | 0 => (hostWrite s e.addr (wordBytes pack ws), ws.length, stOK)
  | 1 | 2 => writeStore e meets ws 0 s
  | 3 =>
    let c := Fin.ofNat 64 e.inst
    (if niState s (coursePort s c) = 0 then pushWords s c (Fin.ofNat 4 e.chan) ws else niDrop s (coursePort s c), ws.length, stOK)
  | _ => (sendFabric m e ws s, ws.length, stOK)

/-- Advance a window endpoint after the last word. -/
def advanceEndpoint (s : State) (e : Endpoint) (src adv : Bool) (n : Nat) : State :=
  if e.kind = 2 ∧ adv then (advanceWindow s (Fin.ofNat 16 e.inst) (!src) n).1 else s

/-- A read of host memory fails: recorded and reported (R365). [log entry 182: PRESUMED] -/
def hostReadFails (s : State) (st : Status) : State :=
  let s := if st = stTimeout then aerNote s 14 else if st = stBadDescriptor then aerNote s 12 else setRegBits s (pciReg 0x04) 29 29 1
  logEvent s (logSource 0x08 0) 0x0060 st 0

/-- The mover carries a COPY out: `st` and `moved` tell how the accesses outside the device ended, `data` holds the words
that were read there. The first failure stops it; the words before it are written.
[log entries 56: DEDUCED; 85: DESIGN CHOICE] -/
def runCopy (m : Fin 8) (d : Desc) (st : Status) (moved : Nat) (data : List Word) (meets : List (Nat × Meet)) (s : State) : State :=
  let n := copyLength d
  let a := endpointOf d 0x10
  let b := endpointOf d 0x28
  match lowerStatus (endpointStop s a true (copySrcAdv d) n) (endpointStop s b false (copyDstAdv d) n) with
  | some x => completeTransferDesc s d x 0
  | none =>
    let k := if st = stOK then n else min moved n
    let r := if a.kind = 1 ∨ a.kind = 2 then readSource a meets k 0 s else (s, (List.range k).map (fun i => data.getD i 0), stOK)
    let q := writeDest m b (copyPack d) meets r.2.1 (tallyWords m a true k r.1)
    let s := tallyWords m b false r.2.1.length q.1
    let s := if a.kind = 0 ∧ st ≠ stOK ∧ st ≠ stAborted then hostReadFails s st else s
    let last' := if q.2.2 ≠ stOK then q.2.2 else if r.2.2 ≠ stOK then r.2.2 else st
    if last' = stOK then
      completeTransferDesc (advanceEndpoint (advanceEndpoint s a true (copySrcAdv d) n) b false (copyDstAdv d) n) d stOK n
    else completeTransferDesc s d last' q.2.1

/-! ### Register transfers (R353) -/

def regCount (d : Desc) : Nat := byteAt d 0x0B
def regIdent (d : Desc) : BitVec 12 := ident (dle d 0x08 2 / 2 ^ 12) (dle d 0x08 2)
def regOffset (d : Desc) (i : Nat) : Nat := dle d 0x0C 2 + 4 * i
def regValue (d : Desc) (i : Nat) : Reg32 := BitVec.ofNat 32 (dle d (0x40 + 4 * i) 4)

/-- The accesses of a transfer leave the device or go to fabric logic: their answers come from outside. -/
def regOutside (s : State) (d : Desc) : Bool := BitVec.ofNat 3 (byteAt d 0x0A) != ownDev s || clsOf (regIdent d) == 3

/-- Node of a mover's port. -/
def moverNode (m : Fin 8) : Nat := if m.val < 4 then 4 else 14

/-- What the destination NI answers to a register access before the register file sees it (R255). -/
def regRefused (s : State) (m : Fin 8) (dst : BitVec 12) (o : Nat) : Option Status :=
  match portOf s dst (moverNode m) with
  | none => some stBadAddress
  | some np => firstFail [(clsOf dst == 0xA || !fileRange dst o, stBadAddress), (niState s np != 0, stDomainOff),
      (!hasFile dst, stBadDescriptor)]

/-- A refused access is counted and recorded by the destination NI. -/
def countRefused (s : State) (m : Fin 8) (dst : BitVec 12) (t : Nat) (st : Status) : State :=
  match portOf s dst (moverNode m) with
  | some np => logEvent (niErr s np st) (logSource 0x05 (4 * np.1 + np.2)) 0x0021 st (BitVec.ofNat 24 t)
  | none => s

/-- Read registers from number i. -/
def readRegs (m : Fin 8) (d : Desc) : Nat → Nat → State → State × List Reg32 × Status
  | 0, _, s => (s, [], stOK)
  | n + 1, i, s =>
    match regRefused s m (regIdent d) (regOffset d i) with
    | some st => (countRefused s m (regIdent d) ptRegRd st, [], st)
    | none =>
      let s := tallyPair s ptRegRd (moverPacket s m (regIdent d) (ownDev s) 1 (regOffset d i) 0 []) 1
      let r := fileRead s (regIdent d) (regOffset d i)
      let q := readRegs m d n (i + 1) r.1
      (q.1, r.2.setWidth 32 :: q.2.1, q.2.2)

/-- Write registers to host memory, 4 bytes each. -/
def storeRegs (d : Desc) (vs : List Reg32) (s : State) : State :=
  hostWrite s (dle d 0x10 8) (vs.flatMap (fun v => leBytes v.toNat 4))

/-- The packets of a register transfer that leave the device or go to fabric logic are counted.
[log entry 178: DESIGN CHOICE] -/
def tallyRegs (m : Fin 8) (d : Desc) (t : Nat) (s : State) : State :=
  (List.range (regCount d)).foldl (fun s i => tally s (mkSent t { moverPacket s m (regIdent d) (BitVec.ofNat 3 (byteAt d 0x0A)) 1
    (regOffset d i) (if t = ptRegWr then 1 else 0) [] with flits := flitsOf t 1 })) s

def runRegRead (m : Fin 8) (d : Desc) (st : Status) (moved : Nat) (data : List Word) (s : State) : State :=
  if regOutside s d then
    let s := tallyRegs m d ptRegRd s
    let k := if st = stOK then regCount d else min moved (regCount d)
    completeTransferDesc (storeRegs d ((List.range k).map (fun i => (data.getD i 0).setWidth 32)) s) d st k
  else
    let r := readRegs m d (regCount d) 0 s
    completeTransferDesc (storeRegs d r.2.1 r.1) d r.2.2 r.2.1.length

/-- A write of CRS_CP_CTRL with START or ABORT is acknowledged when its status is known (R51).
[log entry 88: DEDUCED] -/
def startsPort (dst : BitVec 12) (o : Nat) (v : Reg32) : Bool :=
  clsOf dst == 0 && 0x100 ≤ o && o < 0x180 && o % 0x20 == 0 && (v.getLsbD 0 || v.getLsbD 1)

/-- A TAG that no outstanding request of a mover has. [log entry 138: DESIGN CHOICE] -/
def freeTag (s : State) (m : Fin 8) (used : List (BitVec 8)) : BitVec 8 :=
  let taken := used ++ (s.ackWaits.filter (fun w => w.mover == m)).flatMap (fun w => w.tags)
  BitVec.ofNat 8 (((List.range 256).find? (fun t => !taken.contains (BitVec.ofNat 8 t))).getD 0)

/-- The register-write request of a mover. -/
def moverRequest (s : State) (m : Fin 8) (dst : BitVec 12) (o : Nat) (v : Reg32) (tag : BitVec 8) : Packet :=
  { moverPacket s m dst (ownDev s) 1 o 1 [v.setWidth 40] with tag }

/-- Write registers from number i: state, registers written at once, TAGs of those still to be acknowledged, status. -/
def writeRegs (m : Fin 8) (d : Desc) : Nat → Nat → List (BitVec 8) → State → State × Nat × List (BitVec 8) × Status
  | 0, _, tags, s => (s, 0, tags, stOK)
  | n + 1, i, tags, s =>
    let dst := regIdent d
    let o := regOffset d i
    let v := regValue d i
    match regRefused s m dst o with
    | some st => (countRefused s m dst ptRegWr st, 0, tags, st)
    | none =>
      if startsPort dst o v then
        let tag := freeTag s m tags
        let p := moverRequest s m dst o v tag
        writeRegs m d n (i + 1) (tags ++ [tag]) (fileWrite (tally s (mkSent ptRegWr p)) dst o v (some p))
      else
        let q := writeRegs m d n (i + 1) tags (fileWrite (tallyPair s ptRegWr (moverRequest s m dst o v 0) 0) dst o v none)
        (q.1, q.2.1 + 1, q.2.2)

def runRegWrite (m : Fin 8) (d : Desc) (st : Status) (moved : Nat) (s : State) : State :=
  if regOutside s d then completeTransferDesc (tallyRegs m d ptRegWr s) d st (if st = stOK then regCount d else min moved (regCount d))
  else
    let r := writeRegs m d (regCount d) 0 [] s
    let bad := if r.2.2.2 = stOK then none else some r.2.2.2
    if r.2.2.1.isEmpty then completeTransferDesc r.1 d r.2.2.2 r.2.1
    else { r.1 with ackWaits := r.1.ackWaits ++ [{ mover := m, tags := r.2.2.1, desc := d, moved := r.2.1, bad }] }

/-- A transfer reads or writes host memory: it waits while Bus Master Enable is clear (R340). -/
def usesHost (d : Desc) : Bool :=
  descCode d == 1 || (descCode d == 0 && ((endpointOf d 0x10).kind == 0 || (endpointOf d 0x28).kind == 0))

/-- What a mover does with a transfer. -/
def runTransfer (m : Fin 8) (d : Desc) (st : Status) (moved : Nat) (data : List Word) (meets : List (Nat × Meet)) (s : State) : State :=
  match descCode d with
  | 0 => runCopy m d st moved data meets s
  | 1 => runRegRead m d st moved data s
  | _ => runRegWrite m d st moved s

/-- The transfer at the head of a mover's list ends. -/
def finishTransfer (m : Fin 8) (st : Status) (moved : Nat) (data : List Word) (meets : List (Nat × Meet)) (s : State) : State :=
  match s.movers[m] with
  | [] => s
  | d :: rest =>
    if usesHost d && !busMaster s then s
    else runTransfer m d st moved data meets { s with movers := s.movers.set m rest }

/-- A transfer in progress is aborted: some of its words or registers have been moved, and stay (R353).
[log entry 86: DESIGN CHOICE] -/
def abortRunningTransfer (m : Fin 8) (d : Desc) (s : State) : State :=
  let f := takeFree s
  let n := if descCode d = 0 then copyLength d else regCount d
  let k := Config.movedAtAbort f.1 % (n + 1)
  runTransfer m d stAborted k ((List.range k).map (Config.abortWord f.1)) (Config.engineMeets f.1) f.2

end Sys2Proof.Machine
end

