-- ==== Sys2Proof/Machine/Images.lean ====
section
/-! DEFINITION. Images: bytes in the Shared Store and CRC-32, the checks of a fabric image's envelope and frames, and the
manifest of a slot with the rules of its components (R297 to R300, R354, R371, R372). -/

namespace Sys2Proof.Machine

/-! ### Bytes in the Shared Store, and CRC-32 (R298, R354) -/

/-- Groups of five bytes, the last one possibly shorter. -/
def fives : Nat → List (BitVec 8) → List (List (BitVec 8))
  | 0, _ => []
  | _, [] => []
  | n + 1, bs => bs.take 5 :: fives n (bs.drop 5)

/-- A word of up to five bytes. [log entry 59: DESIGN CHOICE] -/
def wordOfBytes (bs : List (BitVec 8)) : Word := BitVec.ofNat 40 (bs.foldr (fun b v => b.toNat + 256 * v) 0)

/-- Write bytes to consecutive store words, five to a word: the status of the whole. -/
def storeBytes (meets : List (Nat × Meet)) (s : State) (a : Nat) (bs : List (BitVec 8)) : State × Status :=
  let ws := fives bs.length bs
  ((List.range ws.length).zip ws).foldl (fun t iw =>
    let r := writeWord false t.1 (a + iw.1) (BitVec.ofNat 5 (2 ^ iw.2.length - 1)) (wordOfBytes iw.2) (meetOf meets (a + iw.1))
    (r.1, worse r.2.status t.2)) (s, stOK)

/-- Write bytes to the store that begin `off` bytes after byte 0 of word `a`. -/
def storeSpan (meets : List (Nat × Meet)) (s : State) (a off : Nat) (bs : List (BitVec 8)) : State × Status :=
  let lead := off % 5
  let ws := fives (lead + bs.length) (List.replicate lead 0 ++ bs)
  ((List.range ws.length).zip ws).foldl (fun t iw =>
    let k := a + off / 5 + iw.1
    let lanes := 2 ^ iw.2.length - (if iw.1 = 0 then 2 ^ lead else 1)
    let r := writeWord false t.1 k (BitVec.ofNat 5 lanes) (wordOfBytes iw.2) (meetOf meets k)
    (r.1, worse r.2.status t.2)) (s, stOK)

/-- Write bytes to a DST of an admin command: 0 host memory, 1 the store. -/
def writeOut (meets : List (Nat × Meet)) (s : State) (dst a : Nat) (bs : List (BitVec 8)) : State × Status :=
  if dst = 0 then (hostWrite s a bs, stOK) else storeBytes meets s a bs

/-- `n` bytes that the store holds from word `a` on, five to a word (R354). -/
def storeImage (s : State) (a n : Nat) : List (BitVec 8) :=
  (List.range n).map (fun k => (storeWord s (a + k / 5)).extractLsb' (8 * (k % 5)) 8)

/-- The bytes at SRC and ADDR of a command: `sel` and `o` are the offsets of its fields, `host` what host memory gives.
[log entry 184: DEDUCED] -/
def sourceBytes (s : State) (d : Desc) (sel o n : Nat) (host : List (BitVec 8)) : List (BitVec 8) :=
  if byteAt d sel = 1 then storeImage s (dle d o 8) n else host

/-- Bytes in the store cannot be read: it does not serve, or a word holds an uncorrectable error.
[log entry 184: DEDUCED] -/
def sourceFault (s : State) (d : Desc) (sel o n : Nat) : Option Status :=
  if byteAt d sel ≠ 1 then none
  else firstFail [(!storeServes s, stDomainOff), (s.storeErr.any (fun e => e.multi && decide (dle d o 8 ≤ e.addr.toNat) &&
    decide (e.addr.toNat < dle d o 8 + wordsFor n)), stEccUncorrected)]

/-! ### A fabric image (R297 to R299) -/

/-- The number that little-endian bytes spell. -/
def leNumber (bs : List (BitVec 8)) : Nat := bs.foldr (fun b n => b.toNat + 256 * n) 0

/-- A frame from its 272 bytes (R298). -/
def frameOf (bs : List (BitVec 8)) : FabFrame :=
  let part := fun (o n : Nat) => leNumber ((bs.drop o).take n)
  { fsync := BitVec.ofNat 32 (part 0 4), faddr := BitVec.ofNat 32 (part 4 4), flen := BitVec.ofNat 16 (part 8 2)
    fflags := BitVec.ofNat 16 (part 10 2), payload := BitVec.ofNat 2048 (part 12 256), fcrc := BitVec.ofNat 32 (part 268 4) }

/-- Frames of a body. -/
def framesIn : Nat → List (BitVec 8) → List FabFrame
  | 0, _ => []
  | n + 1, bs => frameOf (bs.take 272) :: framesIn n (bs.drop 272)

/-- The image that a FAB_LOAD reads: one in the store is what its bytes say, an encrypted body apart.
[log entry 184: DEDUCED] -/
def fabSource (s : State) (d : Desc) (i : FabImage) : FabImage :=
  if byteAt d 0x08 ≠ 1 then i
  else
    let n := dle d 0x0C 4
    let bs := storeImage s (dle d 0x10 8) n
    let envelope := BitVec.ofNat 2048 (leNumber (bs.take 256))
    let enc : Bool := envelope.getLsbD (8 * 0x1C)
    { i with envelope, frames := if enc then i.frames else framesIn ((n - 256) / 272) (bs.drop 256) }

/-- The patch image that a PATCH_LOAD reads: the header of one in the store is what its bytes say; its body is encrypted.
[log entry 184: DEDUCED] -/
def patchSource (s : State) (d : Desc) (i : PatchImage) : PatchImage :=
  if byteAt d 0x08 ≠ 1 then i
  else { i with header := BitVec.ofNat 1280 (leNumber (storeImage s (dle d 0x10 8) 160)) }

/-- `n` little-endian bytes of an envelope from byte offset `o`. -/
def fle (i : FabImage) (o n : Nat) : Nat := (i.envelope.toNat >>> (8 * o)) % 2 ^ (8 * n)

def fabEnc (i : FabImage) : Bool := fle i 0x1C 4 == 1
def fabKey (i : FabImage) : Nat := fle i 0x0B 1
def fabVersionOf (i : FabImage) : BitVec 32 := BitVec.ofNat 32 (fle i 0x0C 4)

/-- Envelope fields, and a SCOPE that is the mask of the load. -/
def envelopeOk (i : FabImage) (mask : Nat) : Bool :=
  fle i 0x00 4 == 0x46424931 && fle i 0x04 2 == 1 && fle i 0x06 2 == 256 && fle i 0x08 2 == 0x6540 && fle i 0x0A 1 == mask &&
  fabKey i ≤ 1 && fle i 0x14 4 == i.frames.length && fle i 0x18 4 == fle i 0x14 4 * 272 && fle i 0x1C 4 ≤ 1 &&
  (fabEnc i || fle i 0x20 28 == 0) && fle i 0xCC 52 == 0

/-- FADDR of a frame. -/
def frameAddr (minor major type fq : Nat) : Nat := fq + 4 * type + 32 * major + 4096 * minor

/-- FADDR of the GLOBAL frame. -/
def globalAddr : Nat := frameAddr 0 0 4 0

/-- Frames of a type: CELL, BRAM, and one each of IO and CLOCK. -/
def frameExists (minor major type : Nat) : Bool := match type with
  | 0 => true
  | 1 => major < 16 && minor < 10
  | _ => major == 0 && minor == 0

/-- The FADDR values of the frames of types 0 to 3 for the quadrants of a mask, in ascending order. -/
def quadFrames (mask : Nat) : List Nat :=
  (List.range 20).flatMap (fun minor => (List.range 80).flatMap (fun major => (List.range 4).flatMap (fun type =>
    if frameExists minor major type then
      ((List.range 4).filter (fun q => mask.testBit q)).map (frameAddr minor major type) else [])))

/-- The frames of an image of a SCOPE: the GLOBAL frame first. -/
def imageFrames (mask : Nat) : List Nat := globalAddr :: quadFrames mask

/-- FSYNC, FLEN or FFLAGS is wrong. -/
def frameFormBad (f : FabFrame) : Bool := f.fsync != 0xA55AF00D || f.flen != 256 || f.fflags != 0

/-- What is wrong with a frame at which FADDR `e` is expected: 2 FRAME_FORMAT, 3 MISSING, 4 DUPLICATE.
[log entry 71: DESIGN CHOICE] -/
def frameCause (all : List Nat) (a e : Nat) (later : List FabFrame) : Nat :=
  if all.contains a && (a == globalAddr || a < e) then 4
  else if all.contains a && !later.any (fun f => f.faddr.toNat == e) then 3
  else 2

/-- The first frame that breaks the form, the set or the order: cause and index. [log entry 71: DESIGN CHOICE] -/
def framesBad (all : List Nat) : Nat → List FabFrame → List Nat → Option (Nat × Nat)
  | _, [], [] => none
  | i, [], _ :: _ => some (3, i)
  | i, f :: fs, es =>
    if frameFormBad f then some (2, i)
    else
      match es with
      | [] => some (if all.contains f.faddr.toNat then 4 else 2, i)
      | e :: es =>
        if f.faddr.toNat = e then framesBad all (i + 1) fs es else some (frameCause all f.faddr.toNat e fs, i)

/-- Bytes 0x000 to 0x10B of a frame. -/
def frameBytes (f : FabFrame) : List (BitVec 8) :=
  leBytes f.fsync.toNat 4 ++ leBytes f.faddr.toNat 4 ++ leBytes f.flen.toNat 2 ++ leBytes f.fflags.toNat 2 ++
  leBytes f.payload.toNat 256

/-- FCRC is right. -/
def frameCrcOk (f : FabFrame) : Bool := f.fcrc == crc32 (frameBytes f)

/-- The GLOBAL configuration of an image, with the bytes of its frame. -/
def imageGlobal (i : FabImage) : GlobalConf := match i.frames with
  | f :: _ => { i.global with bytes := f.payload.toNat }
  | [] => i.global

/-- Index of the frame of a quadrant with MAJOR and MINOR 0: TYPE 2 IO, 3 CLOCK. -/
def frameOfQuad (i : FabImage) (q : Fin 4) (type : Nat) : Nat :=
  (i.frames.findIdx? (fun f => f.faddr.toNat == q.val + 4 * type)).getD 0

/-- The quadrants of a SCOPE. -/
def scopeQuads (mask : Nat) : List (Fin 4) := (List.finRange 4).filter (fun q => mask.testBit q.val)

/-- The first of some frames. -/
def firstFrame (fs : List Nat) : Option Nat := fs.foldl (fun m f => match m with
  | some g => some (min f g)
  | none => some f) none

/-- A tree source or PLL setting outside R288: the settings count that a tree uses. An external clock's frequency is not the
image's. [log entry 188: DESIGN CHOICE] -/
def globalBad (g : GlobalConf) : Bool := g.trees.toList.any (fun t => match t with
  | .pll n => g.pllM < 8 || 64 < g.pllM || g.pllD < 1 || 4 < g.pllD || 100 * g.pllM < 800 * g.pllD || 1600 * g.pllD < 100 * g.pllM ||
      g.pllO[n] < 2 || 128 < g.pllO[n] || 400 * (g.pllD * g.pllO[n]) < 100 * g.pllM
  | .timebase n => n < 1 || 4096 < n
  | _ => false)

/-- Ball options outside R290 and R291: SERDES beside an LVDS pair, a pair that begins at an N ball.
[log entry 188: DESIGN CHOICE] -/
def optionBad (e : Nat × BallConf) : Bool := match e.2.kind, e.2.ioReg with
  | .lvcmos _, .serdes _ => true
  | .lvds _, _ => e.1 % 2 == 1
  | _, _ => false

/-- Order 8: a reserved payload bit, or a setting that does not exist. [log entry 188: DESIGN CHOICE] -/
def settingsBad (i : FabImage) (mask : Nat) : Option Nat :=
  firstFrame ((if globalBad i.global then [0] else []) ++ i.reserved.toList.map (fun f => f.toNat) ++
    ((scopeQuads mask).filter (fun q => (i.quads[q]).balls.any optionBad)).map (fun q => frameOfQuad i q 2))

/-- A ball that an image drives. -/
def ballDrives (k : BallConf) : Bool := k.enable != netOff

/-- Balls of a bank that have a driver; an LVDS pair has both of its balls. -/
def drivenBalls (k : QuadConf) : List Nat := k.balls.flatMap (fun e =>
  if !ballDrives e.2 then [] else match e.2.kind with
    | .lvds _ => [e.1, e.1 + 1]
    | .lvcmos _ => [e.1])

def drivenTaps (k : QuadConf) : List Nat := k.taps.map (fun e => e.1)

/-- Signals of R296 that quadrants before this one of the image, or other READY or RUNNING quadrants, drive. -/
def otherTaps (s : State) (i : FabImage) (mask : Nat) (q : Fin 4) : List Nat := (List.finRange 4).flatMap (fun p =>
  if p = q then []
  else if mask.testBit p.val then (if p < q then drivenTaps i.quads[p] else [])
  else if quadState s p == 1 || quadState s p == 2 then drivenTaps s.fab.quads[p] else [])

/-- Order 9: a second driver on a ball, a pair, or a signal to the timebase. A global tree has one source in the form of
`GlobalConf`. -/
def driversBad (s : State) (i : FabImage) (mask : Nat) : Option Nat :=
  firstFrame (((scopeQuads mask).filter (fun q => !(drivenBalls i.quads[q]).Nodup)).map (fun q => frameOfQuad i q 2) ++
    ((scopeQuads mask).filter (fun q => (!(drivenTaps i.quads[q]).Nodup || (drivenTaps i.quads[q]).any (fun t => (otherTaps s i mask q).contains t)))).map
        (fun q => frameOfQuad i q 3))

/-- A ball does not go with the supply of its bank: an absent bank, another standard, or an LVDS driver without 2.5 V. -/
def standardBad (vio : Nat) (k : BallConf) : Bool := vio == 0 || (match k.kind with
  | .lvcmos v => v.toNat != vio
  | .lvds _ => ballDrives k && vio != 2)

/-- Order 10. -/
def standardsBad (s : State) (i : FabImage) (mask : Nat) : Option Nat :=
  firstFrame (((scopeQuads mask).filter (fun q =>
    (i.quads[q]).balls.any (fun e => standardBad (regBits s 0x40020 (2 * q.val + 1) (2 * q.val)) e.2))).map (fun q => frameOfQuad i q 2))

/-- Orders 6 to 10: cause and index of the first offending frame. -/
def frameFault (s : State) (i : FabImage) (mask : Nat) : Option (Nat × Nat) :=
  match framesBad (imageFrames mask) 0 i.frames (imageFrames mask) with
  | some f => some f
  | none =>
    match i.frames.findIdx? (fun f => !frameCrcOk f) with
    | some k => some (5, k)
    | none =>
      match settingsBad i mask, driversBad s i mask, standardsBad s i mask with
      | some f, _, _ => some (6, f)
      | none, some f, _ => some (7, f)
      | none, none, some f => some (8, f)
      | none, none, none => none

/-! ### The manifest of a slot (R371, R372) -/

/-- `n` little-endian bytes of a manifest from byte offset `o`. -/
def mle (img : SlotRead) (o n : Nat) : Nat := (img.manifest.toNat >>> (8 * o)) % 2 ^ (8 * n)

def manifestKey (img : SlotRead) : Nat := mle img 0x00A 1
def manifestCount (img : SlotRead) : Nat := mle img 0x00B 1
def manifestVersion (img : SlotRead) : BitVec 32 := BitVec.ofNat 32 (mle img 0x00C 4)
def manifestSecurity (img : SlotRead) : Nat := mle img 0x010 4
def manifestAutostart (img : SlotRead) : Bool := (mle img 0x014 4).testBit 0
def manifestStates (img : SlotRead) : Nat := mle img 0x018 1

/-- A component entry of a manifest. -/
structure Component where
  type   : Nat
  offset : Nat
  length : Nat
  load   : Nat
deriving DecidableEq, Repr

def componentAt (img : SlotRead) (i : Nat) : Component :=
  let o := 0x020 + 64 * i
  { type := mle img o 1, offset := mle img (o + 4) 4, length := mle img (o + 8) 4, load := mle img (o + 12) 4 }

/-- The components in use, with their entry indices. -/
def components (img : SlotRead) : List (Nat × Component) :=
  (List.range (manifestCount img)).map (fun i => (i, componentAt img i))

/-- Form of the manifest outside its entries in use. -/
def manifestForm (img : SlotRead) : Bool :=
  mle img 0x000 4 == 0x4D534C31 && mle img 0x004 2 == 1 && mle img 0x006 2 == 1024 && mle img 0x008 2 == 0x6540 &&
  3 ≤ manifestCount img && manifestCount img ≤ 10 && mle img 0x014 4 ≤ 1 && manifestStates img < 16 &&
  mle img 0x019 7 == 0 && mle img 0x2A0 256 == 0 && mle img (0x020 + 64 * manifestCount img) (64 * (10 - manifestCount img)) == 0

/-- The limits of R372 on the length of a component that no format check of order 6 covers. -/
def lengthBad (c : Component) : Bool := match c.type with
  | 1 => c.length > 98304
  | 2 => c.length != 1917584
  | 3 => c.length > 4896
  | 5 => c.length > 4096
  | _ => false

def overlap (a b : Component) : Bool := a.offset < b.offset + b.length && b.offset < a.offset + a.length

/-- Entry i breaks a rule of R372, alone or with the entries before it. [log entry 97: DEDUCED] -/
def componentBad (img : SlotRead) (i : Nat) : Bool :=
  let c := componentAt img i
  let before := (List.range i).map (componentAt img)
  c.type == 0 || c.type > 7 || mle img (0x021 + 64 * i) 3 != 0 || c.offset % 4096 != 0 || c.offset < 4096 ||
  c.offset + c.length > 0x1000000 || (c.type != 6 && c.load != 0) || lengthBad c || before.any (overlap c) ||
  (before.filter (fun x => x.type == c.type)).length ≥ (if c.type = 6 then 4 else 1)

/-- FIRMWARE, FABRIC and RUNTIME are there. -/
def componentsThere (img : SlotRead) : Bool :=
  [1, 2, 4].all (fun t => (components img).any (fun c => c.2.type == t))

/-- Order 1 of R373: the entry index of the first offending component, 0 where none is at fault.
[log entry 97: DEDUCED] -/
def manifestFault (img : SlotRead) : Option Nat :=
  if !manifestForm img then some 0
  else
    match (List.range (manifestCount img)).find? (componentBad img) with
    | some i => some i
    | none => if componentsThere img then none else some 0

/-- RUNTIME is 32 instructions in 320 bytes; STARTUP 1 to 64 KERNEL or ADMIN descriptors; a PRELOAD whole words below
0x1F_0000. -/
def formatBad (img : SlotRead) (c : Component) : Bool := match c.type with
  | 4 => c.length != 320 || img.runtime.length != 32
  | 6 => c.length % 5 != 0 || c.load + c.length / 5 > 0x1F0000
  | 7 => c.length % 128 != 0 || c.length == 0 || c.length > 64 * 128 ||
      img.startup.any (fun b => b.toNat % 256 != 1 && b.toNat % 256 != 3)
  | _ => false

/-- PRELOAD components with their words. -/
def preloads (img : SlotRead) : List (Nat × List Word) :=
  (((components img).filter (fun c => c.2.type == 6)).zip img.preload).map (fun p => (p.1.2.load, p.2))

end Sys2Proof.Machine
end

