-- ==== Sys2Proof/Machine/Boot.lean ====
section
/-! DEFINITION. Start-up: the checks of a slot, boot attempts with retries and the automatic revert, the STARTUP passes, the
start of outputs, the return of the domains from SENTINEL, SLEEP and STANDBY, SENTINEL itself, and the execution of an admin
command in its turn (R355, R367 to R379, R381, R383, R384, R401 to R403, R415). -/

namespace Sys2Proof.Machine

/-! ### The Vault directory (R375, R393) -/

def vaultActive (s : State) : Nat := regBits s (cfgReg 0x04) 1 0
def vaultPrevious (s : State) : Nat := regBits s (cfgReg 0x04) 3 2
def vaultPrevValid (s : State) : Bool := (reg s (cfgReg 0x04)).getLsbD 4
def autoRevert (s : State) : Bool := (reg s (cfgReg 0x04)).getLsbD 5
def bootCount (s : State) : Nat := regBits s (cfgReg 0x04) 13 6

def setActive (s : State) (n : Nat) : State := setRegBits s (cfgReg 0x04) 1 0 n
def setPrevious (s : State) (n : Nat) : State := setRegBits (setRegBits s (cfgReg 0x04) 3 2 n) (cfgReg 0x04) 4 4 1
def clearPrevious (s : State) : State := setRegBits s (cfgReg 0x04) 4 2 0
def setBootCount (s : State) (n : Nat) : State := setRegBits s (cfgReg 0x04) 13 6 n

/-- Register of a slot: 0 its VERSION, 4 its INFO. -/
def slotReg (n o : Nat) : Nat := cfgReg (0x10 + 8 * (n % 4) + o)

/-- States of a slot: 0 EMPTY, 1 WRITTEN, 2 VERIFIED, 3 GOOD, 4 FAILED. -/
def slotState (s : State) (n : Nat) : Nat := regBits s (slotReg n 4) 10 8
def setSlotState (s : State) (n v : Nat) : State := setRegBits s (slotReg n 4) 10 8 v

/-- The directory as an MRAM copy holds it (R375): CFG_VAULT, and the states of the slots.
[log entry 185: DESIGN CHOICE] -/
def vaultDir (s : State) : List (BitVec 32) :=
  [reg s (cfgReg 0x04), BitVec.ofNat 32 (slotState s 0 + 2 ^ 3 * slotState s 1 + 2 ^ 6 * slotState s 2 + 2 ^ 9 * slotState s 3)]

def copyCrc (seq : BitVec 32) (dir : List (BitVec 32)) : BitVec 32 :=
  crc32 (leBytes seq.toNat 4 ++ dir.flatMap (fun v => leBytes v.toNat 4))

def copyValid (c : VaultCopy) : Bool := c.crc == copyCrc c.seq c.dir

/-- The number of the copy that a read takes: the valid one with the newer sequence number.
[log entry 185: DESIGN CHOICE] -/
def newerCopy (s : State) : Option (Fin 2) :=
  let a := s.vault[0]
  let b := s.vault[1]
  match copyValid a, copyValid b with
  | true, true => some (if (b.seq - a.seq).toNat < 2 ^ 31 then 1 else 0)
  | true, false => some 0
  | false, true => some 1
  | false, false => none

/-- An update of the directory writes the copy with the older sequence number. -/
def saveVault (s : State) : State :=
  let n := (newerCopy s).getD 1
  let seq := (s.vault[n]).seq + 1
  let dir := vaultDir s
  { s with vault := s.vault.set (1 - n) { seq, dir, crc := copyCrc seq dir } }

/-- The directory is read from MRAM; where neither copy is valid the registers stay.
[log entry 185: DESIGN CHOICE] -/
def loadVault (s : State) : State :=
  match newerCopy s with
  | some n =>
    let dir := (s.vault[n]).dir
    let s := setReg s (cfgReg 0x04) (dir.getD 0 0)
    (List.range 4).foldl (fun s k => setSlotState s k (bitsOf (dir.getD 1 0).toNat (3 * k + 2) (3 * k))) s
  | none => s

/-- A slot that a revert may take: PREVIOUS, VERIFIED or GOOD. -/
def revertible (s : State) : Bool :=
  vaultPrevValid s && (slotState s (vaultPrevious s) == 2 || slotState s (vaultPrevious s) == 3)

/-- What a read of a slot's manifest shows. -/
def showSlot (s : State) (n : Nat) (img : SlotRead) : State :=
  if (manifestFault img).isNone then
    let s := setReg s (slotReg n 0) (manifestVersion img)
    setReg s (slotReg n 4) (BitVec.ofNat 32 (manifestSecurity img % 256 + 2 ^ 8 * slotState s n + 2 ^ 11 * (manifestKey img % 2) +
      2 ^ 12 * (manifestAutostart img).toNat))
  else setReg (setReg s (slotReg n 0) 0) (slotReg n 4) (BitVec.ofNat 32 (2 ^ 8 * slotState s n))

/-! ### The checks of a slot (R373, R386) -/

def rollbackCount (s : State) : Nat := regBits s (cfgReg 0x30) 12 5

/-- KEY_ID is permitted in the lifecycle state, and its key is provisioned. -/
def keyAllowed (s : State) (k : Nat) : Bool :=
  let lc := lifecycleCode s
  if k = 0 then lc < 4 else k == 1 && (lc == 1 || lc == 2) && ownerProvisioned s && !ownerRevoked s

/-- Detail of a failed check: component, order and cause. -/
def slotDetail (comp order cause : Nat) : BitVec 24 := BitVec.ofNat 24 (comp + 16 * order + 256 * cause)

/-- Orders 1 to 5. -/
def manifestCheck (s : State) (img : SlotRead) : Option (Nat × Status × BitVec 24) :=
  let lc := lifecycleCode s
  match manifestFault img with
  | some c => some (1, stBadDescriptor, slotDetail c 1 0)
  | none =>
    if !(keyAllowed s (manifestKey img) && lc < 4 && (manifestStates img).testBit lc) then some (2, stVersionReject, slotDetail 0 2 0)
    else if !img.sigOk then some (3, stAuthFail, slotDetail 0 3 0)
    else if manifestSecurity img > 128 || manifestSecurity img < rollbackCount s then some (4, stVersionReject, slotDetail 0 4 0)
    else img.hashFault.map (fun c => (5, stAuthFail, slotDetail c.toNat 5 0))

/-! ### The checks of a fabric image that need a key or the counter (R300, R374, R385) -/

/-- The key that KEY_ID names exists. -/
def fabKeyExists (s : State) (i : FabImage) : Bool := fabKey i == 0 || (ownerProvisioned s && !ownerRevoked s)

/-- A content key for an encrypted body is usable: the vendor's stands in the crypto engine, the owner's is unsealed
(R385, R390). -/
def contentKey (s : State) (i : FabImage) : Bool :=
  fabKey i == 0 || (!s.keysGone && !ownerRevoked s && (ownerContentKey s).isSome)

/-- Orders 2 to 4 of R300: status, cause and frame. [log entry 71: DESIGN CHOICE] -/
def imageHead (s : State) (mask : Nat) (i : FabImage) : Option (Status × Nat × Nat) :=
  if !envelopeOk i mask then some (stBadDescriptor, 1, 0)
  else if !(i.sigOk && fabKeyExists s i) then some (stAuthFail, 0, 0)
  else if fle i 0x10 4 < rollbackCount s then some (stVersionReject, 0, 0)
  else none

/-- Orders 5 to 10. -/
def imageBody (s : State) (mask : Nat) (i : FabImage) : Option (Status × Nat × Nat) :=
  if !i.digestOk || (fabEnc i && !contentKey s i) then some (stAuthFail, 0, 0)
  else (frameFault s i mask).map (fun f => (stBadDescriptor, f.1, f.2))

/-- The boot image: SCOPE 0xF, and the KEY_ID of the manifest. [log entry 97: DEDUCED] -/
def bootImageFault (s : State) (img : SlotRead) : Option (Status × Nat × Nat) :=
  if fabKey img.fabric ≠ manifestKey img then some (stBadDescriptor, 1, 0)
  else
    match imageHead s 0xF img.fabric with
    | some x => some x
    | none => imageBody s 0xF img.fabric

/-- The failure of the PATCH component under R210: status and cause. -/
def patchFault (img : SlotRead) : Option (Status × Nat) :=
  match img.patch with
  | some p => (patchCheck p []).map (fun f => (f.1, f.2 % 65536))
  | none => none

/-- What is wrong with the contents of a component: its index, status and cause. -/
def contentFault (s : State) (img : SlotRead) (c : Nat × Component) : Option (Nat × Status × Nat) :=
  match c.2.type with
  | 2 => (bootImageFault s img).map (fun f => (c.1, f.1, f.2.1))
  | 3 => (patchFault img).map (fun f => (c.1, f.1, f.2))
  | _ => if formatBad img c.2 then some (c.1, stBadDescriptor, 0) else none

/-- Order 6: of the failures of several components the lowest code is reported (R9), the earlier component first. -/
def contentsCheck (s : State) (img : SlotRead) : Option (Nat × Status × Nat) :=
  ((components img).filterMap (contentFault s img)).foldl (fun best f => match best with
    | some b => if f.2.1 < b.2.1 then some f else some b
    | none => some f) none

/-- The first failure in the order of R373: its order, status and detail. [log entry 97: DEDUCED] -/
def slotCheck (s : State) (img : SlotRead) : Option (Nat × Status × BitVec 24) :=
  match manifestCheck s img with
  | some f => some f
  | none => (contentsCheck s img).map (fun f => (6, f.2.1, slotDetail f.1 6 f.2.2))

/-- FAB_LOAD_FRAME holds the first offending frame of a boot image that R373 reports (R373). -/
def noteFrame (s : State) (img : SlotRead) : State :=
  match manifestCheck s img, contentsCheck s img, bootImageFault s img with
  | none, some c, some f => if (componentAt img c.1).type = 2 ∧ f.1 = stBadDescriptor then setReg s 0x40008 (BitVec.ofNat 32 f.2.2) else s
  | _, _, _ => s

/-- Step of R367 at which an order of R373 fails. -/
def stepOf (order : Nat) : Nat := if order ≤ 4 then 2 else if order = 5 then 3 else 4

/-- A read that the sender does not give is one of an unreadable slot. [log entry 96: DEDUCED] -/
def unreadable : SlotRead :=
  { manifest := 0, sigOk := false, hashFault := none
    fabric := { envelope := 0, sigOk := false, digestOk := false, frames := [], reserved := none, global := GlobalConf.blank
                quads := Vector.replicate 4 QuadConf.blank }
    patch := none, runtime := [], preload := [], startup := [], calibrateOk := false, baselines := [] }

/-! ### Bringing the device up (R367, R401) -/

/-- PRELOAD words are written to the store. -/
def preloadStore (s : State) (img : SlotRead) : State :=
  (preloads img).foldl (fun s p => { s with store := csetList zeroes s.store p.1 p.2 }) s

/-- An active course's domain comes up, cleared. -/
def courseOn (s : State) (c : Fin 64) : State :=
  setNiState (markDomain (clearCourse s c) (s.lmap[c]).val true) (coursePort s c) 0

def bootStatus (s : State) (hi lo v : Nat) : State := setRegBits s (cfgReg 0) hi lo v

/-- The slot's patch set and trap table, in every bow (R71, R211). -/
def loadBows (s : State) (img : SlotRead) : State :=
  let patch := match img.patch with
    | some p => patchSetOf p
    | none => PatchSet.empty
  { s with bows := s.bows.map (fun w => { w with patch, patchErr := [], rewrite := false, pending := none, trapTable := img.runtime }) }

/-- The PCIe function is set up (R337). -/
def pcieOn (s : State) : State := setDomainNis (markDomain s 94 true) 94 0

/-- The boot image is applied to all quadrants. -/
def loadFabric (s : State) (img : SlotRead) : State :=
  loadAllQuads s (fabVersionOf img.fabric) (imageGlobal img.fabric) img.fabric.quads

/-- S6 records the baselines of the domains (R404). -/
def recordBaselines (s : State) (img : SlotRead) : State :=
  img.baselines.foldl (fun s b => setRegBits s (0x71008 + 16 * b.1.val) 31 16 b.2.toNat) s

/-- S3 to S5: the fabric image and the bows' stores. -/
def loadImages (s : State) (img : SlotRead) : State :=
  loadBows (loadFabric s img) img

/-- S7: domains powered and cleared. [log entry 65: DESIGN CHOICE] -/
def powerAll (s : State) : State :=
  let s := storeOn s
  let s := (List.finRange 16).foldl bowOn s
  let s := (List.finRange 64).foldl (fun s c => if s.pcourse[s.lmap[c]] = .active then courseOn s c else s) s
  peersOn s

/-- Admin and kernel descriptors of STARTUP (R372). -/
def startupDescs (ds : List DescBits) (type : Nat) : List Desc :=
  (ds.map (fun b => { ring := 0, bytes := b, startup := true : Desc })).filter (fun d => descType d == type)

/-- The admin pass begins: its descriptors are accepted in component order (R378). [log entry 126: DEDUCED] -/
def startPass (s : State) (p : BootPass) : State :=
  (startupDescs s.startup 3).foldl (fun s d => (acceptDesc s d).1) { s with bootPass := some p }

/-- A STARTUP admin descriptor is accepted and not completed. -/
def passRuns (s : State) : Bool := s.accepted.any (fun d => d.startup && descType d == 3)

/-! ### Starting outputs (R381, R413, R414) -/

/-- FP40 finite and above 0. -/
def limitOk (v : Word) : Bool := match unpackFmt 31 8 v.toNat with
  | .fin neg m _ => !neg && m != 0
  | _ => false

def rampMs (s : State) : Nat := regBits s 0x74014 13 0
def rampUpMs (s : State) : Nat := regBits s 0x74014 27 14

/-- The Guard configuration is valid (R414). -/
def guardValid (s : State) : Bool :=
  1 ≤ rampMs s && rampMs s ≤ 10000 && s.guard.chans.toList.any (fun c => c.enabled) &&
  s.guard.chans.toList.all (fun c => !c.enabled || (limitOk c.limRms && limitOk c.limPeak))

/-- Guarded timers are forced no longer (R333). [log entry 31: DESIGN CHOICE] -/
def unforceTimers (s : State) : State :=
  (List.finRange 16).foldl (fun s t => setRegBits s (etReg t 0x34) 6 6 0) s

/-- Gains rise from 0 to 1 over RAMP_UP_MS, or step to 1. -/
def rampUp (s : State) : State :=
  let s := setRegBits s 0x74000 2 1 1
  if rampUpMs s = 0 then { s with guard := { s.guard with num := 1, den := 1, ramp := none, heldAt := none } }
  else { s with guard := { s.guard with num := 0, den := 1, ramp := some { up := true, t0 := s.epoch }, heldAt := none } }

/-- The kernel pass of STARTUP. -/
def kernelPass (s : State) : State :=
  (startupDescs s.startup 1).foldl (fun s d =>
    let r := acceptDesc s d
    if r.2 then submitKernel r.1 d else r.1) s

def driveEnable (s : State) (v : Bool) : State := { s with pins := { s.pins with safeDriveEn := v } }

/-- The quadrants start, the ETIO balls leave IDLE, gains rise, and the device enters IDLE, then HALT where a bow
halted in HOLD (R437). [log entry 31: DESIGN CHOICE] -/
def startOutputs (s : State) : State :=
  let s := startQuads s
  let s := setRegBits { s with etioLive := 0 } 0x70000 4 4 1
  let s := driveEnable (rampUp (unforceTimers s)) true
  let s := settleMode (kernelPass (setMode s .idle))
  if reg s 0x90010 ≠ 0 then enterHalt s else s

/-- START_OUTPUTS is refused with a cause (R381, R432). [log entry 63: DEDUCED] -/
def outputsBad (s : State) : Option Nat :=
  if s.refused then some 1
  else if tamperLatched s ≠ 0 ∨ s.keysGone then some 2
  else if !guardValid s then some 3
  else none

/-- A boundary-scan instruction has had control of the balls since the last boot (R432). -/
def scanTaken (s : State) : Bool := s.jtag.taken || s.jtag.control

/-! ### Boot attempts (R376, R377) -/

/-- Count a boot attempt; a count above 3 reverts where AUTO_REVERT and PREVIOUS allow it. -/
def countAttempt (s : State) : State :=
  let s := setBootCount s (min (bootCount s + 1) 255)
  if autoRevert s ∧ bootCount s > 3 ∧ revertible s then
    let a := vaultActive s
    let s := setPrevious (setActive s (vaultPrevious s)) a
    saveVault (bootStatus (setBootCount (setSlotState s a 4) 1) 15 15 1)
  else saveVault s

/-- A boot attempt has failed. -/
def failAttempt (s : State) (st : Status) (detail : BitVec 24) : State :=
  let s := saveVault (setSlotState (bootStatus s 13 6 st.toNat) (vaultActive s) 4)
  let s := settleFaultN { s with bootFailed := true, startup := [], bootPass := none }
  logEvent (endFolds s) (logSource 0x0A 0) 0x0030 st detail

/-- A further attempt follows a failure. [log entry 97: DEDUCED] -/
def retries (s : State) : Bool := autoRevert s && bootCount s ≤ 3

/-- AUTOSTART takes effect. -/
def autostarts (s : State) (p : BootPass) : Bool :=
  p.autoOk && !s.lcChanged && regBits s (slotReg (vaultActive s) 4) 12 12 = 1 && bootCount s == 1 && !(reg s (cfgReg 0)).getLsbD 15 &&
  (outputsBad s).isNone && !scanTaken s

/-- A boot is clean. -/
def cleanBoot (s : State) (p : BootPass) : State :=
  let auto := autostarts s p
  let s := bootStatus (bootStatus (bootStatus s 5 2 8) 13 6 0) 14 14 1
  let s := saveVault { setSlotState (setBootCount s 0) (vaultActive s) 3 with lcChanged := false }
  let s := settlePins (settleFaultN { s with bootFailed := false })
  let s := logEvent (endFolds s) (logSource 0x0A 0) 0x0030 stOK 0
  let s := setReg s (cfgReg 0x48) (p.us.setWidth 32)
  if auto then bootStatus (startOutputs s) 16 16 1 else s

/-- How the second pass over the fabric image fails (R304, R374): a digest, or a read. [log entry 97: DEDUCED] -/
def secondPass (st : Status) : Status := if st = stAuthFail then st else stEccUncorrected

/-- One attempt from S2 to HOLD at S8: none where it goes on to the admin pass. [log entry 97: DEDUCED] -/
def tryBoot (s : State) (img : SlotRead) : State × Option (Status × BitVec 24) :=
  let s := setReg (setMode (bootStatus { countAttempt s with keysGone := false } 14 14 0) .boot) 0x40020 (img.banks.setWidth 32)
  let a := vaultActive s
  let s := showSlot (bootStatus s 1 0 a) a img
  let s := match img.fallback with
    | some v => bootStatus s 17 17 v.toNat
    | none => s
  match slotCheck s img with
  | some (o, st, detail) => (bootStatus (noteFrame s img) 5 2 (stepOf o), some (st, detail))
  | none =>
    if img.applyStatus ≠ stOK then
      let c := ((components img).find? (fun c => c.2.type == 2)).map (fun c => c.1)
      ((bootStatus s 5 2 4), some (secondPass img.applyStatus, slotDetail (c.getD 0) 6 0))
    else
    let s := { s with firmware := s.firmware.set 0 img.firmware, caldata := img.caldata }
    let s := setMode (endFolds (loadImages s img)) .calibrate
    if !img.calibrateOk then (bootStatus s 5 2 6, some (stInternal, 0))
    else if !img.clearOk then (bootStatus (powerAll (recordBaselines s img)) 5 2 7, some (stInternal, 0))
    else
      let s := powerAll (recordBaselines s img)
      let s := setMode (bootStatus { endFolds s with refused := false, startup := img.startup } 5 2 8) .hold
      (preloadStore s img, none)

/-- Attempts until one is clean, waits for its admin pass, or ends in HOLD with the slot refused.
[log entry 96: DEDUCED] -/
def bootLoop (p : BootPass) : Nat → List SlotRead → State → State
  | 0, _, s => holdRefused s
  | n + 1, reads, s =>
    let r := tryBoot s (reads.headD unreadable)
    let again := fun (s : State) (st : Status) (detail : BitVec 24) =>
      let s := failAttempt s st detail
      if retries s then bootLoop p n reads.tail (switchOff s false) else holdRefused s
    match r.2 with
    | some (st, detail) => again r.1 st detail
    | none =>
      let s := startPass r.1 { p with attempts := reads.tail, bad := none }
      if passRuns s then s
      else
        match s.bootPass with
        | some q => (match q.bad with
          | some (st, detail) => again s st detail
          | none => cleanBoot { s with bootPass := none } q)
        | none => s

/-- At most seven attempts follow one another: counts 1 to 3, the revert, and counts 2 to 4. -/
def bootFuel : Nat := 8

/-- S1 onward. -/
def bootFrom (p : BootPass) (s : State) : State :=
  let s := openAlwaysOn (pcieOn (bootStatus { s with refused := false, startup := [] } 16 15 0))
  bootLoop p bootFuel p.attempts s

/-! ### Waking and the return from SENTINEL (R401, R403) -/

/-- The store, the bows of held groups and the courses of held groups come up, the boot image and PRELOAD are loaded; a
quadrant last loaded by FAB_LOAD is recorded. An image that fails a check leaves the quadrants EMPTY.
[log entry 65: DESIGN CHOICE] -/
def powerDomains (s : State) (img : SlotRead) : State :=
  let s := setReg (storeOn s) 0x40020 (img.banks.setWidth 32)
  let s := (List.finRange 16).foldl (fun s b => if (bow s b).held then bowOn s b else s) s
  let s := peersOn ((List.finRange 64).foldl (fun s c => if (course s c).owner.isSome then courseOn s c else s) s)
  if (slotCheck s img).isSome || img.applyStatus ≠ stOK then s
  else
    let live := s.fabLive
    let s := loadFabric { s with fabLive := 0 } img
    let s := (List.range 4).foldl (fun s f => if live.getLsbD f then
      logEvent s (logSource 0x06 f) 0x0033 stOK (BitVec.ofNat 24 f) else s) s
    preloadStore s img

/-- Outputs are at zero in IDLE again as they were before a low-power mode: SAFE_DRIVE_EN follows the Guard.
[log entry 74: DEDUCED] -/
def restoreDrive (s : State) : State := driveEnable s (outputsStarted s && regBits s 0x74000 2 1 == 1)

/-- IDLE again, with the quadrants running. [log entry 74: DEDUCED] -/
def wakeIdle (s : State) : State := settleMode (setMode (restoreDrive (startQuads s)) .idle)

/-- The end of a wake from STANDBY: IDLE, or HOLD where STANDBY came from there or a tamper event is latched (R398).
[log entry 74: DEDUCED] -/
def endWake (s : State) (dest : Mode) : State :=
  if dest = .idle ∧ tamperLatched s = 0 then wakeIdle s else setMode s .hold

/-- The end of an admin pass. [log entry 97: DEDUCED] -/
def endPass (s : State) (p : BootPass) : State :=
  let s := { s with bootPass := none }
  match p.bad, p.wakeTo with
  | none, some m => endWake s m
  | some _, some _ => holdRefused s
  | none, none => cleanBoot s p
  | some (st, detail), none =>
    let s := failAttempt s st detail
    if retries s then bootLoop p (bootFuel - 1) p.attempts (switchOff s false) else holdRefused s

/-- The pass ends with its last descriptor. -/
def settleBoot (s : State) : State :=
  match s.bootPass with
  | some p => if passRuns s then s else endPass s p
  | none => s

/-- S2 to S8 of a wake from STANDBY. -/
def wakeBoot (s : State) (img : SlotRead) (dest : Mode) : State :=
  let s := noteFrame (setReg (showSlot s (vaultActive s) img) 0x40020 (img.banks.setWidth 32)) img
  if (slotCheck s img).isSome || img.applyStatus ≠ stOK || !img.calibrateOk || !img.clearOk then holdRefused s
  else
    let s := powerDomains (loadBows s img) img
    let s := { s with refused := false, startup := img.startup }
    settleBoot (startPass s { attempts := [], autoOk := false, us := 0, wakeTo := some dest, bad := none })

/-! ### SENTINEL (R402, R415) -/

/-- A rail is below 94 %: BROWNOUT_WARN (R417). -/
def brownWarn (s : State) : Bool := (reg s 0x70000).getLsbD 2

/-- The drive streams are at zero (R379, R396). -/
def zeroDrive (s : State) : State := { s with guard := { s.guard with drvOut := Vector.replicate 32 0 } }

/-- The device enters SENTINEL: kernels end, every domain but PCIe and always-on goes off, SAFE_DRIVE_EN is low. -/
def enterSentinel (s : State) : State :=
  let s := setReg (setReg (stopKernels s stAborted) 0x90010 0) 0x90004 0
  let s := setRegBits (driveEnable s false) 0x74000 2 1 3
  let s := zeroDrive { s with guard := { s.guard with num := 0, den := 1, ramp := none, heldAt := none } }
  let s := { s with brown := { s.brown with hold := s.brown.rails != 0, out := false } }
  setMode (switchOff s true) .sentinel

/-- The return to HOLD: domains as for a wake; outputs wait for START_OUTPUTS. -/
def leaveSentinel (s : State) (img : SlotRead) : State :=
  setMode { powerDomains s img with forced := [] } .hold

/-! ### Admin commands (R355) -/

/-- The command waits on, at the head of those that wait.
[log entries 100: DEDUCED; 112: DESIGN CHOICE; 120: DEDUCED] -/
def stayQueued (s : State) (d : Desc) : State := { s with adminQ := d :: s.adminQ }

/-- A command that reads or writes host memory waits until the function is a bus master (R340).
[log entry 189: DESIGN CHOICE] -/
def awaitsMaster (s : State) (d : Desc) : Bool :=
  !busMaster s && (match descCode d with
    | 0x0010 | 0x0018 | 0x0039 | 0x0049 => byteAt d 0x08 == 0
    | 0x0034 | 0x003A => byteAt d 0x09 == 0
    | 0x003C => byteAt d 0x08 == 0 && lifecycleCode s == 2
    | _ => false)

/-- An admin command is executed in its turn: it is accepted if its ring engine has not done so, and waits where another
stands before it. [log entry 94: DESIGN CHOICE] -/
def runAdmin (code : Nat) (d : Desc) (body : State → State) (s : State) : State :=
  if descType d ≠ 3 ∨ descCode d ≠ code then s
  else
    let r := if s.adminQ.contains d then (s, true) else if s.accepted.contains d || fenceHolds s d then (s, false) else acceptDesc s d
    if !r.2 || !atTurn r.1 d then settleBoot r.1
    else
      let s := { r.1 with adminQ := dropDesc d r.1.adminQ }
      settleBoot (match gateBad s d with
        | some st => completeSt s d st
        | none => if awaitsMaster s d then stayQueued s d else body s)

/-- Completion with a cause in detail bits [7:0]. -/
def refuse (s : State) (d : Desc) (st : Status) (cause : Nat) : State := complete s d st (BitVec.ofNat 24 cause) 0

end Sys2Proof.Machine
end

