-- ==== Sys2Proof/Machine/Security.lean ====
section
/-! DEFINITION. Meanings of the configuration and security commands that concern slots, keys, the lifecycle and tamper
(R380, R382 to R392). -/

namespace Sys2Proof.Machine

/-! ### Slots (R382, R383) -/

def slotOf (d : Desc) : Nat := byteAt d 0x08

/-- SLOT_ERASE and SLOT_WRITE: the slot is WRITTEN, and no revert target any more. -/
def touchSlot (s : State) (n : Nat) : State :=
  let s := setSlotState s n 1
  if vaultPrevValid s ∧ vaultPrevious s = n then clearPrevious s else s

def slotErase (d : Desc) (s : State) : State :=
  let n := slotOf d
  if n = vaultActive s then completeSt s d stNoResource
  else
    let s := touchSlot s n
    let s := if dle d 0x0C 4 = 0 ∧ dle d 0x10 4 ≠ 0 then showSlot s n unreadable else s
    completeSt (saveVault s) d stOK

/-- SLOT_WRITE: its bytes go to the flash, which lies outside the device. -/
def slotWrite (d : Desc) (s : State) : State :=
  if slotOf d = vaultActive s then completeSt s d stNoResource
  else
    match sourceFault s d 0x09 0x18 (dle d 0x10 4) with
    | some st => completeSt s d st
    | none => completeSt (saveVault (touchSlot s (slotOf d))) d stOK

def slotVerify (d : Desc) (img : SlotRead) (s : State) : State :=
  let n := slotOf d
  let s := noteFrame (showSlot s n img) img
  match slotCheck s img with
  | some (_, st, detail) => complete (saveVault (setSlotState s n 4)) d st detail 0
  | none => completeSt (saveVault (setSlotState s n 2)) d stOK

def slotActivate (d : Desc) (s : State) : State :=
  let n := slotOf d
  if n = vaultActive s ∨ (slotState s n ≠ 2 ∧ slotState s n ≠ 3) then completeSt s d stNoResource
  else completeSt (saveVault (setBootCount (setActive (setPrevious s (vaultActive s)) n) 0)) d stOK

def slotSecurity (s : State) (n : Nat) : Nat := regBits s (slotReg n 4) 7 0

def revert (d : Desc) (s : State) : State :=
  if !revertible s then completeSt s d stNoResource
  else if slotSecurity s (vaultPrevious s) < rollbackCount s then completeSt s d stVersionReject
  else
    let a := vaultActive s
    completeSt (saveVault (setBootCount (setPrevious (setActive s (vaultPrevious s)) a) 0)) d stOK

/-! ### Anti-rollback (R384) -/

/-- ACTIVE has booted cleanly since the last start. -/
def activeClean (s : State) : Bool := (reg s (cfgReg 0)).getLsbD 14 && regBits s (cfgReg 0) 1 0 == vaultActive s

/-- ROLLBACK_COMMIT: no burn starts while BROWNOUT_WARN is raised. [log entry 100: DEDUCED] -/
def rollbackCommit (d : Desc) (s : State) : State :=
  let v := slotSecurity s (vaultActive s)
  if !activeClean s then completeSt s d stNoResource
  else if v ≤ rollbackCount s then completeSt s d stOK
  else if brownWarn s then stayQueued s d
  else
    let s := setRegBits s (cfgReg 0x30) 12 5 v
    let s := if vaultPrevValid s ∧ slotSecurity s (vaultPrevious s) < v then saveVault (clearPrevious s) else s
    completeSt s d stOK

/-! ### Keys (R385, R386) -/

/-- OWNER_KEY_SET: once in the life of the device, in BLANK, which it leaves: the public key, and with HAS_CK the content
key, sealed for the state that follows. [log entry 99: DEDUCED] -/
def ownerKeySet (x : Sourced) (s : State) : State :=
  let d := x.desc
  if ownerProvisioned s ∨ lifecycleCode s ≠ 0 then completeSt s d stNoResource
  else
    match sourceFault s d 0x08 0x10 128 with
    | some st => completeSt s d st
    | none =>
      let bs := sourceBytes s d 0x08 0x10 128 x.bytes
      let s := setRegBits (setRegBits s (cfgReg 0x30) 3 3 1) (cfgReg 0x30) 2 0 1
      completeSt { s with
        ownerKey := some (BitVec.ofNat 768 (leNumber (bs.take 96))), lcChanged := true
        ownerCk := if (byteAt d 0x09).testBit 0 then [(1, BitVec.ofNat 256 (leNumber ((bs.drop 96).take 32)))] else [] } d stOK

/-! ### The lifecycle (R387) -/

/-- The key that may authorise a transition exists. [log entry 99: DEDUCED] -/
def authorityExists (s : State) (target : Nat) : Bool :=
  let lc := lifecycleCode s
  target == 3 || (target == 4 && (lc == 0 || lc == 3)) || (ownerProvisioned s && !ownerRevoked s)

def lifecycleCmd (d : Desc) (sigOk : Bool) (s : State) : State :=
  let target := byteAt d 0x08
  if target ≤ lifecycleCode s ∨ target = 1 then complete s d stBadDescriptor (badDetail 0x08 2) 0
  else if !(sigOk && authorityExists s target) then completeSt s d stAuthFail
  else enterErase { s with lifecycle := some (d, target) }

/-- The state fuses are burned, the older sealed copy is zeroed, and the transition is recorded. -/
def burnLifecycle (s : State) (target : Nat) : State :=
  let old := lifecycleCode s
  let s := setRegBits s (cfgReg 0x30) 2 0 target
  let s := { s with ownerCk := s.ownerCk.filter (fun k => k.1 == target), lcChanged := true }
  let s := if target = 3 then setRegBits { s with ownerCk := [] } (cfgReg 0x30) 4 4 1 else s
  logEvent s (logSource 0x0A 0) 0x0035 stOK (BitVec.ofNat 24 (old + 256 * target))

/-! ### Tamper (R389, R392) -/

/-- TAMPER_CFG: in FIELD no ENABLE or RESPONSE bit is cleared. -/
def tamperCfg (d : Desc) (s : State) : State :=
  let e := byteAt d 0x08
  let r := byteAt d 0x09
  let field : Bool := lifecycleCode s == 2
  let clears := fun (old new : Nat) => field && old &&& new != old
  if clears (regBits s (cfgReg 0x34) 12 8) e then complete s d stBadDescriptor (badDetail 0x08 2) 0
  else if clears (regBits s (cfgReg 0x34) 20 16) r then complete s d stBadDescriptor (badDetail 0x09 2) 0
  else
    let s := setRegBits (setRegBits s (cfgReg 0x34) 12 8 e) (cfgReg 0x34) 20 16 r
    completeSt (setRegBits s (cfgReg 0x38) 25 16 (dle d 0x0A 2)) d stOK

def tamperClear (d : Desc) (detected : BitVec 5) (sigOk : Bool) (s : State) : State :=
  if detected.toNat &&& regBits s (cfgReg 0x34) 12 8 ≠ 0 then completeSt s d stNoResource
  else if lifecycleCode s = 2 ∧ !(sigOk && ownerProvisioned s) then completeSt s d stAuthFail
  else completeSt (setRegBits s (cfgReg 0x34) 4 0 0) d stOK

/-! ### Meanings -/

def execRevert (d : Desc) (s : State) : Host.Outcome State Fault Refusal := .next (runAdmin 0x0031 d (revert d) s)
def execSlotErase (d : Desc) (s : State) : Host.Outcome State Fault Refusal := .next (runAdmin 0x0033 d (slotErase d) s)
def execSlotWrite (d : Desc) (s : State) : Host.Outcome State Fault Refusal := .next (runAdmin 0x0034 d (slotWrite d) s)
def execSlotVerify (d : Desc) (img : SlotRead) (s : State) : Host.Outcome State Fault Refusal :=
  .next (runAdmin 0x0035 d (slotVerify d img) s)
def execSlotActivate (d : Desc) (s : State) : Host.Outcome State Fault Refusal :=
  .next (runAdmin 0x0036 d (slotActivate d) s)
def execRollbackCommit (d : Desc) (s : State) : Host.Outcome State Fault Refusal :=
  .next (runAdmin 0x0037 d (rollbackCommit d) s)

/-- BOOT_POLICY sets AUTO_REVERT (R380). -/
def execBootPolicy (d : Desc) (s : State) : Host.Outcome State Fault Refusal :=
  .next (runAdmin 0x0038 d (fun s => completeSt (saveVault (setRegBits s (cfgReg 0x04) 5 5 (byteAt d 0x08))) d stOK) s)
def execOwnerKeySet (d : Sourced) (s : State) : Host.Outcome State Fault Refusal :=
  .next (runAdmin 0x0039 d.desc (ownerKeySet d) s)
def execLifecycle (d : Desc) (sigOk : Bool) (s : State) : Host.Outcome State Fault Refusal :=
  .next (runAdmin 0x003A d (lifecycleCmd d sigOk) s)
def execTamperCfg (d : Desc) (s : State) : Host.Outcome State Fault Refusal := .next (runAdmin 0x003B d (tamperCfg d) s)
def execTamperClear (d : Desc) (detected : BitVec 5) (sigOk : Bool) (s : State) : Host.Outcome State Fault Refusal :=
  .next (runAdmin 0x003C d (tamperClear d detected sigOk) s)
def execTamperDetect (src : TamperSource) (s : State) : Host.Outcome State Fault Refusal := .next (tamper src s)

end Sys2Proof.Machine
end

