-- ==== Sys2Proof/Machine/Modes.lean ====
section
/-! DEFINITION. Meanings of reset, boot, RESTART, START_OUTPUTS, the end of ERASE, MODE_SET, wakes and SENTINEL_EXIT (R20 to
R22, R310, R340, R341, R367, R381, R383, R388, R390, R396 to R403, R448). -/

namespace Sys2Proof.Machine

/-! ### Reset (R417, R448) -/

/-- Registers that MRAM and fuses keep: the Vault directory, slots, fuses and tamper count (R393), the Guard configuration
(R414) and the ball safe table (R305). [log entries 39: DEDUCED; 101: DEDUCED] -/
def keptRegs (s : State) : Cells 32 :=
  s.regs.filter (fun e => (0x60004 ≤ e.1 && e.1 < 0x60034) || (0x74010 ≤ e.1 && e.1 < 0x74018) ||
    (0x40100 ≤ e.1 && e.1 < 0x40140))

/-- The physical courses after a reset: FAILED ones stay so, and the map is that of shipment where no course is FAILED.
[log entries 39: DEDUCED; 101: DEDUCED] -/
def keptMap (s : State) : Vector (Fin 68) 64 :=
  if s.pcourse.toList.contains .failed then s.lmap else State.reset.lmap

def keptCourses (s : State) : Vector PState 68 :=
  let map := keptMap s
  Vector.ofFn (fun (p : Fin 68) =>
    if s.pcourse[p] = .failed then .failed else if map.toList.contains p then .active else .spareOff)

/-- A channel's configuration without its running sums. -/
def keptChan (c : GuardChan) : GuardChan := { c with squares := [], nanRun := 0, rms := 0, peak := 0 }

/-- The identities that the NIs serve follow the map (R239). -/
def showMap (s : State) : State :=
  let moved := (List.finRange 64).filter (fun c => s.lmap[c] != Fin.castLE (by decide) c)
  let s := moved.foldl (fun s c => setRegBits s (niReg (physPort c.val) 0) 31 16 (0xA000 + c.val)) s
  moved.foldl (fun s c => setRegBits s (niReg (physPort (s.lmap[c]).val) 0) 31 16 c.val) s

/-- VALID of GUARD_STATUS follows the configuration (R414). -/
def settleGuard (s : State) : State := setRegBits s 0x74000 0 0 (guardValid s).toNat

/-- A boot that a reset interrupts counts as failed (R376). -/
def interruptBoot (s : State) : State :=
  if s.bootPass.any (fun p => p.wakeTo.isNone) then saveVault (setSlotState s (vaultActive s) 4) else s

/-- The device is held in reset. [log entries 39: DEDUCED; 64: DEDUCED; 101: DEDUCED] -/
def resetDevice (s : State) : State :=
  let s := interruptBoot s
  let old := modeCode s.mode
  let t := { State.reset with
    pending := s.pending, free := s.free, regs := keptRegs s, epoch := s.epoch, frac := s.frac
    log := s.log.drop (s.logNext - s.logDone), logNext := s.logDone, logDone := s.logDone
    pcourse := keptCourses s, lmap := keptMap s, host := s.host, msix := s.msix, nonce := s.nonce + 1
    ownerCk := s.ownerCk, ownerKey := s.ownerKey, lcChanged := s.lcChanged, vault := s.vault
    jtag := { s.jtag with taken := false, control := false }
    guard := { State.reset.guard with chans := s.guard.chans.map keptChan } }
  let t := setRegBits (showMap (settleGuard (loadVault t))) (cfgReg 0x38) 15 0 (regBits s (cfgReg 0x38) 15 0)
  if s.mode = .boot then t
  else logEvent t 0 0x0001 stOK (BitVec.ofNat 24 (modeCode .boot + 16 * old))

/-- POR_N or the internal reset is released: the boot begins (R367). -/
def releaseReset (attempts : List SlotRead) (fallback : Bool) (us : BitVec 20) (s : State) : State :=
  if s.mode ≠ .boot then s
  else
    let s := setRegBits s (cfgReg 0) 17 17 fallback.toNat
    bootFrom { attempts, autoOk := true, us, wakeTo := none, bad := none } s

/-! ### RESTART (R341, R383) -/

/-- PATCH_LOAD, and a firmware switch, end with the boot. -/
def dropFirmware (s : State) : State :=
  let s := match s.patchLoad with
    | some l => completeSt (cancelPending { s with patchLoad := none } l.left) l.desc stAborted
    | none => s
  match s.fwSwitch with
  | some d => completeSt { s with fwSwitch := none } d stAborted
  | none => s

/-- Outputs stop with the boot: SAFE_DRIVE_EN is low, and no ramp runs. -/
def stopOutputs (s : State) : State :=
  let s := setRegBits (driveEnable s false) 0x74000 2 1 0
  let s := setRegBits s 0x70000 4 4 0
  zeroDrive { s with guard := { s.guard with num := 0, den := 1, ramp := none, heldAt := none } }

/-- All work and every domain ends; the host interface and the set-up fields are reset; the debug lock closes. -/
def endSession (s : State) : State :=
  let s := stopOutputs (dropFirmware (stopAllWork s))
  let s := switchOff s false
  let s := setRegBits (hifReset s) 0x1000 31 31 0
  let s := lockableRegs.foldl resetLockable s
  let s := setReg (setReg (unlockLock s) 0x90010 0) 0x90004 0
  { setRegBits s 0x70000 9 9 0 with
      bows := s.bows.map (fun w => { w with clockSet := 20, clock := 20 }), nonce := s.nonce + 1
      jtag := { s.jtag with taken := false, control := false }, bootPass := none, keepLink := false, fullBoot := false, forced := [] }

def restartDevice (attempts : List SlotRead) (autoOk : Bool) (s : State) : State :=
  let us := BitVec.ofNat 20 (regBits s (cfgReg 0x48) 19 0)
  bootFrom { attempts, autoOk, us, wakeTo := none, bad := none } (endSession s)

def restart (d : Desc) (attempts : List SlotRead) (s : State) : State := restartDevice attempts true (completeSt s d stOK)

/-! ### START_OUTPUTS (R381, R432) -/

def startCmd (d : Desc) (s : State) : State :=
  if s.mode ≠ .hold then completeSt s d stOK
  else
    match outputsBad s with
    | some c => refuse s d stNoResource c
    | none => if scanTaken s then completeSt s d stNoResource else completeSt (startOutputs s) d stOK

/-! ### The end of ERASE (R387, R388, R390) -/

/-- RUNNING quadrants are READY again: in HOLD none runs (R396). -/
def stopQuads (s : State) : State :=
  (List.finRange 4).foldl (fun s f => if quadState s f = 2 then setQuad s f 1 else s) s

/-- A ramp to 0 is running. -/
def rampDownRuns (s : State) : Bool := match s.guard.ramp with
  | some r => !r.up
  | none => false

def eraseDone (attempts : List SlotRead) (s : State) : State :=
  if s.mode ≠ .erase then s
  else
    let s := setRegBits { s with wipeEnd := none } 0x30004 1 1 0
    match s.lifecycle with
    | some (d, target) => restartDevice attempts false (completeSt (burnLifecycle { s with lifecycle := none } target) d stOK)
    | none =>
      if rampDownRuns s then setMode (switchOff (zeroDrive s) true) .sentinel
      else
        let s := if storeIsOn s then s else peersOn (storeOn s)
        setMode (zeroDrive (driveEnable (stopQuads s) false)) .hold

/-! ### Low-power modes (R396, R400) -/

/-- A kernel runs or is queued, or a brownout holds its launch. -/
def kernelsBusy (s : State) : Bool :=
  !s.brown.held.isEmpty || anyKernel s || s.bows.toList.any (fun w => !w.queue.isEmpty || !w.launches.isEmpty)

/-- MODE_SET is refused (R400); it loses to an abort ramp (R399). -/
def modeSetBad (s : State) (d : Desc) (d3hot : Bool) : Bool :=
  let standby : Bool := byteAt d 0x08 == 1
  let keep : Bool := (byteAt d 0x09).testBit 0
  !(s.mode == .idle || (standby && s.mode == .hold)) || kernelsBusy s || regBits s 0x70000 8 5 != 0 ||
  (reg s 0x50004).getLsbD 4 || (standby && !keep && !d3hot) || rampDownRuns s

/-- PCIe goes off in STANDBY without KEEP_LINK. -/
def pcieOff (s : State) : State := setDomainNis (markDomain s 94 false) 94 2

def modeSetCmd (d : Desc) (d3hot : Bool) (s : State) : State :=
  if modeSetBad s d d3hot then completeSt s d stNoResource
  else
    let standby : Bool := byteAt d 0x08 == 1
    let keep : Bool := (byteAt d 0x09).testBit 0
    let s := completeSt s d stOK
    let s := switchOff (driveEnable { zeroDrive s with before := s.mode, keepLink := keep } false) true
    let s := if standby ∧ !keep then pcieOff s else s
    setMode s (if standby then .standby else .sleep)

/-- A wake source is there (R400). [log entry 92: DESIGN CHOICE] -/
def wakeDue (s : State) : WakeSource → Bool
  | .sched => s.sched.any (fun e => e.wake && entryDue s e)
  | .hifWake => s.mode == .sleep || s.keepLink
  | .perst => s.mode == .standby && !s.keepLink
  | .lfFail => (reg s 0x50004).getLsbD 4
  | .tamper => s.fullBoot || tamperLatched s != 0

/-- PERST_N is deasserted: WAKE_N is released. -/
def releaseWakeN (s : State) (src : WakeSource) : State :=
  if src = .perst then { s with pins := { s.pins with wakeN := true } } else s

/-- WAKE_N is asserted in STANDBY without KEEP_LINK for every source but PERST_N. [log entry 102: DEDUCED] -/
def assertWakeN (s : State) (src : WakeSource) : State :=
  if s.mode = .standby ∧ !s.keepLink ∧ src ≠ .perst then { s with pins := { s.pins with wakeN := false } } else s

/-- A full boot after a tamper detection in a low-power mode: it ends in HOLD (R391). [log entry 102: DEDUCED] -/
def wakeFull (s : State) (reads : List SlotRead) : State :=
  let s := setRegBits (setRegBits { s with fullBoot := false } (cfgReg 0) 14 14 0) 0x70000 9 9 0
  let us := BitVec.ofNat 20 (regBits s (cfgReg 0x48) 19 0)
  bootFrom { attempts := reads, autoOk := false, us, wakeTo := none, bad := none } (stopOutputs (stopAllWork s))

/-- Entries with WAKE that are due act late, after the wake (R327). -/
def lateWakes (s : State) : State :=
  { s with sched := s.sched.map (fun e => if e.wake && entryDue s e then { e with late := true } else e) }

/-- A wake, with what the reads of the slot give: the first serves a wake without a full boot. -/
def wake (src : WakeSource) (reads : List SlotRead) (s : State) : State :=
  let low : Bool := s.mode == .standby || s.mode == .sleep
  let img := reads.headD unreadable
  if !low || !wakeDue s src then releaseWakeN s src
  else
    let s := pcieOn (assertWakeN (lateWakes s) src)
    if s.fullBoot then wakeFull s reads
    else if s.mode = .sleep then wakeIdle (powerDomains s img)
    else wakeBoot s img (if s.before = .hold then .hold else .idle)

/-! ### SENTINEL_EXIT (R403) -/

/-- More than 16 uncorrectable errors in the past hour in a store quadrant or in the active courses (R419). -/
def eccExceeded (s : State) : Bool :=
  let past := pastHour s s.uncorr
  (List.range 4).any (fun q => (past.filter (fun e => e.1 == logSource 0x03 q)).length > 16) ||
  (past.filter (fun e => e.1.toNat / 256 == 1)).length > 16

/-- A fault that forced SENTINEL is still present. -/
def sentinelFault (s : State) : Bool := s.faults.any (fun f => s.forced.contains f && (f != .ecc || eccExceeded s))

def sentinelBad (s : State) : Option Nat :=
  if rampDownRuns s then some 1
  else if brownWarn s then some 2
  else if tamperLatched s ≠ 0 then some 3
  else if sentinelFault s then some 4
  else none

def sentinelExit (d : Desc) (img : SlotRead) (s : State) : State :=
  match sentinelBad s with
  | some c => refuse s d stNoResource c
  | none => completeSt (leaveSentinel (clearFault s .ecc) img) d stOK

/-! ### Meanings -/

def execReset (s : State) : Host.Outcome State Fault Refusal := .next (resetDevice s)
def execPorRelease (attempts : List SlotRead) (fallback : Bool) (us : BitVec 20) (s : State) :
    Host.Outcome State Fault Refusal := .next (releaseReset attempts fallback us s)
def execRestart (d : Desc) (attempts : List SlotRead) (s : State) : Host.Outcome State Fault Refusal :=
  .next (runAdmin 0x0032 d (restart d attempts) s)
def execStartOutputs (d : Desc) (s : State) : Host.Outcome State Fault Refusal :=
  .next (runAdmin 0x0030 d (startCmd d) s)
def execEraseEnd (attempts : List SlotRead) (s : State) : Host.Outcome State Fault Refusal := .next (eraseDone attempts s)
def execModeSet (d : Desc) (d3hot : Bool) (s : State) : Host.Outcome State Fault Refusal :=
  .next (runAdmin 0x0040 d (modeSetCmd d d3hot) s)
def execWake (src : WakeSource) (reads : List SlotRead) (s : State) : Host.Outcome State Fault Refusal :=
  .next (wake src reads s)
def execSentinelExit (d : Desc) (img : SlotRead) (s : State) : Host.Outcome State Fault Refusal :=
  .next (runAdmin 0x0041 d (sentinelExit d img) s)

end Sys2Proof.Machine
end

