-- ==== Sys2Proof/Machine/Fabric.lean ====
section
/-! DEFINITION. Meanings of the fabric commands: loading, starting, the ball safe table, snapshots, and the time limit of a
fabric port (R292, R293, R297 to R308). -/

namespace Sys2Proof.Machine

/-! ### The checks of a load (R299, R300) -/

/-- Some quadrant is READY or RUNNING. -/
def anyLoaded (s : State) : Bool := (List.finRange 4).any (fun f => quadState s f == 1 || quadState s f == 2)

/-- Order 1: the cause of a refusal. [log entry 71: DESIGN CHOICE] -/
def loadRefused (s : State) (mask : Nat) : Option Nat :=
  let f := mask.log2
  let lanes : Bool := (reg s 0x74010).toNat / 2 ^ (8 * f) % 256 != 0
  let inputs : Bool := (List.range 4).any (fun c =>
    let k := s.guard.chans[Fin.ofNat 16 (4 * f + c)]
    k.enabled && k.window.isNone)
  let live : Bool := match s.mode with
    | .hold | .idle | .run | .service => true
    | _ => false
  if s.fabLoad.isSome || s.snap.isSome then some 1
  else if !live then some 2
  else if mask = 0 ∨ mask ≠ 2 ^ f then some 0
  else if outputsActive s && (lanes || inputs) then some 3
  else none

/-- Order 11, after orders 5 to 10: the checks of VERIFY. -/
def loadVerify (s : State) (mask : Nat) (i : FabImage) : Option (Status × Nat × Nat) :=
  match imageBody s mask i with
  | some x => some x
  | none => if anyLoaded s && (imageGlobal i).bytes != s.fabGlobal.bytes then some (stBadDescriptor, 9, 0) else none

/-! ### Loading (R302, R304) -/

/-- FAB_LOAD_STATUS: BUSY, QUAD, STEP, STATUS and CAUSE. -/
def loadStatus (s : State) (busy quad step st cause : Nat) : State :=
  setReg s 0x40004 (BitVec.ofNat 32 (busy + 2 * (quad % 4) + 8 * step + 64 * st + 2 ^ 14 * (cause % 256)))

/-- FAB_LOAD_FRAME. -/
def loadFrame (s : State) (f : Nat) : State := setReg s 0x40008 (BitVec.ofNat 32 (f % 8192))

/-- SERVICE_OPS bit of a FAB_LOAD (R397). -/
def loadService (s : State) (v : Nat) : State := settleMode (setRegBits s 0x70000 7 7 v)

/-- A load fails a check: nothing changes but its status. -/
def loadFails (s : State) (d : Desc) (quad step : Nat) (st : Status) (cause frame : Nat) : State :=
  let s := loadFrame (loadStatus s 0 quad step st.toNat cause) frame
  let s := logEvent s (logSource 0x06 quad) 0x0033 st (BitVec.ofNat 24 (quad + 256 * cause))
  let detailed : Bool := st == stBadDescriptor || st == stNoResource
  complete s d st (if detailed then BitVec.ofNat 24 (cause + 256 * frame) else 0) 0

/-- Order 1 refuses a load: QUAD, STATUS and CAUSE show it, beside a load that goes on.
[log entry 71: DESIGN CHOICE] -/
def loadTurnedAway (s : State) (d : Desc) (quad cause : Nat) : State :=
  let old := (reg s 0x40004).toNat
  refuse (loadStatus s (old % 2) quad (old / 8 % 8) stNoResource.toNat cause) d stNoResource cause

/-- FAB_LOAD: after CHECK the load is in VERIFY, and the device in SERVICE. An image in the store is read from it. -/
def fabLoadCmd (d : Desc) (i : FabImage) (s : State) : State :=
  let mask := byteAt d 0x09
  let q := mask.log2
  match loadRefused s mask with
  | some c => loadTurnedAway s d q c
  | none =>
    match sourceFault s d 0x08 0x10 (dle d 0x0C 4) with
    | some st => loadFails s d q 0 st 0 0
    | none =>
      let i := fabSource s d i
      match imageHead s mask i with
      | some (st, c, f) => loadFails s d q 0 st c f
      | none =>
        let s := loadFrame (loadStatus (loadService s 1) 1 q 1 0 0) 0
        { s with fabLoad := some { desc := d, quad := Fin.ofNat 4 q, wait := (byteAt d 0x0A).testBit 0, image := i, step := 1 } }

/-- The load ends: its record goes, and SERVICE with it. -/
def endLoad (s : State) (l : FabLoad) (step : Nat) (st : Status) : State :=
  let s := loadStatus { s with fabLoad := none } 0 l.quad step st.toNat 0
  logEvent (loadService s 0) (logSource 0x06 l.quad) 0x0033 st (BitVec.ofNat 24 l.quad)

/-- The load is in a step. -/
def loadStep (s : State) (l : FabLoad) (step : Nat) : State := loadStatus { s with fabLoad := some { l with step } } 1 l.quad step 0 0

/-- SAFE: the balls take their safe state, flip-flops are held, tree gates close, the NI is OFF, and the old image is gone. -/
def enterSafe (s : State) (l : FabLoad) : State := setQuad (emptyQuad (loadStep s l 3) l.quad) l.quad 4

/-- APPLY begins with the first frame. -/
def enterApply (s : State) (l : FabLoad) : State := loadFrame (loadStep s l 4) 0

/-- VERIFY ends: the load fails with nothing changed, or ISOLATE follows, or SAFE where the quadrant does not run.
[log entry 71: DESIGN CHOICE] -/
def endVerify (s : State) : State :=
  match s.fabLoad with
  | some l =>
    if l.step ≠ 1 then s
    else
      match loadVerify s (2 ^ l.quad.val) l.image with
      | some (st, c, f) => loadService (loadFails { s with fabLoad := none } l.desc l.quad 1 st c f) 0
      | none =>
        let s := loadFrame s (l.image.frames.length - 1)
        if quadRuns s l.quad then setQuad (loadStep s l 2) l.quad 3 else enterSafe s l
  | none => s

/-- Requests that the quadrant admitted are answered by its logic before SAFE (R254). -/
def quadDrained (s : State) (f : Fin 4) : Bool := (s.fp[f]).pend.isEmpty

/-- Its trees have risen four times: flip-flops, balls, latches, ports and lanes are open (R302). A gated tree without a source
is not waited for. [log entry 71: DESIGN CHOICE] -/
def startEnded (s : State) (f : Fin 4) : Bool := (List.finRange 4).all (fun t =>
  !(s.fab.quads[f]).gates.getLsbD t.val || s.fabGlobal.trees[t] == .none || edgesSince s f t ≥ 4)

/-- START ends: the command completes. -/
def endStart (s : State) (l : FabLoad) : State :=
  if startEnded s l.quad then completeSt (endLoad s l 5 stOK) l.desc stOK else s

/-- A load goes from step to step; APPLY ends with a command of its own. -/
def loadTick (s : State) : State :=
  match s.fabLoad with
  | some l =>
    if l.step = 1 then endVerify s
    else if l.step = 2 then (if quadDrained s l.quad then enterSafe s l else s)
    else if l.step = 3 then enterApply s l
    else if l.step = 5 then endStart s l
    else s
  | none => s

/-- The steps before APPLY end where they have not: what is admitted then is answered with DOMAIN_OFF (R254). -/
def reachApply (s : State) : State :=
  let s := endVerify s
  let s := match s.fabLoad with
    | some l => if l.step = 2 then enterSafe s l else s
    | none => s
  match s.fabLoad with
  | some l => if l.step = 3 then enterApply s l else s
  | none => s

/-- The codes of R304: AUTH_FAIL for a digest, ECC_UNCORRECTED for every failed read. -/
def applyStatus (st : Status) : Status := if st = stOK ∨ st = stAuthFail then st else stEccUncorrected

/-- The end of APPLY: START, READY, or EMPTY. In HOLD no quadrant starts (R379). -/
def applyDone (st : Status) (s : State) : State :=
  let st := applyStatus st
  let s := reachApply s
  match s.fabLoad with
  | none => s
  | some l =>
    if l.step ≠ 4 then s
    else if st ≠ stOK then completeSt (endLoad (emptyQuad s l.quad) l 4 st) l.desc st
    else
      let waits : Bool := l.wait || s.mode == .hold
      let s := setQuad (writeQuad { s with fabGlobal := imageGlobal l.image } l.quad l.image.quads[l.quad]) l.quad (if waits then 1 else 2)
      let s := loadFrame (setReg s (0x40010 + 4 * l.quad.val) (fabVersionOf l.image)) (l.image.frames.length - 1)
      let s := { s with fabLive := s.fabLive ||| BitVec.ofNat 4 (2 ^ l.quad.val) }
      if waits then completeSt (endLoad s l 4 stOK) l.desc stOK else endStart (loadStep s l 5) { l with step := 5 }

/-- FAB_START: every quadrant of the mask is READY, and the device is not in HOLD. [log entry 103: DEDUCED] -/
def fabStartCmd (d : Desc) (s : State) : State :=
  let named := (List.finRange 4).filter (fun f => (byteAt d 0x09).testBit f.val)
  if s.mode = .hold ∨ named.any (fun f => quadState s f != 1) then completeSt s d stNoResource
  else completeSt (named.foldl (fun s f => setQuad s f 2) s) d stOK

/-! ### The ball safe table (R305) -/

def safeSet (d : Desc) (s : State) : State :=
  let s := (List.range 64).foldl (fun s i =>
    if (dle d 0x08 8).testBit i then setRegBits s (0x40100 + i / 4 * 4) (8 * (i % 4) + 7) (8 * (i % 4)) (byteAt d (0x10 + i)) else s) s
  completeSt s d stOK

/-! ### Snapshots (R306 to R308) -/

def fabSnapCmd (d : Desc) (s : State) : State :=
  if s.snap.isSome || s.fabLoad.isSome then completeSt s d stNoResource
  else
    let s := setRegBits (snapState s 1) 0x40030 7 6 (byteAt d 0x08)
    { s with snap := some { desc := d, fired := false, taken := false, ffs := [], outs := [] } }

/-- The capture edge: the second or the third rising edge of the tree after the trigger.
[log entry 24: DESIGN CHOICE] -/
def snapCapture (s : State) : State :=
  match s.snap with
  | some k => if k.taken || !k.fired || k.edges = 0 then s else takeSnap s k
  | none => s

/-- Eight flip-flops of the shadow from a key on. -/
def shadowByte (k : Snap) (key : Nat) : BitVec 8 :=
  BitVec.ofNat 8 ((List.range 8).foldl (fun v j => v + (cget zeroes k.ffs (key + j)).toNat * 2 ^ j) 0)

/-- The SNAP frame of a quadrant: its flip-flops, then 5 bytes for each block-RAM port. -/
def snapFrame (k : Snap) (q : Nat) (valid : Bool) : List (BitVec 8) :=
  let head := leBytes 0xA55AF00D 4 ++ leBytes (q + 4 * 5) 4 ++ leBytes 1440 2 ++ leBytes valid.toNat 2
  let body := if valid then (List.range 1280).map (fun i => shadowByte k (10240 * q + 8 * i)) ++
      (List.range 32).flatMap (fun p => leBytes (cget zeroes k.outs (32 * q + p)).toNat 5)
    else List.replicate 1440 0
  head ++ body ++ leBytes (crc32 (head ++ body)).toNat 4

/-- The next frame of the shadow is written to the destination. [log entry 20: DESIGN CHOICE] -/
def snapWrite (s : State) (k : Snap) : State :=
  let f := takeFree s
  let s := f.2
  let dst := byteAt k.desc 0x0B
  let r := if dst = 1 ∧ !storeServes s then (s, stDomainOff)
    else
      let bytes := snapFrame k k.frames ((regBits s 0x40030 5 2).testBit k.frames)
      if dst = 1 then storeSpan (Config.snapMeets f.1) s (dle k.desc 0x10 8) (1456 * k.frames) bytes
      else (hostWrite s (dle k.desc 0x10 8 + 1456 * k.frames) bytes, stOK)
  { r.1 with snap := some { k with frames := k.frames + 1, bad := if r.2 = stOK then k.bad else some (worse r.2 (k.bad.getD stOK)) } }

/-- The readback goes on: to host memory only with Bus Master Enable. -/
def snapReads (s : State) (k : Snap) : Bool := k.taken && (byteAt k.desc 0x0B == 1 || busMaster s)

/-- A frame of the readback in a tick. [log entry 20: DESIGN CHOICE] -/
def snapTick (s : State) : State :=
  match s.snap with
  | some k => if snapReads s k && k.frames < 4 then snapWrite s k else s
  | none => s

/-- The shadow has been read back: the frames not yet written are written, and the command completes.
[log entry 20: DESIGN CHOICE] -/
def snapDone (s : State) : State :=
  match s.snap with
  | some k =>
    if !snapReads s k then s
    else
      let s := (List.range 4).foldl (fun s _ => snapTick s) s
      let st := (s.snap.bind (fun k => k.bad)).getD stOK
      complete (snapState { s with snap := none } 0) k.desc st 0 (reg64 s 0x40034 0x40038)
  | none => s

/-! ### The time limit of a fabric port (R293) -/

/-- A request that the fabric logic has not answered is answered with TIMEOUT. -/
def fpTimeout (f : Fin 4) (src : Requester) (tag : BitVec 8) (s : State) : State :=
  let k := s.fp[f]
  match k.pend.find? (fun p => p.src == src.src && p.sdev == src.sdev && p.tag == tag) with
  | some p =>
    let s := { s with fp := s.fp.set f { k with pend := k.pend.erase p, late := k.late ++ [p] } }
    respond (countUp s (0x40040 + 4 * f.val) 23 12 1) p stTimeout []
  | none => s

/-! ### Meanings -/

def execFabLoad (d : Desc) (img : FabImage) (s : State) : Host.Outcome State Fault Refusal :=
  .next (runAdmin 0x0018 d (fabLoadCmd d img) s)
def execFabApplyDone (status : BitVec 8) (s : State) : Host.Outcome State Fault Refusal := .next (applyDone status s)
def execFabStart (d : Desc) (s : State) : Host.Outcome State Fault Refusal := .next (runAdmin 0x0019 d (fabStartCmd d) s)
def execFabSafeSet (d : Desc) (s : State) : Host.Outcome State Fault Refusal := .next (runAdmin 0x001A d (safeSet d) s)
def execFabSnap (d : Desc) (s : State) : Host.Outcome State Fault Refusal := .next (runAdmin 0x001B d (fabSnapCmd d) s)
def execFabSnapCapture (s : State) : Host.Outcome State Fault Refusal := .next (snapCapture s)
def execFabSnapReadbackDone (s : State) : Host.Outcome State Fault Refusal := .next (snapDone s)
def execFpResponseTimeout (port : Fin 4) (src : Requester) (tag : BitVec 8) (s : State) : Host.Outcome State Fault Refusal :=
  .next (fpTimeout port src tag s)

end Sys2Proof.Machine
end

