-- ==== Sys2Proof/Machine/Guard.lean ====
section
/-! DEFINITION. Meanings of the Guard's samples and commands, the end of a ramp, supply brownout and fault escalation
(R295, R412 to R419). -/

namespace Sys2Proof.Machine

/-! ### Starting an abort (R398, R415) -/

/-- Modes from which an abort leads to SENTINEL. [log entry 105: DEDUCED] -/
def abortMode (s : State) : Bool := s.mode == .idle || s.mode == .run || s.mode == .service || s.mode == .halt

/-- An abort cause arises: a ramp starts, or one that runs goes on and the cause is recorded.
[log entry 105: DEDUCED] -/
def guardAbort (s : State) (cause channel : Nat) : State :=
  if abortMode s || rampDownRuns s then startRamp s cause channel else s

/-- A fault of R419 forces SENTINEL through an abort. -/
def faultAbort (s : State) (row : FaultRow) : State :=
  guardAbort { s with forced := if s.forced.contains row then s.forced else row :: s.forced } 8 0

/-! ### Drive lanes (R413) -/

/-- `n / d` rounded to nearest, ties to even. -/
def divNearest (n d : Nat) : Nat :=
  let q := n / d
  let r := n % d
  if 2 * r > d ∨ (2 * r = d ∧ q % 2 = 1) then q + 1 else q

/-- Saturate to the 24-bit output. [log entry 104: DESIGN CHOICE] -/
def saturate24 (neg : Bool) (m : Nat) : BitVec 24 :=
  if neg then BitVec.ofInt 24 (-(min m (2 ^ 23) : Nat)) else BitVec.ofNat 24 (min m (2 ^ 23 - 1))

/-- DRV_OUT for an input and a gain of num / den: x × g × 2^23. [log entry 104: DESIGN CHOICE] -/
def driveOut (x : Word) (num den : Nat) : BitVec 24 :=
  match unpackFmt 31 8 x.toNat with
  | .nan _ => 0
  | .inf neg => if num = 0 then 0 else saturate24 neg (2 ^ 23)
  | .fin neg m e =>
    let k := e + 23
    let up := m * num * 2 ^ k.toNat
    let down := den * 2 ^ (-k).toNat
    saturate24 neg (divNearest up down)

def wordIsNaN (x : Word) : Bool := fpIsNaN (unpackFmt 31 8 x.toNat)

def driveSample (l : Fin 32) (x : Word) (s : State) : State :=
  if !strobeTaken s l.val then s
  else
    let s := noteStrobe s l.val
    let put := fun (s : State) (v : BitVec 24) => { s with guard := { s.guard with drvOut := s.guard.drvOut.set l v } }
    if !(reg s 0x74010).getLsbD l.val then put s 0
    else if wordIsNaN x then put (countUp s (0x74100 + 4 * l.val) 31 0 1) 0
    else
      let g := gainAt s
      put s (driveOut x g.1 g.2)

/-! ### Abort channels (R412) -/

/-- x² in units of 2^-314, |x| saturated at 2^16. -/
def squareOf (m : Nat) (e : Int) : Nat :=
  let v := m * 2 ^ (e + 157).toNat
  let v := min v (2 ^ 173)
  v * v

/-- W of a channel. -/
def chanLen (c : GuardChan) : Nat := 2 ^ c.log2w.toNat

/-- The sum exceeds W × RMS_LIMIT². [log entry 106: DESIGN CHOICE] -/
def rmsExceeded (c : GuardChan) : Bool :=
  match unpackFmt 31 8 c.limRms.toNat with
  | .fin neg m e => neg || c.squares.foldl (· + ·) 0 > chanLen c * (m * m * 2 ^ (2 * (e + 157)).toNat)
  | _ => false

/-- The current RMS as FP40: the square root of sum / W, rounded to nearest. [log entry 106: DESIGN CHOICE] -/
def rmsWord (c : GuardChan) : Word :=
  let n := c.squares.foldl (· + ·) 0 * 2 ^ 64 / chanLen c
  let r := isqrtFrom n (n.log2 / 2 + 1) 0
  (fpRound (fpCtlOf 0) false r (-189) (r * r != n)).1

/-- |x| lies above PEAK_LIMIT; an infinity always does. -/
def peakExceeded (c : GuardChan) (x : Word) : Bool :=
  let a := x &&& 0x7FFFFFFFFF
  match unpackFmt 31 8 a.toNat with
  | .inf _ => true
  | _ => !wordIsNaN c.limPeak && fpValKey a > fpValKey c.limPeak

/-- A sample goes through a channel: its state, and the cause of an abort. -/
def chanSample (c : GuardChan) (x : Word) : GuardChan × Option Nat :=
  if wordIsNaN x then
    let n := c.nanRun + 1
    ({ c with nanRun := n }, if c.nanLimit.toNat ≠ 0 ∧ n ≥ c.nanLimit.toNat then some 4 else none)
  else
    let a := x &&& 0x7FFFFFFFFF
    let c := { c with nanRun := 0, peak := if fpValKey a > fpValKey c.peak then a else c.peak }
    if peakExceeded c x then (c, some 2)
    else
      match unpackFmt 31 8 a.toNat with
      | .fin _ m e =>
        let c := { c with squares := (squareOf m e :: c.squares).take (chanLen c) }
        let c := { c with rms := rmsWord c }
        (c, if rmsExceeded c then some 1 else none)
      | _ => (c, none)

/-- A sample reaches channel ch. -/
def channelSample (ch : Fin 16) (s : State) (x : Word) : State :=
  let r := chanSample s.guard.chans[ch] x
  let s := { s with guard := { s.guard with chans := s.guard.chans.set ch r.1 } }
  match r.2 with
  | some cause => guardAbort s cause ch.val
  | none => s

/-- A strobe on a fabric abort input (R295). -/
def abortSample (ch : Fin 16) (x : Word) (s : State) : State :=
  let c := s.guard.chans[ch]
  if !strobeTaken s (32 + ch.val) then s
  else
    let s := noteStrobe s (32 + ch.val)
    if c.enabled && c.window.isNone then channelSample ch s x else s

/-- One element of a source window; a word that is not read with OK is no sample. [log entry 107: DEDUCED] -/
def windowSample (ch : Fin 16) (meets : List (Nat × Meet)) (s : State) (a : Nat) : State :=
  let r := readWord false s a (meetOf meets a)
  if r.2.status = stOK then channelSample ch r.1 r.2.word else r.1

/-- The Guard reads its window up to the tail and advances the head. [log entry 107: DEDUCED] -/
def windowRead (ch : Fin 16) (meets : List (Nat × Meet)) (s : State) : State :=
  let c := s.guard.chans[ch]
  match c.window with
  | some w =>
    if !c.enabled || !storeServes s || !winOn s w then s
    else
      let n := winUsed s w
      let elems := (List.range n).map (headElem s w)
      (advanceWindow (elems.foldl (windowSample ch meets) s) w false n).1
  | none => s

/-- No sample for STALE_US while outputs are started. -/
def staleAbort (ch : Fin 16) (s : State) : State :=
  let c := s.guard.chans[ch]
  if c.enabled && c.stale != 0 && outputsStarted s then guardAbort s 3 ch.val else s

/-! ### Configuration (R414, R420) -/

/-- The channel that a GUARD_CHANNEL descriptor describes. -/
def chanOf (d : Desc) : GuardChan :=
  { GuardChan.reset with
    enabled := byteAt d 0x09 != 0
    window := if byteAt d 0x09 = 2 then some (Fin.ofNat 16 (byteAt d 0x0A)) else none
    limRms := BitVec.ofNat 40 (dle d 0x10 8), limPeak := BitVec.ofNat 40 (dle d 0x18 8)
    nanLimit := BitVec.ofNat 16 (dle d 0x0E 2), log2w := BitVec.ofNat 5 (byteAt d 0x0B), stale := BitVec.ofNat 32 (dle d 0x0C 2) }

/-- A limit is not raised. [log entry 108: DEDUCED] -/
def notAbove (new old : Word) : Bool := new == old || (!wordIsNaN new && !wordIsNaN old && fpValKey new ≤ fpValKey old)

/-- A count is unchanged, or lower and not 0. [log entry 108: DEDUCED] -/
def notLooser (new old : Nat) : Bool := new == old || (0 < new && new < old)

/-- The change does nothing but tighten. [log entry 108: DEDUCED] -/
def tightens (old new : GuardChan) : Bool :=
  new.enabled == old.enabled && new.window == old.window && new.log2w == old.log2w && notAbove new.limRms old.limRms &&
  notAbove new.limPeak old.limPeak && notLooser new.stale.toNat old.stale.toNat && notLooser new.nanLimit.toNat old.nanLimit.toNat

/-- The configuration has changed: recorded, and VALID follows it. -/
def configChanged (s : State) (code : Nat) : State :=
  logEvent (settleGuard s) (logSource 0x0B 0) 0x0051 stOK (BitVec.ofNat 24 code)

def guardChannelCmd (d : Desc) (s : State) : State :=
  let ch := Fin.ofNat 16 (byteAt d 0x08)
  let old := s.guard.chans[ch]
  let new := chanOf d
  let put := fun (c : GuardChan) => completeSt (configChanged
    { s with guard := { s.guard with chans := s.guard.chans.set ch c } } 0x45) d stOK
  if outputsStarted s then
    if tightens old new then
      put { old with limRms := new.limRms, limPeak := new.limPeak, stale := new.stale, nanLimit := new.nanLimit }
    else completeSt s d stNoResource
  else put new

def guardLanesCmd (d : Desc) (s : State) : State :=
  if outputsStarted s then completeSt s d stNoResource
  else
    let s := setReg s 0x74010 (BitVec.ofNat 32 (dle d 0x08 4))
    let s := setReg s 0x74014 (BitVec.ofNat 32 (dle d 0x0C 4 % 2 ^ 14 + dle d 0x10 4 % 2 ^ 14 * 2 ^ 14))
    completeSt (configChanged s 0x46) d stOK

/-! ### The ramp (R415, R416) -/

/-- A soft stop has ended and no resume has followed. -/
def softStopped (s : State) : Bool := regBits s 0x74000 2 1 == 3 && regBits s 0x74000 7 4 == 9

def guardResumeCmd (d : Desc) (s : State) : State :=
  if softStopped s then completeSt (settleMode (driveEnable (rampUp (unforceTimers s)) true)) d stOK
  else completeSt s d stNoResource

/-- RAMP_MS have passed since a ramp to 0 began. -/
def rampEnded (s : State) : Bool := rampDownRuns s && (gainAt s).1 == 0

/-- Every gain is 0: SAFE_DRIVE_EN goes low; a soft stop leaves the mode, any other ramp ends in SENTINEL, and one of a
tamper ERASE in HOLD. -/
def rampEnd (img : SlotRead) (s : State) : State :=
  if !rampEnded s then s
  else
    let soft : Bool := regBits s 0x74000 7 4 == 9
    let s := setRegBits (driveEnable s false) 0x74000 2 1 3
    let s := zeroDrive { s with guard := { s.guard with num := 0, den := 1, ramp := none } }
    if soft then settleMode s
    else if abortMode s then enterSentinel s
    else if s.mode = .sentinel then leaveSentinel s img
    else s

/-! ### Brownout (R417, R418) -/

/-- Gains are held at their present value; a ramp down goes on. -/
def holdGains (s : State) : State :=
  if rampDownRuns s || s.guard.heldAt.isSome then s else { s with guard := { s.guard with heldAt := some s.epoch } }

/-- Held gains resume where they stood. -/
def resumeGains (s : State) : State :=
  match s.guard.heldAt with
  | some h =>
    { s with guard := { s.guard with heldAt := none, ramp := s.guard.ramp.map (fun r => { r with t0 := r.t0 + (s.epoch - h) }) } }
  | none => s

/-- BROWNOUT entries: rail, and 1 raised or 0 cleared. [log entry 109: DESIGN CHOICE] -/
def logBrown (s : State) (rail raised : Nat) : State :=
  logEvent s 0 0x0044 stOK (BitVec.ofNat 24 (rail + 256 * raised))

def brownWarning (rail : BitVec 2) (s : State) : State :=
  if rail = 3 then s
  else
    let s := svcAlert (setRegBits s 0x70000 2 2 1) 0
    let s := logBrown s rail.toNat 1
    let s := holdGains { s with logDone := s.logNext }
    { s with brown := { s.brown with rails := s.brown.rails ||| BitVec.ofNat 3 (2 ^ rail.toNat), hold := true, past := false } }

/-- Held launches proceed, marked LATE. [log entry 110: DEDUCED] -/
def releaseLaunches (s : State) : State :=
  let held := s.brown.held
  held.foldl (fun s j => requestLaunch s { j with late := true }) { s with brown := { s.brown with hold := false, held := [] } }

/-- One fast scrub pass of every course and of the store is requested. -/
def fastScrubs (s : State) : State :=
  (List.finRange 64).foldl (fun s c => setRegBits s (crsReg c 0x50) 1 1 1) (setRegBits s 0x30000 2 2 1)

def brownClear (rail : BitVec 2) (s : State) : State :=
  if rail = 3 ∨ !s.brown.rails.getLsbD rail.toNat then s
  else
    let s := logBrown s rail.toNat 0
    let s := { s with brown := { s.brown with rails := s.brown.rails &&& ~~~(BitVec.ofNat 3 (2 ^ rail.toNat)) } }
    if s.brown.rails ≠ 0 then s
    else
      let s := resumeGains (setRegBits s 0x70000 2 2 0)
      if s.brown.out then
        (if rampDownRuns s then s else releaseLaunches { s with brown := { s.brown with out := false } })
      else
        let s := fastScrubs s
        if s.brown.past then releaseLaunches s else s

/-- The 50 µs of the launch hold are over. -/
def holdExpiry (s : State) : State :=
  if !s.brown.hold then s
  else
    let s := { s with brown := { s.brown with past := true } }
    if s.brown.rails = 0 ∧ !s.brown.out then releaseLaunches s else s

def brownTimeout (s : State) : State :=
  if s.brown.rails = 0 then s
  else guardAbort { s with brown := { s.brown with out := true } } 7 0

/-! ### Faults (R419) -/

/-- The latest sample of a powered domain shows a junction at `t` - 64 °C or above. -/
def junctionAt (s : State) (t : Nat) : Bool :=
  (List.range 96).any (fun d => domainOn s d && decide (regBits s (0x71000 + 16 * d) 23 16 ≥ t))

/-- A fault has lasted until its escalation; the thermal one escalates at 115 °C. [log entry 111: DESIGN CHOICE] -/
def escalate (row : FaultRow) (s : State) : State :=
  match row with
  | .ecc => if eccExceeded s then faultAbort (if s.faults.contains .ecc then s else foundFault s .ecc 0) .ecc else s
  | .lfClock => s
  | .watchdog => s
  | .thermal => if s.faults.contains .thermal && junctionAt s 179 then faultAbort s .thermal else s
  | r => if s.faults.contains r then faultAbort s r else s

/-- Ticks of a second. -/
def secondTicks : Nat := 262144000

/-- The Soundpost restarts from its current bank; a second expiry within 1 s starts an abort.
[log entry 111: DESIGN CHOICE] -/
def watchdogExpiry (s : State) : State :=
  let again : Bool := match s.watchdog with
    | some t => (s.epoch - t).toNat < secondTicks
    | none => false
  let s := svcAlert (logEvent s (logSource 0x09 0) 0x0045 stTimeout (BitVec.ofNat 24 (faultNumber .watchdog))) 3
  let s := { s with watchdog := some s.epoch }
  if again then faultAbort s .watchdog else s

/-! ### Meanings -/

def execDriveSample (lane : Fin 32) (x : Word) (s : State) : Host.Outcome State Fault Refusal := .next (driveSample lane x s)
def execAbortSample (ch : Fin 16) (x : Word) (s : State) : Host.Outcome State Fault Refusal := .next (abortSample ch x s)
def execGuardWindowRead (ch : Met (Fin 16)) (s : State) : Host.Outcome State Fault Refusal :=
  .next (windowRead ch.val ch.meets s)
def execGuardStale (ch : Fin 16) (s : State) : Host.Outcome State Fault Refusal := .next (staleAbort ch s)
def execGuardChannel (d : Desc) (s : State) : Host.Outcome State Fault Refusal :=
  .next (runAdmin 0x0045 d (guardChannelCmd d) s)
def execGuardLanes (d : Desc) (s : State) : Host.Outcome State Fault Refusal :=
  .next (runAdmin 0x0046 d (guardLanesCmd d) s)
def execGuardAbort (d : Desc) (s : State) : Host.Outcome State Fault Refusal :=
  .next (runAdmin 0x0047 d (fun s => completeSt (guardAbort s 5 0) d stOK) s)
def execGuardResume (d : Desc) (s : State) : Host.Outcome State Fault Refusal :=
  .next (runAdmin 0x0048 d (guardResumeCmd d) s)
def execGuardRampEnd (img : SlotRead) (s : State) : Host.Outcome State Fault Refusal := .next (rampEnd img s)
def execBrownoutWarning (rail : BitVec 2) (s : State) : Host.Outcome State Fault Refusal := .next (brownWarning rail s)
def execBrownoutClear (rail : BitVec 2) (s : State) : Host.Outcome State Fault Refusal := .next (brownClear rail s)
def execLaunchHoldExpiry (s : State) : Host.Outcome State Fault Refusal := .next (holdExpiry s)
def execBrownoutTimeout (s : State) : Host.Outcome State Fault Refusal := .next (brownTimeout s)
def execFaultEscalation (row : FaultRow) (s : State) : Host.Outcome State Fault Refusal := .next (escalate row s)
def execWatchdogExpiry (s : State) : Host.Outcome State Fault Refusal := .next (watchdogExpiry s)

end Sys2Proof.Machine
end

