-- ==== Sys2Proof/Machine/Netevents.lean ====
section
/-! DEFINITION. Meanings of the network's own events: link errors, identity moves and the closing and opening of a
domain's NIs (R246, R253, R254, R394, R395). -/

namespace Sys2Proof.Machine

/-! ### Links (R246) -/

def routerReg (r : Fin 36) (o : Nat) : Nat := 0x20000 + r.val * 0x80 + o

/-- Mismatches in a row of one flit on an incoming link. -/
def mismatches (n : TorusSt) (rl : Nat × Nat) : Nat := match n.replays.find? (fun r => r.1 == rl) with
  | some r => r.2
  | none => 0

/-- A flit fails its check on an incoming link: the link carries nothing until its replay, which takes 4 nc and one nc per
flit resent, and the replay is counted. [log entry 158: DEDUCED] -/
def replayLink (r : Fin 36) (link : Fin 4) (resent : Nat) (s : State) : State :=
  let rl := (r.val, link.val)
  let n := s.torus
  let torus := { n with
    replays := (rl, mismatches n rl + 1) :: n.replays.filter (fun x => x.1 != rl)
    holds := (rl, n.nc + 4 + min resent 8) :: n.holds.filter (fun x => x.1 != rl) }
  countUp { s with torus } (routerReg r 0x14) (8 * link.val + 7) (8 * link.val) 1

/-- 16 replays of one flit have failed in a row. [log entry 158: DEDUCED] -/
def replaysFailed (s : State) (r : Fin 36) (link : Fin 4) : Bool := decide (mismatches s.torus (r.val, link.val) > 16)

/-- A link is marked failed: its traffic is held. [log entry 84: DESIGN CHOICE] -/
def failLink (r : Fin 36) (link : Fin 4) (s : State) : State :=
  let s := setRegBits s (routerReg r 0) 18 18 1
  let s := { s with torus := { s.torus with failed := (r.val, link.val) :: s.torus.failed } }
  let s := logEvent s (logSource 0x04 r.val) 0x0022 stInternal (BitVec.ofNat 24 link.val)
  foundFault s .link (logSource 0x04 r.val)

/-! ### Identity moves (R253) -/

/-- The identity that NOC_NI_STATUS shows for a port. -/
def portIdent (s : State) (np : Nat × Nat) : BitVec 12 :=
  let v := regBits s (niReg np 0) 31 16
  ident (v / 2 ^ 12) (v % 256)

def setIdent (s : State) (np : Nat × Nat) (v : Nat) : State := setRegBits s (niReg np 0) 31 16 v

/-- A MARKER for a course from the NI at a port. -/
def markerOf (s : State) (c : Fin 64) (np : Nat × Nat) : Sent :=
  mkSent ptMarker { ddev := ownDev s, dst := ident 0 c.val, sdev := ownDev s, src := portIdent s np, tag := 0, words := 0,
                    addr := 0, lanes := 0, arg := 0, data := [], flits := 0, host := 0 }

/-- Step 1 and 2: every NI holds the identity's packets and sends one MARKER on each class.
[log entry 79: DEDUCED] -/
def beginMove (s : State) (c : Fin 64) (p : Fin 68) : State :=
  let s := setNocOp (setHolds s 1) 1 1
  let ms := usedPorts.map (markerOf s c)
  let s := usedPorts.foldl (fun s np => countUp64 s (niReg np 0x0C) (niReg np 0x10) 2) s
  { s with idMove := some (c, p), flight := s.flight ++ ms ++ ms.map (fun x => { x with via := .second }) }

/-- A physical course without an identity that is idle. -/
def isSpare (s : State) (p : Fin 68) : Bool := s.pcourse[p] == .spareOn || s.pcourse[p] == .spareOff

/-- SVC_ALERT.SPARE_LOW: no idle spare. -/
def checkSpares (s : State) : State := if (List.finRange 68).any (isSpare s) then s else svcAlert s 4

def serviceOp (s : State) (bit v : Nat) : State := settleMode (setRegBits s 0x70000 bit bit v)

/-- The course that carries an identity is active and serves; the one that is left is under retest, and its NI goes off
(R11, R407). [log entry 80: DESIGN CHOICE] -/
def takeOver (s : State) (old p : Fin 68) : State :=
  let s := { s with pcourse := (s.pcourse.set old .retest).set p .active, passes := s.passes.set old 0 }
  setNiState (setNiState (markDomain s p.val true) (physPort p.val) 0) (physPort old.val) 2

/-- The migration that ended with this move is over: the copy holds the corrected planes, it is recorded, and its command completes (R408, R422). -/
def endMigration (s : State) (c : Fin 64) (old p : Fin 68) : State :=
  match s.migration with
  | some m =>
    if m.logical = c ∧ m.mirror = p then
      let s := setReg { s with migration := none, peErr := s.peErr.filter (fun e => !(e.course == c && singleBit e)) } 0x700C0 0
      let s := logEvent s (logSource 0x0E 0) 0x0042 stOK (BitVec.ofNat 24 (c.val + old.val * 2 ^ 8 + p.val * 2 ^ 16))
      let s := match m.desc with
        | some d => completeSt s d stOK
        | none => s
      serviceOp s 5 0
    else s
  | none => s

/-- Step 3: every NI writes the new port, clears HOLD and resumes injection. [log entry 80: DESIGN CHOICE] -/
def switchTranslation (s : State) (c : Fin 64) (p : Fin 68) : State :=
  let old := s.lmap[c]
  let s := setIdent (setIdent s (physPort old.val) (0xA000 + old.val)) (physPort p.val) c.val
  let s := takeOver (setHolds { s with lmap := s.lmap.set c p, idMove := none } 0) old p
  let s := releaseHeld (setRegBits (setNocOp s 1 0) 0x23800 15 8 0)
  checkSpares (endMigration s c old p)

/-- The Soundpost may move an identity to a spare: no other move runs, and no window of the course's group is open (R253,
R408). [log entry 79: DEDUCED] -/
def mayMove (s : State) (c : Fin 64) (p : Fin 68) : Bool :=
  s.idMove.isNone && isSpare s p && (logicalOf s p).isNone && !courseSpeculative s c

def identityMove (c : Fin 64) (p : Fin 68) (s : State) : State := if mayMove s c p then beginMove s c p else s

/-- The packet is a MARKER of the move in progress. -/
def ownMarker (s : State) (p : Packet) : Bool := match s.idMove with
  | some m => p.dst == ident 0 m.1.val && p.ddev == ownDev s && (entriesOf ptMarker p).any (fun x => s.flight.contains x)
  | none => false

/-- The last MARKER waits while packets for the moving identity are still in the network, and while the course's group runs
ahead (R226). [log entry 112: DESIGN CHOICE] -/
def moveBusy (s : State) (p : Packet) : Bool :=
  s.flight.any (fun x => x.type.toNat != ptMarker && x.pkt.dst == p.dst && x.pkt.ddev == p.ddev) ||
  s.idMove.any (fun m => courseSpeculative s m.1)

/-- The old port's NI ejects a MARKER once the packets before it on its class are there (R251); the last one ends the move. -/
def ejectMarker (p : Packet) (s : State) : State :=
  if !ownMarker s p then arrive ptMarker p anyRange (fun _ _ s => s) s
  else
    match (entriesOf ptMarker p).find? (reaches s) with
    | none => s
    | some x =>
      let rest := s.flight.erase x
      let last : Bool := !rest.any (fun x => x.type.toNat == ptMarker && x.pkt.dst == p.dst)
      if last ∧ moveBusy s p then s
      else
        let t := { ejected s x with flight := rest }
        match s.idMove with
        | some m => if last then switchTranslation t m.1 m.2 else t
        | none => t

/-! ### Domains (R254, R394, R395) -/

/-- Domains that go with d: the four store quadrants go together (R259). -/
def domainsWith (d : Nat) : List Nat := if 88 ≤ d ∧ d < 92 then [88, 89, 90, 91] else [d]

/-- Ports of a domain and those that go with it. -/
def closingPorts (d : Nat) : List (Nat × Nat) := (domainsWith d).flatMap portsOfDomain

/-- The open NIs of a domain enter CLOSING. -/
def closeNis (s : State) (d : Nat) : State :=
  if d = 95 then s else (closingPorts d).foldl (fun s np => if niState s np = 0 then setNiState s np 1 else s) s

/-- The logical course that a course domain carries. -/
def domainCourse (s : State) (d : Nat) : Option (Fin 64) := if d < 68 then logicalOf s (Fin.ofNat 68 d) else none

/-- Requests that a domain's clients admitted and have not answered. -/
def admitted (s : State) (d : Nat) : List Packet :=
  match domainCourse s d with
  | some c => (course s c).chans.toList.filterMap (fun k => k.owner)
  | none => if 84 ≤ d ∧ d < 88 then s.fp[Fin.ofNat 4 (d - 84)].pend else []

/-- Answer what was admitted with DOMAIN_OFF. -/
def answerAdmitted (s : State) (d : Nat) : State :=
  let ps := admitted s d
  let s := match domainCourse s d with
    | some c => setCourse s c { course s c with chans := (course s c).chans.map (fun k => { k with owner := none }) }
    | none => if 84 ≤ d ∧ d < 88 then
        let f := Fin.ofNat 4 (d - 84)
        { s with fp := s.fp.set f { s.fp[f] with pend := [] } } else s
  ps.foldl (fun s p => respond s p stDomainOff []) s

/-- A domain is switched off: its contents are lost and its NIs are OFF. -/
def switchDomain (s : State) (d : Nat) : State :=
  if d < 68 then courseDomainOff s (Fin.ofNat 68 d)
  else if d < 84 then bowOff s (Fin.ofNat 16 (d - 68))
  else if d < 88 then fabricOff s (Fin.ofNat 4 (d - 84))
  else if d < 92 then storeOff s
  else if d < 94 then peerOff s (Fin.ofNat 2 (d - 92))
  else if d = 94 then setDomainNis (markDomain s 94 false) 94 2
  else s

/-- Modes in which the domains beside courses and bows are off (R396). -/
def lowMode (s : State) : Bool := s.mode == .standby || s.mode == .sleep || s.mode == .sentinel

/-- A course that a domain may lose: in no group, reserved by none and not leased; a spare that is idle.
[log entry 83: DEDUCED] -/
def courseUnused (s : State) (p : Fin 68) : Bool :=
  match logicalOf s p with
  | some c => (course s c).owner.isNone && (course s c).reserved.isNone && !(course s c).leased
  | none => s.pcourse[p] == .spareOn || s.pcourse[p] == .spareOff || s.pcourse[p] == .failed

/-- A domain may be switched off (R76, R394, R396). [log entry 83: DEDUCED] -/
def mayPowerDown (s : State) (d : Nat) : Bool :=
  if d < 68 then courseUnused s (Fin.ofNat 68 d)
  else if d < 84 then bowUnused s (Fin.ofNat 16 (d - 68))
  else if d < 92 then lowMode s
  else if d < 94 then lowMode s || !peerEnabled s (Fin.ofNat 2 (d - 92))
  else d == 94 && s.mode == .standby && !s.keepLink

/-- A domain powers down: its NIs close, and it is switched off once nothing admitted is unanswered (R395). -/
def powerDown (d : Fin 96) (s : State) : State :=
  if !domainOn s d.val || !mayPowerDown s d.val then s
  else
    let s := closeNis s d.val
    if (admitted s d.val).isEmpty then switchDomain s d.val else s

/-- 2 µs of closing have passed (R254): the NIs are OFF, and the domain where it may be switched off (R76, R394). -/
def closeTimeout (d : Fin 96) (s : State) : State :=
  if !(closingPorts d.val).any (fun np => niState s np == 1) then s
  else
    let s := answerAdmitted s d.val
    let s := if mayPowerDown s d.val then switchDomain s d.val
      else (closingPorts d.val).foldl (fun s np => if niState s np = 1 then setNiState s np 2 else s) s
    logEvent s (logSource 0x0C d.val) 0x0024 stTimeout (BitVec.ofNat 24 d.val)

/-- The client of a port has finished its clear and serves. -/
def clientReady (s : State) (np : Nat × Nat) : Bool :=
  let d := domainOf np
  domainOn s d && (
    if d < 68 then (match domainCourse s d with
      | some c => (course s c).ready
      | none => s.pcourse[Fin.ofNat 68 d] != .spareOff && s.pcourse[Fin.ofNat 68 d] != .failed)
    else if d < 84 then (bow s (Fin.ofNat 16 (d - 68))).powered
    else if d < 88 then quadState s (Fin.ofNat 4 (d - 84)) == 2
    else if d < 92 then storeIsOn s && !(reg s 0x30004).getLsbD 0
    else if d < 94 then linkUp s (d - 92)
    else true)

/-- An NI that is OFF becomes OPEN (R254). -/
def openNi (np : Nat × Nat) (s : State) : State :=
  if niUsed np.1 np.2 && niState s np == 2 && clientReady s np then setNiState s np 0 else s

/-! ### Meanings -/

/-- A flit that passes its check has no effect here. -/
def execFlitEccError (router : Fin 36) (link : Fin 4) (replay : Replay) (s : State) : Host.Outcome State Fault Refusal :=
  .next (if flitSound replay.flit then s else replayLink router link replay.resent s)
def execLinkFailed (router : Fin 36) (link : Fin 4) (s : State) : Host.Outcome State Fault Refusal :=
  .next (if replaysFailed s router link then failLink router link s else s)
def execIdentityMove (course : Fin 64) (dest : Fin 68) (s : State) : Host.Outcome State Fault Refusal :=
  .next (identityMove course dest s)
def execMarker (p : Packet) (s : State) : Host.Outcome State Fault Refusal := .next (ejectMarker p s)
def execDomainClose (d : Fin 96) (s : State) : Host.Outcome State Fault Refusal := .next (closeNis s d.val)
def execCloseTimeout (d : Fin 96) (s : State) : Host.Outcome State Fault Refusal := .next (closeTimeout d s)
def execNiOpen (node : Fin 36) (port : Fin 4) (s : State) : Host.Outcome State Fault Refusal :=
  .next (openNi (node.val, port.val) s)
def execDomainPowerDown (d : Fin 96) (s : State) : Host.Outcome State Fault Refusal := .next (powerDown d s)

end Sys2Proof.Machine
end

