-- ==== Sys2Proof/Machine/Service.lean ====
section
/-! DEFINITION. Meanings of the monitor samples and the service policy, migration, background test, the firmware bank switch
and the Logbook's own commands (R14, R404 to R411, R419, R420, R423). -/

namespace Sys2Proof.Machine

/-! ### Policy (R405, R420) -/

def policyNo (s : State) : Nat := regBits s 0x70000 1 0
def policyReplans (s : State) : Bool := policyNo s == 1 || policyNo s == 3
def policyReplaces (s : State) : Bool := policyNo s == 2 || policyNo s == 3

def servicePolicyCmd (d : Desc) (s : State) : State :=
  let flags := byteAt d 0x0E
  let s := setRegBits s 0x70000 1 0 (byteAt d 0x08)
  completeSt { s with policy :=
    { low := BitVec.ofNat 8 (byteAt d 0x09), crit := BitVec.ofNat 8 (byteAt d 0x0A), high := BitVec.ofNat 8 (byteAt d 0x0B)
      eccRate := BitVec.ofNat 16 (dle d 0x0C 2), courseTest := flags.testBit 0, storeTest := flags.testBit 1
      exclude := BitVec.ofNat 64 (dle d 0x10 8) } } d stOK

/-! ### Spares (R407) -/

/-- A spare that a migration may take: idle, or under test, from which it is recalled. -/
def spareFree (s : State) (p : Fin 68) : Bool := isSpare s p || (s.pcourse[p] == .leased && (logicalOf s p).isNone)

/-- The spare with the highest margin in its latest test, the lowest number first. -/
def bestSpare (s : State) : Option (Fin 68) :=
  ((List.finRange 68).filter (spareFree s)).foldl (fun best p => match best with
    | none => some p
    | some q => if s.tested[p] > s.tested[q] then some p else best) none

/-! ### Migration (R408, R409) -/

def domReg (d : Nat) (o : Nat) : Nat := 0x71000 + 16 * d + o

/-- The spare attaches as a mirror, at the set point of the course that it mirrors (R408): the copy follows. -/
def startMigration (s : State) (c : Fin 64) (p : Fin 68) (d : Option Desc) : State :=
  let s := if s.pcourse[p] = .leased then setRegBits s 0x70000 6 6 0 else s
  let m : Migration := { logical := c, mirror := p, desc := d, next := 0, todo := [], read := none, dirty := [], clean := false }
  let s := markDomain { s with pcourse := s.pcourse.set p .mirror, migration := some m } p.val true
  let s := setRegBits s (domReg p.val 4) 23 12 (regBits s (domReg (s.lmap[c]).val 4) 23 12)
  let s := setReg (setNiState s (physPort p.val) 0) 0x700C0
    (BitVec.ofNat 32 (c.val + (s.lmap[c]).val * 2 ^ 8 + p.val * 2 ^ 16 + 1 * 2 ^ 24))
  checkSpares (serviceOp s 5 1)

/-- MIGRATE: a second one waits until the first has ended. [log entry 112: DESIGN CHOICE] -/
def migrateCmd (d : Desc) (s : State) : State :=
  let c := Fin.ofNat 64 (byteAt d 0x08)
  let n := byteAt d 0x09
  let target := if n = 0xFF then bestSpare s else if spareFree s (Fin.ofNat 68 n) then some (Fin.ofNat 68 n) else none
  match s.migration with
  | some m => if m.desc.isSome then stayQueued s d else completeSt s d stNoResource
  | none =>
    if (course s c).owner.isNone || s.idMove.isSome then completeSt s d stNoResource
    else
      match target with
      | some p => startMigration s c p (some d)
      | none => completeSt s d stNoResource

/-- PASS of SVC_MIGRATE. -/
def copyPass (s : State) : Nat := regBits s 0x700C0 28 26

/-- What the copier reads of a plane: the course's part, corrected. -/
def copyRead (s : State) (c : Fin 64) (p : Nat) : BitVec 65536 := deliver s.peErr s.pe p &&& courseMask c

/-- A pass has ended: a clean one, or another over the dirty planes; after the second the group stands still until they are
copied, which no command comes between. [log entry 163: DESIGN CHOICE] -/
def endCopyPass (s : State) (m : Migration) : State :=
  if m.dirty.isEmpty then { s with migration := some { m with clean := true } }
  else if copyPass s < 2 then setRegBits { s with migration := some { m with todo := m.dirty, dirty := [] } } 0x700C0 28 26 2
  else setRegBits { s with migration := some { m with dirty := [], clean := true } } 0x700C0 28 26 3

/-- The copier's next step: it writes the plane that it has read, which is dirty where it was written meanwhile, or reads
the next one; the first pass takes every plane. [log entry 163: DESIGN CHOICE] -/
def copyStep (s : State) (m : Migration) : State :=
  let put := fun (m : Migration) => { s with migration := some m }
  match m.read, m.todo with
  | some (p, v), _ => put { m with read := none, dirty := if copyRead s m.logical p = v then m.dirty else p :: m.dirty }
  | none, p :: ps => put { m with todo := ps, read := some (p, copyRead s m.logical p) }
  | none, [] =>
    if m.next < 16384 then put { m with next := m.next + 1, read := some (m.next, copyRead s m.logical m.next) }
    else endCopyPass s m

/-- The copier works while the migration copies; the spare attached, the first pass begins. -/
def copyTick (s : State) : State :=
  match s.migration with
  | some m =>
    if regBits s 0x700C0 25 24 = 1 then setRegBits (setRegBits s 0x700C0 25 24 2) 0x700C0 28 26 1
    else if m.clean || regBits s 0x700C0 25 24 != 2 then s else copyStep s m
  | none => s

/-- After a clean pass, with no window open: the identity's move begins, and its last MARKER lets the seam switch exchange
the courses and releases the old one to test (R253, R408). [log entry 113: DESIGN CHOICE] -/
def migrationSwap (s : State) : State :=
  match s.migration with
  | none => s
  | some m =>
    if !m.clean || courseSpeculative s m.logical || s.idMove.isSome then s
    else beginMove (setRegBits s 0x700C0 25 24 3) m.logical m.mirror

/-! ### Background test (R407, R410) -/

/-- The test controller may lease a course: one at a time, a free logical course that is not excluded, or an idle spare. -/
def mayLease (s : State) (p : Fin 68) : Bool :=
  s.policy.courseTest && regBits s 0x70000 6 6 == 0 && bowsMayRun s &&
  (match logicalOf s p with
    | some c => (course s c).owner.isNone && (course s c).reserved.isNone && !s.policy.exclude.getLsbD c.val && s.pcourse[p] == .active
    | none => isSpare s p)

def courseLease (p : Fin 68) (s : State) : State :=
  if !mayLease s p then s
  else
    let s := match logicalOf s p with
      | some c =>
        let s := loseCourse s c
        setCourse s c { course s c with leased := true }
      | none => s
    let s := setNiState (markDomain { s with pcourse := s.pcourse.set p .leased } p.val true) (physPort p.val) 2
    serviceOp s 6 1

/-- A course is FAILED for the life of the device. [log entry 114: DEDUCED] -/
def failCourse (s : State) (p : Fin 68) : State :=
  setDomainNis (markDomain { s with pcourse := s.pcourse.set p .failed } p.val false) p.val 2

/-- The test of a leased course ends. [log entry 114: DEDUCED] -/
def leaseResult (s : State) (p : Fin 68) (pass : Bool) : State :=
  match logicalOf s p with
  | some c => markDomain (endLease s c) p.val false
  | none => serviceOp (if pass then markDomain { s with pcourse := s.pcourse.set p .spareOff } p.val false else failCourse s p) 6 0

/-- A pass of the retest of a course that left the active set. [log entry 114: DEDUCED] -/
def retestResult (s : State) (p : Fin 68) (pass : Bool) (margin : BitVec 8) : State :=
  if !pass then failCourse s p
  else
    let n := if margin ≥ s.policy.high then s.passes[p] + 1 else 0
    let s := { s with passes := s.passes.set p n }
    if n ≥ 3 then markDomain { s with pcourse := s.pcourse.set p .spareOff } p.val false else s

def testResult (p : Fin 68) (pass : Bool) (margin : BitVec 8) (s : State) : State :=
  let st := s.pcourse[p]
  if st ≠ .leased ∧ st ≠ .retest then s
  else
    let s := logEvent { s with tested := s.tested.set p margin } (logSource 0x0E 0) 0x0043 (if pass then stOK else stInternal)
      (BitVec.ofNat 24 (p.val + 256 * margin.toNat))
    checkSpares (if st = .leased then leaseResult s p pass else retestResult s p pass margin)

/-! ### Monitor samples (R404) -/

/-- The least of a sample's slacks: the margin. -/
def sampleMargin (x : Sample) : BitVec 8 := x.slacks.toList.foldl (fun m v => if v < m then v else m) 0xFF

/-- A sample as the policy sees it: the mean of the last 64 margins, and of both ring oscillators.
[log entry 115: DESIGN CHOICE] -/
structure Reading where
  domain : Fin 96
  margin : BitVec 8
  temp   : BitVec 8
  supply : BitVec 12
  ro     : Nat
deriving DecidableEq, Repr

/-- The margins of a domain with a new one, 64 at most. -/
def lastMargins (s : State) (x : Sample) : List (BitVec 8) := (sampleMargin x :: s.margins[x.domain]).take 64

def readingOf (s : State) (x : Sample) : Reading :=
  let ms := lastMargins s x
  { domain := x.domain, margin := BitVec.ofNat 8 (ms.foldl (fun n m => n + m.toNat) 0 / ms.length), temp := x.temp
    supply := x.supply, ro := (x.ros[0].toNat + x.ros[1].toNat) / 2 }

/-- The registers of a domain take the sample. -/
def showSample (s : State) (x : Reading) : State :=
  let d := x.domain.val
  let least := min (regBits s (domReg d 0) 15 8) x.margin.toNat
  let s := setReg s (domReg d 0) (BitVec.ofNat 32 (x.margin.toNat + 256 * least + 65536 * x.temp.toNat))
  setRegBits (setRegBits s (domReg d 4) 11 0 x.supply.toNat) (domReg d 8) 15 0 x.ro

/-- A MARGIN entry: margin, temperature, and the supply in units of 4 mV (R404, R422).
[log entry 115: DESIGN CHOICE] -/
def logMargin (s : State) (x : Reading) (st : Status) : State :=
  logEvent s (logSource 0x0C x.domain.val) 0x0040 st
    (BitVec.ofNat 24 (x.margin.toNat + 256 * x.temp.toNat + 65536 * min (x.supply.toNat / 4) 255))

/-- The first millisecond of a period of `n` ms of the epoch. [log entry 115: DESIGN CHOICE] -/
def startsPeriod (s : State) (n : Nat) : Bool := s.epoch.toNat / msTicks % n == 0

/-- The hourly entry of the gap values of a course, where there are any (R422). [log entry 115: DESIGN CHOICE] -/
def logGaps (s : State) (d : Nat) : State :=
  match (if d < 68 then logicalOf s (Fin.ofNat 68 d) else none) with
  | some c =>
    let n := s.gaps[c]
    if n = 0 then s
    else logEvent { s with gaps := s.gaps.set c 0 } (logSource 0x01 c.val) 0x0071 stOK (BitVec.ofNat 24 (min n (2 ^ 24 - 1)))
  | none => s

/-- The bow whose group a domain serves: a course's owner, or the bow itself. -/
def groupOf (s : State) (d : Nat) : Option (Fin 16) :=
  if d < 68 then
    match logicalOf s (Fin.ofNat 68 d) with
    | some c => (course s c).owner
    | none => none
  else if d < 84 then (if (bow s (Fin.ofNat 16 (d - 68))).group.isSome then some (Fin.ofNat 16 (d - 68)) else none)
  else none

/-- Domains of a bow's group: its courses and the bow. -/
def groupDomains (s : State) (b : Fin 16) : List (Fin 96) :=
  Fin.ofNat 96 (68 + b.val) :: ((List.finRange 64).filter (fun c => (course s c).owner == some b)).map
    (fun c => Fin.ofNat 96 (s.lmap[c]).val)

/-- The Soundpost lowers or raises a group's clock by 50 MHz; recorded where it takes effect.
[log entries 55: DEDUCED; 117: DESIGN CHOICE] -/
def moveClock (s : State) (b : Fin 16) (up : Bool) : State :=
  let k := (bow s b).clock.toNat
  let t := clockStep b (BitVec.ofNat 5 (if up then k + 1 else k - 1)) s
  if (bow t b).clock = (bow s b).clock then s
  else logEvent t (logSource 0x02 b.val) 0x0041 stOK (BitVec.ofNat 24 (bow t b).clock.toNat)

/-! ### Trims (R14, R405) -/

/-- The supply of a course: its set point, or VDD_ARRAY's nominal value before any trim.
[log entry 116: DESIGN CHOICE] -/
def courseMv (s : State) (p : Nat) : Nat :=
  let v := regBits s (domReg p 4) 23 12
  if v = 0 then 700 else v

/-- Two different logical courses of one group whose physical courses lie beside one another.
[log entry 116: DESIGN CHOICE] -/
def besideIn (s : State) (c k : Fin 64) : Bool :=
  c != k && (course s c).owner.isSome && (course s k).owner == (course s c).owner &&
    (Config.onDieBeside (s.lmap[c]).val (s.lmap[k]).val || Config.onDieBeside (s.lmap[k]).val (s.lmap[c]).val)

/-- The limits allow a course this supply. [log entry 116: DESIGN CHOICE] -/
def trimOk (s : State) (c : Fin 64) (mv : Nat) : Bool :=
  620 ≤ mv && mv ≤ 820 &&
  (List.finRange 64).all (fun k => !besideIn s c k ||
    (courseMv s (s.lmap[k]).val ≤ mv + 100 && mv ≤ courseMv s (s.lmap[k]).val + 100))

/-- Two numbers differ by more than a limit. -/
def apartBy (limit a b : Nat) : Bool := a + limit < b || b + limit < a

/-- The last samples of two physical courses, taken from both, differ by more than 100 mV or 30 °C. -/
def beyondLimits (s : State) (p q : Nat) : Bool :=
  let a := regBits s (domReg p 4) 11 0
  let b := regBits s (domReg q 4) 11 0
  a != 0 && b != 0 && (apartBy 100 a b || apartBy 30 (regBits s (domReg p 0) 23 16) (regBits s (domReg q 0) 23 16))

/-- A course of a group and one of its neighbours in the group are beyond the limits of R14. -/
def outOfLimits (s : State) (c : Fin 64) : Bool :=
  (List.finRange 64).any (fun k => besideIn s c k && beyondLimits s (s.lmap[c]).val (s.lmap[k]).val)

/-- The domains of the courses that are out of limits. -/
def limitBits (s : State) : BitVec 96 :=
  (List.finRange 64).foldl (fun v c => if outOfLimits s c then v ||| BitVec.ofNat 96 (2 ^ (s.lmap[c]).val) else v) 0

/-- Move a course's trim by 10 mV: none where a limit forbids it. [log entry 116: DESIGN CHOICE] -/
def moveTrim (s : State) (c : Fin 64) (up : Bool) : Option State :=
  let p := (s.lmap[c]).val
  let mv := if up then courseMv s p + 10 else courseMv s p - 10
  if trimOk s c mv then
    some (logEvent (setRegBits s (domReg p 4) 23 12 mv) (logSource 0x0F p) 0x0041 stOK (BitVec.ofNat 24 mv))
  else none

/-! ### What the policy does (R405, R406) -/

/-- Corrected errors of a course in the past hour. -/
def correctedPerHour (s : State) (c : Fin 64) : Nat := ((pastHour s s.corr).filter (fun e => e.1 == logSource 0x01 c)).length

/-- The course is worn: below MARGIN_CRIT, or above ECC_RATE. -/
def courseWorn (s : State) (c : Fin 64) (x : Reading) : Bool :=
  x.margin < s.policy.crit || (s.policy.eccRate != 0 && correctedPerHour s c > s.policy.eccRate.toNat)

/-- A replacement can start now. -/
def canReplace (s : State) : Bool :=
  (s.mode == .idle || s.mode == .run || s.mode == .service) && s.migration.isNone && s.idMove.isNone && (bestSpare s).isSome

/-- Lower the clock every 10 ms where no action of R405 is available; at 300 MHz the group escalates as a fault. -/
def lastResort (s : State) (b : Fin 16) (x : Reading) : State :=
  if !(x.margin < s.policy.crit) then s
  else if (bow s b).clock.toNat ≤ 6 then (if s.faults.contains .group then s else foundFault s .group (logSource 0x02 b.val))
  else if startsPeriod s 10 then moveClock s b false else s

/-- Raise the trim, or lower the clock instead: below MARGIN_CRIT at the pace of R406. -/
def raiseTrim (s : State) (b : Fin 16) (c : Fin 64) (x : Reading) : State :=
  match moveTrim s c true with
  | some t => t
  | none => if x.margin < s.policy.crit then lastResort s b x else moveClock s b false

/-- The course's migration runs, or can begin now. -/
def replaces (s : State) (c : Fin 64) : Bool := canReplace s || s.migration.any (fun m => m.logical == c)

/-- The policy raises a course's trim: below MARGIN_LOW, and under REPLAN alone where it is worn. -/
def trims (s : State) (c : Fin 64) (x : Reading) : Bool :=
  policyReplans s && (decide (x.margin < s.policy.low) || (policyNo s == 1 && courseWorn s c x))

/-- A sample of a course of a group. -/
def courseAction (s : State) (b : Fin 16) (c : Fin 64) (x : Reading) : State :=
  if courseWorn s c x ∧ policyReplaces s ∧ replaces s c then
    if canReplace s then
      match bestSpare s with
      | some p => startMigration (logMargin s x stOK) c p none
      | none => s
    else s
  else if trims s c x then raiseTrim (logMargin s x stOK) b c x
  else if x.margin < s.policy.low ∨ courseWorn s c x then lastResort (logMargin s x stOK) b x
  else s

/-- A sample of a bow's own domain. -/
def bowAction (s : State) (b : Fin 16) (x : Reading) : State :=
  if !(x.margin < s.policy.low) then s
  else
    let s := logMargin s x stOK
    if policyReplans s ∧ (bow s b).clock.toNat > 6 then moveClock s b false else lastResort s b x

/-- Samples above MARGIN_HIGH in a row. -/
def countHigh (s : State) (x : Reading) : State :=
  let n := if x.margin > s.policy.high ∧ policyNo s ≠ 0 then s.highMs[x.domain] + 1 else 0
  { s with highMs := s.highMs.set x.domain n }

/-- Ticks of the condition of an hour, in samples. [log entry 115: DESIGN CHOICE] -/
def hourSamples : Nat := 3600000

/-- A group whose every domain stood above MARGIN_HIGH for an hour: its clock rises towards the setting, or the trim of
one of its courses falls. -/
def highAction (s : State) (b : Fin 16) (x : Reading) : State :=
  let ds := groupDomains s b
  if policyReplans s && ds.all (fun d => s.highMs[d] ≥ hourSamples) then
    let s := { s with highMs := ds.foldl (fun (v : Vector Nat 96) (d : Fin 96) => v.set d 0) s.highMs }
    let s := logMargin s x stOK
    let w := bow s b
    if w.clock.toNat < w.clockSet.toNat then moveClock s b true
    else
      match ((List.finRange 64).filter (fun c => (course s c).owner == some b)).findSome? (fun c => moveTrim s c false) with
      | some t => t
      | none => s
  else s

/-- A fault of the group is present while a domain of a group at 300 MHz lies below MARGIN_CRIT. -/
def settleGroupFault (s : State) : State :=
  let bad := (List.finRange 16).any (fun b => (bow s b).group.isSome && (bow s b).clock.toNat ≤ 6 &&
    (groupDomains s b).any (fun d => s.lows.getLsbD d.val))
  if bad || !s.faults.contains .group then s else clearFault s .group

/-- MARGIN_ALERT: the limits of R14 are broken, or a domain other than a course or bow lies below MARGIN_CRIT. -/
def settleMarginAlert (s : State) : State :=
  let others : Bool := s.lows.toNat / 2 ^ 84 != 0
  let on : Bool := s.adjacent != 0 || others
  let s := setRegBits s 0x70000 3 3 on.toNat
  let s := if on then svcAlert s 1 else s
  if others then (if s.faults.contains .domain then s else foundFault s .domain 0)
  else if s.faults.contains .domain then clearFault s .domain else s

/-- Junction temperature of a sample: 105 °C and above is hot, 115 °C aborts, and all below 100 °C ends the condition. -/
def thermalAction (s : State) (x : Reading) : State :=
  let pin := fun (s : State) (v : Bool) => { s with pins := { s.pins with thermN := v } }
  if x.temp.toNat ≥ 169 then
    let s := if s.faults.contains .thermal then s else svcAlert (foundFault (pin s false) .thermal (logSource 0x0C x.domain.val)) 2
    if x.temp.toNat ≥ 179 then faultAbort s .thermal else s
  else if s.faults.contains .thermal && !junctionAt s 164 then
    clearFault (pin s true) .thermal
  else s

/-- While a junction is hot every group clock is lowered by 50 MHz every 10 ms: at the samples of the bows' domains. -/
def thermalClock (s : State) (x : Reading) : State :=
  let d := x.domain.val
  if s.faults.contains .thermal && 68 ≤ d && d < 84 && startsPeriod s 10 then moveClock s (Fin.ofNat 16 (d - 68)) false else s

/-- A domain's bit. -/
def domBit (v : BitVec 96) (d : Fin 96) (on : Bool) : BitVec 96 :=
  let bit : BitVec 96 := BitVec.ofNat 96 (2 ^ d.val)
  if on then v ||| bit else v &&& ~~~bit

/-- A course or a bow in no group: recorded below MARGIN_LOW, and a course's trim raised where the policy replans. -/
def freeAction (s : State) (x : Reading) : State :=
  if 84 ≤ x.domain.val ∨ !(x.margin < s.policy.low) then s
  else
    let s := logMargin s x stOK
    match (if policyReplans s then domainCourse s x.domain.val else none) with
    | some c => (moveTrim s c true).getD s
    | none => s

/-- The actions of the policy on a sample of a group's domain. [log entry 117: DESIGN CHOICE] -/
def groupAction (s : State) (x : Reading) : State :=
  match groupOf s x.domain.val with
  | none => freeAction s x
  | some b =>
    let s := if s.adjacent.getLsbD x.domain.val then moveClock s b false else s
    let s := match domainCourse s x.domain.val with
      | some c => courseAction s b c x
      | none => bowAction s b x
    highAction s b x

/-- The domains that are powered. -/
def poweredDomains (s : State) : BitVec 96 := (reg s 0x70018 ++ reg s 0x70014 ++ reg s 0x70010 : BitVec 96)

/-- A sample of a fabric quadrant shows the supply of its I/O bank in FAB_BANK_VIO (R290). -/
def bankSupply (s : State) (x : Sample) : State :=
  if 84 ≤ x.domain.val ∧ x.domain.val < 88 then
    setRegBits s 0x40020 (2 * (x.domain.val - 84) + 1) (2 * (x.domain.val - 84)) x.vio.toNat else s

/-- One sample of a domain. What earlier samples showed of a domain that is off now counts no more. -/
def monitorSample (x : Sample) (s : State) : State :=
  let s := bankSupply s x
  if !domainOn s x.domain.val then s
  else
    let ms := lastMargins s x
    let x := readingOf s x
    let s := showSample { s with margins := s.margins.set x.domain ms } x
    let s := if startsPeriod s 3600000 then logGaps (logMargin s x stOK) x.domain.val else s
    let s := { countHigh s x with adjacent := limitBits s,
                                  lows := domBit (s.lows &&& poweredDomains s) x.domain (decide (x.margin < s.policy.crit)) }
    let s := if x.margin < s.policy.low then svcAlert s 1 else s
    let s := thermalAction (settleMarginAlert s) x
    if s.fwSwitch.isSome then s else settleGroupFault (groupAction (thermalClock s x) x)

/-! ### The firmware bank switch (R411) -/

/-- The new bank runs. [log entry 118: DESIGN CHOICE] -/
def bankSwitched (s : State) (n : Nat) : State :=
  let bank := 1 - regBits s 0x70000 9 9
  logEvent (setRegBits s 0x70000 9 9 bank) (logSource 0x09 0) 0x0032 stOK (BitVec.ofNat 24 (n + 256 * bank))

def fwSwitchCmd (d : Desc) (img : SlotRead) (ready : Bool) (s : State) : State :=
  let n := slotOf d
  if slotState s n ≠ 2 ∧ slotState s n ≠ 3 then completeSt s d stNoResource
  else
    match manifestCheck s img with
    | some (_, st, detail) => complete s d st detail 0
    | none =>
      let bank := 1 - regBits s 0x70000 9 9
      let s := serviceOp { s with firmware := s.firmware.set (Fin.ofNat 2 bank) img.firmware } 8 1
      if ready then completeSt (serviceOp (bankSwitched s n) 8 0) d stOK else { s with fwSwitch := some d }

/-- 100 ms without a report of the new firmware: the old bank runs again. -/
def fwSwitchLate (s : State) : State :=
  match s.fwSwitch with
  | some d => completeSt (serviceOp { s with fwSwitch := none } 8 0) d stInternal
  | none => s

/-! ### The Logbook (R423) -/

/-- The 16 bytes of an entry. -/
def entryBytes (e : LogEntry) : List (BitVec 8) :=
  leBytes e.epoch.toNat 8 ++ leBytes e.source.toNat 2 ++ leBytes e.event.toNat 2 ++ leBytes e.status.toNat 1 ++ leBytes e.detail.toNat 3

/-- Entry number n, if the Logbook still holds it; the list is newest first. -/
def entryNo (s : State) (n : Nat) : Option LogEntry :=
  let back := (s.logNext + 2 ^ 32 - 1 - n % 2 ^ 32) % 2 ^ 32
  if s.logNext = 0 then none else s.log[back]?

def logbookRead (d : Desc) (meets : List (Nat × Meet)) (s : State) : State :=
  let dst := byteAt d 0x08
  if dst = 1 ∧ !storeServes s then completeSt s d stDomainOff
  else
    let es := (List.range (dle d 0x10 4)).map (fun i => entryNo s (dle d 0x0C 4 + i))
    let bytes := es.flatMap (fun e => match e with
      | some e => entryBytes e
      | none => List.replicate 16 0)
    let r := writeOut meets s dst (dle d 0x18 8) bytes
    complete r.1 d r.2 0 (BitVec.ofNat 64 (es.filter (fun e => e.isSome)).length)

/-! ### Meanings -/

def execServicePolicy (d : Desc) (s : State) : Host.Outcome State Fault Refusal :=
  .next (runAdmin 0x0042 d (servicePolicyCmd d) s)
def execMigrate (d : Desc) (s : State) : Host.Outcome State Fault Refusal := .next (runAdmin 0x0043 d (migrateCmd d) s)
def execMigrationSwap (s : State) : Host.Outcome State Fault Refusal := .next (migrationSwap s)
def execCourseLease (p : Fin 68) (s : State) : Host.Outcome State Fault Refusal := .next (courseLease p s)
def execTestResult (p : Fin 68) (pass : Bool) (margin : BitVec 8) (s : State) : Host.Outcome State Fault Refusal :=
  .next (testResult p pass margin s)
def execMonitorSample (x : Sample) (s : State) : Host.Outcome State Fault Refusal := .next (monitorSample x s)
def execFwSwitch (d : Desc) (img : SlotRead) (ready : Bool) (s : State) : Host.Outcome State Fault Refusal :=
  .next (runAdmin 0x0044 d (fwSwitchCmd d img ready) s)
def execFwSwitchTimeout (s : State) : Host.Outcome State Fault Refusal := .next (fwSwitchLate s)
def execLogbookRead (d : Met Desc) (s : State) : Host.Outcome State Fault Refusal :=
  .next (runAdmin 0x0049 d.val (logbookRead d.val d.meets) s)

/-- Every entry written so far is in MRAM. -/
def execLogbookCommit (s : State) : Host.Outcome State Fault Refusal := .next { s with logDone := s.logNext }
def execLogbookSuppressed (source event : BitVec 16) (s : State) : Host.Outcome State Fault Refusal :=
  .next (endFold s source event)

end Sys2Proof.Machine
end

