-- ==== Sys2Proof/Machine/Torus.lean ====
section
/-! DEFINITION. The routers in time (R238, R246 to R252, R256): flits in the input buffers of four VCs, credits, and
arbitration by weighted round robin, one nc after another. -/

namespace Sys2Proof.Machine

/-! ### Buffers and credits (R248, R256) -/

/-- The input buffer of place k of a packet's way: router, input port and VC. -/
def bufAt (w : Worm) (k : Nat) : Option (Nat × Nat × Nat) :=
  if k = 0 then none else (w.way[k - 1]?).map (fun h => (h.router, h.inp, h.vc))

/-- Places of the header and of the last flit. -/
def headPlace (w : Worm) : Nat := match w.flits.head? with
  | some f => f.place
  | none => 0
def tailPlace (w : Worm) : Nat := match w.flits.getLast? with
  | some f => f.place
  | none => 0

/-- A packet holds a VC from its header's arrival until its last flit has left. [log entry 157: DESIGN CHOICE] -/
def holdsVc (b : Nat × Nat × Nat) (w : Worm) : Bool :=
  (List.range (w.way.length + 1)).any (fun k => bufAt w k == some b && tailPlace w ≤ k && k ≤ headPlace w)

def vcFree (n : TorusSt) (b : Nat × Nat × Nat) : Bool := !n.worms.any (holdsVc b)

/-- Flits in a buffer. -/
def occupancy (n : TorusSt) (b : Nat × Nat × Nat) : Nat :=
  n.worms.foldl (fun a w => a + (w.flits.filter (fun f => bufAt w f.place == some b)).length) 0

/-- Buffers that a router offers on a VC. -/
def vcLimit (s : State) (b : Nat × Nat × Nat) : Nat := regBits s (0x20000 + b.1 * 0x80) (3 * b.2.2 + 6) (3 * b.2.2 + 4)

/-- The sender holds a credit for a buffer. -/
def hasCredit (s : State) (n : TorusSt) (b : Nat × Nat × Nat) : Bool :=
  occupancy n b + (n.returns.filter (fun r => r.1 == b)).length < vcLimit s b

/-- A packet is granted at router k of its way: its header has left it and its last flit has not. -/
def grantedAt (w : Worm) (k : Nat) : Bool := tailPlace w ≤ k && k < headPlace w

/-- No granted packet remains in a router (R256). -/
def drained (n : TorusSt) (r : Nat) : Bool :=
  !n.worms.any (fun w => (List.range (w.way.length + 1)).any (fun k =>
    grantedAt w k && (match bufAt w k with | some b => b.1 == r | none => false)))

/-- Credits whose time has come return, but for those of a quiescing router's VCs that hold no granted packet. -/
def returnCredits (s : State) (n : TorusSt) : TorusSt :=
  { n with returns := n.returns.filter (fun r => n.nc < r.2 ||
      (quiescing s r.1.1 && !n.worms.any (fun w => (List.range (w.way.length + 1)).any (fun k =>
        bufAt w k == some r.1 && grantedAt w k)))) }

/-! ### Moves (R246, R250, R252) -/

/-- The flit of a packet that is next to leave place k: its index. -/
def nextFlit (w : Worm) (k : Nat) : Option Nat := w.flits.findIdx? (fun f => f.place == k)

/-- The link into a buffer carries flits now. -/
def linkOpen (n : TorusSt) (b : Nat × Nat × Nat) : Bool :=
  b.2.1 ≥ 4 || (!n.failed.contains (b.1, b.2.1) && !n.holds.any (fun h => h.1 == (b.1, b.2.1) && n.nc < h.2))

/-- The next flit at place k has passed its NI or its router, in 1 or 2 nc. -/
def flitReady (n : TorusSt) (w : Worm) (k : Nat) : Option Nat :=
  match nextFlit w k with
  | some j => if (w.flits[j]?).any (fun f => decide (f.since + (if k = 0 then 1 else 2) ≤ n.nc)) then some j else none
  | none => none

/-- A ready flit may be granted: a header needs a free VC downstream and a router that grants headers, and every flit a
credit and a link; an NI takes what leaves its router. -/
def grantable (s : State) (n : TorusSt) (w : Worm) (k j : Nat) : Bool :=
  let quiet : Bool := match bufAt w k with
    | some b => j == 0 && quiescing s b.1
    | none => false
  !quiet && (match bufAt w (k + 1) with
    | some b => linkOpen n b && (j != 0 || vcFree n b) && hasCredit s n b
    | none => true)

/-- A flit of a granted packet waits for a credit. -/
def starved (s : State) (n : TorusSt) (w : Worm) (k j : Nat) : Bool :=
  j != 0 && (match bufAt w (k + 1) with
    | some b => !hasCredit s n b
    | none => false)

/-- A move: packet, place from which a flit leaves, and the flit. -/
abbrev Move := Nat × Nat × Nat

/-- Flits ready in input port i of a router for an output, responses before requests, the VC's packet first. -/
def inputMoves (n : TorusSt) (r o i : Nat) : List Move :=
  [2, 3, 0, 1].flatMap (fun vc => (List.range n.worms.length).flatMap (fun x => match n.worms[x]? with
    | some w => (List.range w.way.length).filterMap (fun k =>
        if w.way[k]? = some { router := r, inp := i, vc, out := o } then (flitReady n w (k + 1)).map (fun j => (x, k + 1, j)) else none)
    | none => []))

/-- The first move of an input port that may be granted. -/
def inputGrant (s : State) (n : TorusSt) (r o i : Nat) : Option Move :=
  (inputMoves n r o i).find? (fun m => match n.worms[m.1]? with
    | some w => grantable s n w m.2.1 m.2.2
    | none => false)

/-- The grant of an output port: the input that it serves up to its weight, else the next one with a flit ready. -/
def outputGrant (s : State) (n : TorusSt) (r o : Nat) : Option (Move × Nat × Nat) :=
  let turn := match n.turns.find? (fun t => t.1 == (r, o)) with
    | some t => t.2
    | none => (0, 0)
  let weight := regBits s (0x20004 + r * 0x80) (4 * turn.1 + 3) (4 * turn.1)
  let order := (if turn.2 < weight then [turn.1] else []) ++ (List.range 8).map (fun d => (turn.1 + 1 + d) % 8)
  order.findSome? (fun i => (inputGrant s n r o i).map (fun m => (m, i, if i = turn.1 ∧ turn.2 < weight then turn.2 + 1 else 1)))

/-- Output ports on the ways of the packets. -/
def outputsInUse (n : TorusSt) : List (Nat × Nat) := (n.worms.flatMap (fun w => w.way.map (fun h => (h.router, h.out)))).eraseDups

/-- Each source NI injects one flit, of its oldest packet that can go. -/
def injections (s : State) (n : TorusSt) : List Move :=
  let ports := (n.worms.filterMap (fun w => w.way.head?.map (fun h => (h.router, h.inp)))).eraseDups
  ports.filterMap (fun np => ((List.range n.worms.length).filterMap (fun x => match n.worms[x]? with
    | some w =>
      if (w.way.head?.map (fun h => (h.router, h.inp))) = some np then
        (match flitReady n w 0 with
          | some j => if grantable s n w 0 j then some (x, 0, j) else none
          | none => none)
      else none
    | none => none)).head?)

/-- Carry a move out: the flit is at its next place, a link taking 1 nc, and its credit returns no earlier than 4 nc after
the flit was sent, over a link 1 nc before it is there. A flit that crosses a link ends the replays counted there. -/
def applyMove (n : TorusSt) (m : Move) : TorusSt :=
  match n.worms[m.1]? with
  | none => n
  | some w =>
    let link : Bool := m.2.1 != 0 && (bufAt w (m.2.1 + 1)).isSome
    let sent := match w.flits[m.2.2]? with
      | some f => f.since
      | none => 0
    let w' := { w with flits := w.flits.modify m.2.2 (fun f => { f with place := m.2.1 + 1, since := n.nc + link.toNat }) }
    let returns := match bufAt w m.2.1 with
      | some b => (b, max n.nc (sent + (if m.2.1 = 1 then 4 else 3))) :: n.returns
      | none => n.returns
    let replays := match bufAt w (m.2.1 + 1) with
      | some b => n.replays.filter (fun r => r.1 != (b.1, b.2.1))
      | none => n.replays
    { n with worms := n.worms.set m.1 w', returns, replays }

/-- Routers in which a flit of a granted packet waits for a credit. -/
def starvedRouters (s : State) (n : TorusSt) : List Nat :=
  (n.worms.flatMap (fun w => (List.range w.way.length).filterMap (fun k => match w.way[k]?, flitReady n w (k + 1) with
    | some h, some j => if starved s n w (k + 1) j then some h.router else none
    | _, _ => none))).eraseDups

/-! ### One nc -/

/-- One nc of the routers: the flits granted and injected move together. -/
def routerNc (s : State) : State :=
  let n := returnCredits s s.torus
  let grants := (outputsInUse n).filterMap (fun ro => (outputGrant s n ro.1 ro.2).map (fun g => (ro, g)))
  let turns := grants.map (fun g => (g.1, g.2.2)) ++ n.turns.filter (fun t => !grants.any (fun g => g.1 == t.1))
  let n' := (grants.map (fun g => g.2.1) ++ injections s n).foldl applyMove { n with turns }
  let s := grants.foldl (fun s g => countFlits s g.1.1 1) s
  let s := (starvedRouters s n).foldl (fun s r => countUp s (0x20010 + r * 0x80) 31 0 1) s
  { s with torus := { n' with nc := n.nc + 1 } }

/-- `k` nc pass. -/
def routerNcs : Nat → State → State
  | 0, s => s
  | k + 1, s => routerNcs k (routerNc s)

/-- Packets on their way that the routers do not hold yet, each as often as it is on its way. -/
def newPackets : List Sent → List Sent → List Sent
  | [], _ => []
  | x :: xs, known => match takeSent x known with
    | some rest => newPackets xs rest
    | none => x :: newPackets xs known

/-- Packets injected since the latest nc enter their source NIs. -/
def admitPackets (s : State) : State :=
  let fresh := newPackets (s.flight.filter (fun x => x.via != .own)) (s.torus.worms.map (fun w => w.sent))
  let worms := fresh.map (fun x =>
    { sent := x, way := wayOf s x, flits := (packetFlits x).map (fun d => { data := d, place := 0, since := s.torus.nc }) : Worm })
  { s with torus := { s.torus with worms := s.torus.worms ++ worms } }

/-- No command names a packet of a reserved TYPE or of the reserved ATOMIC operation. -/
def nameless (x : Sent) : Bool := decide (x.type.toNat > ptResp) || (x.type.toNat == ptAtomic && x.pkt.arg.toNat % 4 == 3)

/-- Packets without a command that have reached their NI fail there (R255). -/
def failNameless (s : State) : State :=
  (s.torus.worms.filter (fun w => nameless w.sent && w.flits.all (fun f => decide (f.place > w.way.length)))).foldl (fun s w =>
    arrive w.sent.type.toNat w.sent.pkt anyRange (fun _ _ s => s) s) s

/-- A router that quiesces drains, and one that has applied its settings resumes. -/
def beginDrains (s : State) : State :=
  (List.range 36).foldl (fun s r =>
    let o := 0x20000 + r * 0x80
    match regBits s o 17 16 with
    | 1 => setRegBits s o 17 16 2
    | 3 => setRegBits s o 17 16 0
    | _ => s) s

/-- The routers over `k` nc; with no packet in them only their time passes. -/
def networkTime (k : Nat) (s : State) : State :=
  let s := beginDrains (admitPackets s)
  if s.torus.worms.isEmpty then
    { s with torus := { s.torus with nc := s.torus.nc + k, returns := s.torus.returns.filter (fun r => s.torus.nc + k < r.2) } }
  else failNameless (routerNcs k s)

/-- nc that pass from epoch `a` to epoch `b`: 15,625 in 4,096 tt (R238, R310). [log entry 157: DESIGN CHOICE] -/
def ncBetween (a b : BitVec 64) : Nat := b.toNat * 15625 / 4096 - a.toNat * 15625 / 4096

end Sys2Proof.Machine
end

