-- ==== Sys2Proof/Machine/Admin.lean ====
section
/-! DEFINITION. Meanings of the router reconfiguration and of the admin commands for groups, clocks, the set-up lock, patch
sets and the scheduler (R78, R79, R212, R213, R256, R321, R324, R341, R355). -/

namespace Sys2Proof.Machine

/-! ### Router reconfiguration (R256, R257) -/

/-- The reconfiguration would clear the enable of a port that a translation table names. [log entry 119: DEDUCED] -/
def clearsUsed (r en : Nat) : Bool := (List.range 4).any (fun p => niUsed r p && !en.testBit p)

/-- NOC_RTR_CFG.STATE: 0 RUN, 1 QUIESCE, 2 DRAIN, 3 APPLY. -/
def routerState (s : State) (r : Fin 36) (v : Nat) : State := setRegBits s (routerReg r 0) 17 16 v

def reconfigRouter (d : Desc) : Fin 36 := Fin.ofNat 36 (byteAt d 0x08)

/-- NOC_RECONFIG: the router stops granting headers, and drains from the next nc on. [log entry 119: DEDUCED] -/
def nocReconfigCmd (d : Desc) (s : State) : State :=
  let r := reconfigRouter d
  if clearsUsed r.val (byteAt d 0x09) then completeSt s d stBadDescriptor
  else if s.reconfig.isSome then completeSt s d stNoResource
  else
    let s := setRegBits (setNocOp (routerState s r 1) 0 1) 0x23800 7 2 r.val
    { s with reconfig := some { desc := d } }

/-- A reconfiguration ends: counted, and its command completes. After APPLY grants resume in the next nc. -/
def endReconfig (s : State) (d : Desc) (st : Status) : State :=
  let r := reconfigRouter d
  let s := routerState { s with reconfig := none } r (if st = stOK then 3 else 0)
  let s := setRegBits (countUp s (routerReg r 0x18) 15 0 1) (routerReg r 0x18) 23 16 st.toNat
  completeSt (setRegBits (setNocOp s 0 0) 0x23800 15 8 st.toNat) d st

/-- Once the router has drained, APPLY writes the new settings. [log entry 119: DEDUCED] -/
def applyReconfig (s : State) : State :=
  match s.reconfig with
  | some c =>
    let d := c.desc
    let r := reconfigRouter d
    if !drained s.torus r.val then s
    else
      let s := setRegBits (setRegBits s (routerReg r 0) 3 0 (byteAt d 0x09)) (routerReg r 0) 15 4 (dle d 0x0A 2)
      endReconfig (setReg s (routerReg r 4) (BitVec.ofNat 32 (dle d 0x0C 4))) d stOK
  | none => s

/-- The router keeps its old settings: recorded. [log entry 119: DEDUCED] -/
def abandonReconfig (s : State) (st : Status) : State :=
  match s.reconfig with
  | some c =>
    let r := reconfigRouter c.desc
    endReconfig (logEvent s (logSource 0x04 r.val) 0x0023 st (BitVec.ofNat 24 r.val)) c.desc st
  | none => s

/-! ### Held groups and clocks (R78, R79, R409) -/

def capoBow (d : Desc) : Fin 16 := Fin.ofNat 16 (byteAt d 0x08)

/-- The rectangle of CAPO_ASSIGN. -/
def capoRect (d : Desc) : Rect :=
  { x0 := BitVec.ofNat 3 (byteAt d 0x09 % 8), y0 := BitVec.ofNat 3 (byteAt d 0x09 / 8), w := byteAt d 0x0A % 16,
    h := byteAt d 0x0A / 16 }

/-- A kernel of the bow runs, is queued or waits for U. -/
def bowBusy (w : Bow) : Bool := w.n.job.isSome || w.u.job.isSome || !w.queue.isEmpty || !w.launches.isEmpty

/-- CAPO_ASSIGN: it waits while a migration of the bow's old group runs. [log entry 120: DEDUCED] -/
def capoAssignCmd (d : Desc) (s : State) : State :=
  let b := capoBow d
  let r := capoRect d
  if !(rectCourses r).all (courseOpen s b true) || bowBusy (bow s b) || (bow s b).armed.isSome then completeSt s d stNoResource
  else if reshapeHeld s b then stayQueued s d
  else
    let s := formGroup s b r
    completeSt (setBow s b { bow s b with held := true }) d stOK

/-- CAPO_RELEASE: the group stays, as an ordinary one. -/
def capoReleaseCmd (d : Desc) (s : State) : State :=
  let b := capoBow d
  let w := bow s b
  if !w.held || w.group.isNone then completeSt s d stOK
  else if bowBusy w then completeSt s d stNoResource
  else completeSt (setBow s b { w with held := false }) d stOK

/-- CAPO_CLOCK: the setting, and the running clock of a group where it can step now.
[log entry 117: DESIGN CHOICE] -/
def capoClockCmd (d : Desc) (s : State) : State :=
  let b := capoBow d
  let c := BitVec.ofNat 5 (byteAt d 0x09)
  completeSt (clockStep b c (setBow s b { bow s b with clockSet := c })) d stOK

/-! ### Patch sets (R212, R213) -/

def patchMask (d : Desc) : BitVec 16 := BitVec.ofNat 16 (dle d 0x0A 2)

/-- Bows of a mask. -/
def maskBows (m : BitVec 16) : List (Fin 16) := (List.finRange 16).filter (fun b => m.getLsbD b.val)

/-- PATCH_LOAD: the image is checked, and the swap of every named bow is pending. A bow whose domain is off counts as
swapped. R210 orders the image's checks. Between them and the other conditions the lowest code is reported (R9), an image
that cannot be read having none of its own. [log entry 121: DEDUCED] -/
def patchLoadCmd (d : Desc) (img : PatchImage) (s : State) : State :=
  let named := maskBows (patchMask d)
  let found := match sourceFault s d 0x08 0x10 (dle d 0x0C 4) with
    | some st => some (st, 0)
    | none => patchCheck (patchSource s d img) (named.map (fun b => (bow s b).patch.version.toNat))
  let found := if s.patchLoad.isSome ∧ (found.map (fun f => f.1)) ≠ some stBadDescriptor then some (stNoResource, 0) else found
  match found with
  | some (st, detail) => complete s d st (BitVec.ofNat 24 detail) 0
  | none =>
    let left := named.filter (fun b => (bow s b).powered)
    let s := named.foldl (fun s b => setBow s b { bow s b with pending := some (patchSetOf (patchSource s d img)) }) s
    if left.isEmpty then completeSt s d stOK
    else
      { s with patchLoad := some { desc := d, left := left.foldl (fun v b => v ||| BitVec.ofNat 16 (2 ^ b.val)) 0
                                   named := patchMask d } }

/-- A pending bow at a qualifying boundary is swapped, as is one whose patch RAM is to be rewritten (R208). One that was
powered down meanwhile has its set already. -/
def patchSwap (b : Fin 16) (s : State) : State :=
  let w := bow s b
  let counted := fun (s : State) => match s.patchLoad with
    | some l => if l.left.getLsbD b.val then swapCounted s b else s
    | none => s
  if !w.powered then counted s
  else if w.pending.isNone && !w.rewrite then counted s
  else if swapBoundary s b then (if w.pending.isSome then counted else id) (swapPatch s b)
  else s

/-- The wait limit expires: bows that are still pending stay so. -/
def patchTimeout (s : State) : State :=
  match s.patchLoad with
  | some l => completeSt { s with patchLoad := none } l.desc stTimeout
  | none => s

/-! ### The scheduler (R321, R324, R355) -/

/-- The entry of a TB_SCHED_ARM. -/
def armedBy (d : Desc) : SchedEntry :=
  { armNo := 0, ref := BitVec.ofNat 4 (byteAt d 0x08), target := BitVec.ofNat 40 (dle d 0x10 8),
    action := BitVec.ofNat 4 (byteAt d 0x09), arg := BitVec.ofNat 64 (dle d 0x20 8), incr := BitVec.ofNat 40 (dle d 0x18 8),
    count := BitVec.ofNat 16 (dle d 0x0C 2), wake := (byteAt d 0x0E).testBit 0, tag := BitVec.ofNat 16 (dle d 0x0A 2),
    desc := d, kernel := false, late := false, pin := none }

/-- TB_SCHED_ARM: RESULT is the arming number. -/
def schedArmCmd (d : Desc) (s : State) : State :=
  match armEntry s (armedBy d) with
  | some t => complete t d stOK 0 (s.nextArm.setWidth 64)
  | none => completeSt s d stNoResource

/-- Remove an entry: none where it is gone; an entry that is due fires once more and goes. [log entry 90: DEDUCED] -/
def cancelEntry (s : State) (n : BitVec 32) : State × Status :=
  match s.sched.find? (fun e => e.armNo == n) with
  | none => (s, stLateAbort)
  | some e =>
    if entryDue s e then
      ({ s with sched := s.sched.map (fun x => if x.armNo == n then { x with incr := 0 } else x) }, stLateAbort)
    else
      let s := { s with sched := s.sched.filter (fun x => x.armNo != n) }
      (if e.kernel then refuseJob (giveUpExpansion s e.desc) (entryJob e) stAborted else s, stOK)

def schedCancelCmd (d : Desc) (s : State) : State :=
  let r := cancelEntry s (BitVec.ofNat 32 (dle d 0x08 4))
  completeSt r.1 d r.2

/-! ### Meanings -/

def execNocReconfig (d : Desc) (s : State) : Host.Outcome State Fault Refusal := .next (runAdmin 0x0011 d (nocReconfigCmd d) s)
def execReconfigApply (s : State) : Host.Outcome State Fault Refusal := .next (applyReconfig s)
def execReconfigTimeout (s : State) : Host.Outcome State Fault Refusal := .next (abandonReconfig s stTimeout)
def execCapoAssign (d : Desc) (s : State) : Host.Outcome State Fault Refusal := .next (runAdmin 0x0001 d (capoAssignCmd d) s)
def execCapoRelease (d : Desc) (s : State) : Host.Outcome State Fault Refusal := .next (runAdmin 0x0002 d (capoReleaseCmd d) s)
def execCapoClock (d : Desc) (s : State) : Host.Outcome State Fault Refusal := .next (runAdmin 0x0003 d (capoClockCmd d) s)

/-- SETUP_UNLOCK (R341). -/
def execSetupUnlock (d : Desc) (s : State) : Host.Outcome State Fault Refusal :=
  .next (runAdmin 0x0009 d (fun s => completeSt (setRegBits s 0x1000 31 31 0) d stOK) s)
def execPatchLoad (d : Desc) (img : PatchImage) (s : State) : Host.Outcome State Fault Refusal :=
  .next (runAdmin 0x0010 d (patchLoadCmd d img) s)
def execPatchSwap (bow : Fin 16) (s : State) : Host.Outcome State Fault Refusal := .next (patchSwap bow s)
def execPatchLoadTimeout (s : State) : Host.Outcome State Fault Refusal := .next (patchTimeout s)
def execTbSchedArm (d : Desc) (s : State) : Host.Outcome State Fault Refusal := .next (runAdmin 0x0020 d (schedArmCmd d) s)
def execTbSchedCancel (d : Desc) (s : State) : Host.Outcome State Fault Refusal :=
  .next (runAdmin 0x0021 d (schedCancelCmd d) s)
def execSchedFire (s : State) : Host.Outcome State Fault Refusal := .next (fireDue s)

end Sys2Proof.Machine
end

