-- ==== Sys2Proof/Machine/Abort.lean ====
section
/-! DEFINITION. The meaning of ABORT: the abort rules of each block (R84, R212, R213, R256, R304, R308, R324, R352, R353,
R356, R409, R411). -/

namespace Sys2Proof.Machine

/-! ### Kernels (R84) -/

/-- The context in which a kernel runs. -/
def runningIn (s : State) (t : Desc) : Option (Fin 16 × Ctx) :=
  let holds := fun (k : Context) => match k.job with
    | some j => j.desc == t
    | none => false
  match (List.finRange 16).find? (fun b => holds (bow s b).n || holds (bow s b).u) with
  | some b => some (b, if holds (bow s b).n then .n else .u)
  | none => none

/-- A running kernel ends at the next preemption point; one that U has preempted, or that is halted, ends at once
(R84, R438). A kernel that has executed
END and awaits acknowledgements completes with LATE_ABORT. -/
def abortRunning (s : State) (b : Fin 16) (c : Ctx) : State :=
  let k := ctx s b c
  if k.wait = some .ended then setCtx s b c { k with job := k.job.map (fun j => { j with abortLate := true }) }
  else if k.run = .preempted ∨ k.run = .halted then endKernel s b c stAborted 0
  else tryAbort (setCtx s b c { k with aborting := true }) b c

/-- A job of a descriptor. -/
def jobOf (t : Desc) (js : List Job) : Option Job := js.find? (fun j => j.desc == t)

/-- The list without the first job of a descriptor. -/
def dropJob (t : Desc) (js : List Job) : List Job := js.eraseP (fun j => j.desc == t)

/-- Abort a kernel that waits in a bow, or mark one that has ended. -/
def abortAtBow (s : State) (b : Fin 16) (t : Desc) : Option State :=
  let w := bow s b
  match jobOf t w.queue, jobOf t w.launches with
  | some j, _ => some (completeJob (setBow s b { w with queue := dropJob t w.queue }) j stAborted 0 0)
  | none, some j => some (completeJob (setBow s b { w with launches := dropJob t w.launches }) j stAborted 0 0)
  | none, none =>
    if w.ended.any (fun e => e.job.desc == t) then
      some (setBow s b { w with ended := w.ended.map (fun e =>
        if e.job.desc == t then { e with job := { e.job with abortLate := true } } else e) })
    else none

/-- Abort a kernel: none where its launch stands, its entry being due now. [log entries 90: DEDUCED; 122: DEDUCED] -/
def abortKernel (s : State) (t : Desc) : Option State :=
  match runningIn s t with
  | some (b, c) => some (abortRunning s b c)
  | none =>
    match (List.finRange 16).findSome? (fun b => abortAtBow s b t), jobOf t s.brown.held with
    | some u, _ => some u
    | none, some j =>
      some (refuseJob (giveUpExpansion { s with brown := { s.brown with held := dropJob t s.brown.held } } t) j stAborted)
    | none, none =>
      match s.sched.find? (fun e => e.kernel && e.desc == t) with
      | some e => if entryDue s e then none else some (cancelEntry s e.armNo).1
      | none => none

/-! ### Transfers (R352, R353) -/

/-- Abort a transfer: one that waits moves nothing; what the one in progress has moved stays.
[log entry 86: DESIGN CHOICE] -/
def abortTransfer (s : State) (t : Desc) : Option State :=
  match (List.finRange 8).find? (fun m => (s.movers[m] : List Desc).contains t), s.ackWaits.find? (fun w => w.desc == t) with
  | some m, _ =>
    let runs := (s.movers[m] : List Desc).head? == some t
    let s := { s with movers := s.movers.set m ((s.movers[m] : List Desc).erase t) }
    some (if runs then abortRunningTransfer m t s else completeTransferDesc s t stAborted 0)
  | none, some w => some (completeTransferDesc { s with ackWaits := s.ackWaits.erase w } t stAborted w.moved)
  | none, none => none

/-! ### Admin commands -/

/-- The spare of a migration is detached (R409). [log entry 67: DESIGN CHOICE] -/
def abandonMigration (s : State) (m : Migration) : State :=
  let s := markDomain { s with migration := none, pcourse := s.pcourse.set m.mirror .spareOff } m.mirror.val false
  serviceOp (setReg (setNiState s (physPort m.mirror.val) 2) 0x700C0 0) 5 0

/-- Abort a command in progress: none where it has no point left at which an abort takes effect. -/
def abortAdmin (s : State) (t : Desc) : Option State :=
  if s.adminQ.contains t then some (completeSt { s with adminQ := dropDesc t s.adminQ } t stAborted)
  else
    match s.patchLoad, s.reconfig, s.fabLoad, s.snap, s.migration with
    | p, r, f, k, m =>
      if p.any (fun l => l.desc == t) then
        p.map (fun l => completeSt (cancelPending { s with patchLoad := none } l.left) t stAborted)
      else if r.any (fun c => c.desc == t) then some (abandonReconfig s stAborted)
      else if f.any (fun l => l.desc == t) then
        f.map (fun l => completeSt (endLoad (if l.step ≥ 2 then emptyQuad s l.quad else s) l l.step stAborted) t stAborted)
      else if k.any (fun c => c.desc == t) then some (completeSt (snapState { s with snap := none } 0) t stAborted)
      else if s.idMove.isNone && m.any (fun c => c.desc == some t) then m.map (fun c => completeSt (abandonMigration s c) t stAborted)
      else none

/-! ### The command (R356) -/

/-- The oldest other descriptor of a ring with a TAG that is accepted and not completed. [log entry 122: DEDUCED] -/
def abortFind (s : State) (d : Desc) : Option Desc :=
  (dropDesc d s.accepted).find? (fun t => !t.startup && t.ring.toNat == byteAt d 0x08 && (descTag t).toNat == dle d 0x0C 4)

def abortTarget (s : State) (t : Desc) : Option State :=
  match descType t with
  | 1 => abortKernel s t
  | 2 => abortTransfer s t
  | _ => abortAdmin s t

/-- ABORT waits for its target's completion; without a target that an abort can still affect it completes with
LATE_ABORT. [log entry 122: DEDUCED] -/
def abortCmd (d : Desc) (s : State) : State :=
  match abortFind s d with
  | none => completeSt s d stLateAbort
  | some t =>
    match abortTarget { s with abortWaits := s.abortWaits ++ [(d, t)] } t with
    | some u => u
    | none => completeSt s d stLateAbort

def execAbort (d : Desc) (s : State) : Host.Outcome State Fault Refusal := .next (runAdmin 0x0008 d (abortCmd d) s)

end Sys2Proof.Machine
end

