-- ==== Sys2Proof/Machine/Host.lean ====
section
/-! DEFINITION. Meanings of the host interface: resets, rings and doorbells, descriptor acceptance, movers, completions,
stream rings and interrupt moderation (R340 to R350, R352, R357 to R365). -/

namespace Sys2Proof.Machine

/-! ### Accepting descriptors (R350, R351) -/

/-- What follows the acceptance of a descriptor: an admin command waits for its turn. [log entry 124: DEDUCED] -/
def submit (s : State) (d : Desc) : State :=
  let r := acceptDesc s d
  if fenceHolds s d then s
  else if !r.2 then r.1
  else match descType d with
    | 1 => submitKernel r.1 d
    | 2 => submitTransfer r.1 d
    | _ => r.1

/-- SQ_STATUS.STATE. -/
def sqState (s : State) (n : BitVec 6) : Nat := regBits s (sqBase n.toNat + 0x20) 1 0
def sqCi (s : State) (n : BitVec 6) : BitVec 32 := reg s (sqBase n.toNat + 0x1C)

/-- Take fetched entries in ring order, up to one with FENCE whose ring is busy, or to a fault of the ring.
[log entry 57: DEDUCED] -/
def takeEntries (n : BitVec 6) : List DescBits → State → State
  | [], s => s
  | b :: bs, s =>
    let d : Desc := { ring := n, bytes := b, startup := false }
    if sqState s n = 3 ∨ (descFence d ∧ ringBusy s n) then s
    else takeEntries n bs (submit (setReg s (sqBase n.toNat + 0x1C) (sqCi s n + 1)) d)

/-! ### Polling (R345, R346, R357, R364, R365, R411) -/

def sqSet (s : State) (n : BitVec 6) (k : SqState) : State := { s with sq := s.sq.set (Fin.ofNat 64 n.toNat) k }
def sqGet (s : State) (n : BitVec 6) : SqState := s.sq[Fin.ofNat 64 n.toNat]

/-- The engine of a ring polls: the function is a bus master, the ring is enabled, active or at the final read before it is
idle, and no firmware switch is in progress. -/
def ringPolls (s : State) (n : BitVec 6) : Bool :=
  let k := sqGet s n
  ringOn s (sqBase n.toNat + 0x18) && (sqState s n == 1 || (sqState s n == 2 && k.idlePolls != 0)) &&
  busMaster s && s.fwSwitch.isNone

/-- The engine fetches: its completion ring holds nothing (R357). -/
def ringFetches (s : State) (n : BitVec 6) : Bool := (s.cq[(sqGet s n).cq]).held.isEmpty

/-- A read of the doorbell word fails; the sixteenth in a row makes the ring FAULTED with cause POLL.
[log entry 70: DEDUCED] -/
def pollFails (n : BitVec 6) (s : State) : State :=
  let k := sqGet s n
  let s := sqSet s n { k with badPolls := k.badPolls + 1 }
  let s := aerNote s 14
  if k.badPolls + 1 ≥ 16 then writeArea (faultRing s n.toNat 3) n.toNat false
  else logEvent s (logSource 0x08 n.toNat) 0x0060 stTimeout (BitVec.ofNat 24 n.toNat)

/-- A read finds PI equal to CI. -/
def pollEmpty (n : BitVec 6) (s : State) : State :=
  let k := sqGet s n
  if sqState s n = 2 then sqSet s n { k with idlePolls := 0, badPolls := 0 }
  else if k.idlePolls + 1 < regBits s 0x1000 23 8 then sqSet s n { k with idlePolls := k.idlePolls + 1, badPolls := 0 }
  else
    writeArea (setRegBits (sqSet s n { k with idlePolls := 1, badPolls := 0 }) (sqBase n.toNat + 0x20) 1 0 2) n.toNat true

/-- A read finds entries: at most 16 of those fetched are taken. [log entry 124: DEDUCED] -/
def pollEntries (n : BitVec 6) (ready : Nat) (entries : List DescBits) (s : State) : State :=
  let s := setRegBits (sqSet s n { sqGet s n with idlePolls := 0, badPolls := 0 }) (sqBase n.toNat + 0x20) 1 0 1
  if ready > 2 ^ regBits s (sqBase n.toNat + 0x18) 5 1 then writeArea (faultRing s n.toNat 2) n.toNat false
  else
    let k := sqGet s n
    if !ringFetches s n then s
    else
      let s := if entries.isEmpty then s else sqSet s n { k with refetch := false }
      writeArea (takeEntries n (entries.take (min ready 16)) s) n.toNat false

def doorbellPoll (n : BitVec 6) (pi : Option (BitVec 32)) (entries : List DescBits) (s : State) : State :=
  if !ringPolls s n then s
  else
    match pi with
    | none => pollFails n s
    | some v => if v = sqCi s n then pollEmpty n s else pollEntries n (v - sqCi s n).toNat entries s

/-! ### Failed fetches (R365) -/

def fetchStatus : FetchFail → Status
  | .timeout => stTimeout
  | .unsupported => stBadAddress
  | .poisoned => stBadDescriptor

/-- What AER shows for a failed read: a completion timeout, a poisoned TLP; an Unsupported Request is Received Master Abort
in the Status register. [log entry 182: PRESUMED] -/
def noteFetch (why : FetchFail) (s : State) : State := match why with
  | .timeout => aerNote s 14
  | .unsupported => setRegBits s (pciReg 0x04) 29 29 1
  | .poisoned => aerNote s 12

/-- A second failure in a row posts a completion for the entry, passes it and counts as a fault.
[log entry 70: DEDUCED] -/
def fetchFails (n : BitVec 6) (why : FetchFail) (s : State) : State :=
  if !ringPolls s n || !ringFetches s n then s
  else
    let s := noteFetch why s
    let k := sqGet s n
    let st := fetchStatus why
    if !k.refetch then logEvent (sqSet s n { k with refetch := true }) (logSource 0x08 n.toNat) 0x0060 st (BitVec.ofNat 24 n.toNat)
    else
      let ci := sqCi s n
      let detail := if why = .poisoned then badDetail 0 3 else ci.setWidth 24
      let s := pushCompletion (setReg (sqSet s n { k with refetch := false }) (sqBase n.toNat + 0x1C) (ci + 1)) k.cq
        { tag := 0xFFFFFFFF, status := st, ring := n.setWidth 8, type := 0, cflags := 0, detail, extra := 0, result := 0,
          irq := false }
      writeArea (countFault s n.toNat st) n.toNat false

/-! ### Interrupt moderation (R361) -/

/-- An entry has been written to a ring whose CTRL is at `ctrl`: whether its message is sent, and the entries since. -/
def moderates (s : State) (ctrl since : Nat) (irq : Bool) : Bool × Nat :=
  if irq || since + 1 ≥ regBits s ctrl 19 12 then (true, 0) else (false, since + 1)

def ringVector (s : State) (ctrl : Nat) : BitVec 6 := BitVec.ofNat 6 (regBits s ctrl 11 6)

/-! ### Writing completions (R357) -/

/-- The 32 bytes of a completion. -/
def completionBytes (c : Completion) (flags : Nat) (epoch : BitVec 64) : List (BitVec 8) :=
  leBytes c.tag.toNat 4 ++ [c.status, c.ring, c.type, BitVec.ofNat 8 flags] ++ leBytes c.detail.toNat 4 ++
  leBytes c.extra.toNat 4 ++ leBytes epoch.toNat 8 ++ leBytes c.result.toNat 8

/-- PHASE of entry number `i` of a ring of 2^log2 entries. -/
def lapPhase (i log2 : Nat) : Bool := i / 2 ^ log2 % 2 == 0

/-- Write the oldest completion of a ring. -/
def putCompletion (m : Fin 64) (c : Completion) (rest : List Completion) (s : State) : State :=
  let o := cqBase m.val
  let q := s.cq[m]
  let pi := reg s (o + 0x14)
  let log2 := regBits s (o + 0x10) 5 1
  let flags := c.cflags.toNat + (lapPhase pi.toNat log2).toNat + 32 * q.overrun.toNat
  let s := hostWrite s ((reg64 s o (o + 4)).toNat + pi.toNat % 2 ^ log2 * 32) (completionBytes c flags s.epoch)
  let g := moderates s (o + 0x10) q.since c.irq
  let s := setReg { s with cq := s.cq.set m { held := rest, since := g.2, overrun := false } } (o + 0x14) (pi + 1)
  if g.1 then sendMsix s (ringVector s (o + 0x10)) else s

/-- A consumer count read fails: PCIE_ERR, recorded. [log entry 70: DEDUCED] -/
def consumerFails (s : State) (n : Nat) : State :=
  logEvent (hifEvent (aerNote s 14) 3) (logSource 0x08 n) 0x0060 stTimeout (BitVec.ofNat 24 n)

/-- The oldest held completion is written where its ring is enabled and has space. -/
def writeCompletion (m : Fin 64) (consumer : Option (BitVec 32)) (s : State) : State :=
  let o := cqBase m.val
  if !ringOn s (o + 0x10) || !busMaster s then s
  else
    match s.cq[m].held with
    | [] => s
    | c :: rest =>
      match consumer with
      | none => consumerFails s m.val
      | some h => if (reg s (o + 0x14) - h).toNat ≥ 2 ^ regBits s (o + 0x10) 5 1 then s else putCompletion m c rest s

/-! ### Stream rings (R358 to R360) -/

def streamOf (d : Desc) : Fin 32 := Fin.ofNat 32 (byteAt d 0x08)

/-- Bytes of a record: header and payload. -/
def recordSize (words : Nat) (pack : Bool) : Nat := 32 + words * (if pack then 5 else 8)

def streamStartCmd (d : Desc) (s : State) : State :=
  let r := streamOf d
  let o := stBase r.val
  let flags := byteAt d 0x0A
  let words := dle d 0x0C 4
  if recordSize words (flags.testBit 0) > regBits s (o + 0x14) 19 0 then completeSt s d stBadDescriptor
  else
    let s := setReg s (o + 0x18) (BitVec.ofNat 32
      (1 + 2 * byteAt d 0x09 + 32 * (flags.testBit 1).toNat + 64 * (flags.testBit 0).toNat))
    let s := if flags.testBit 2 then s else setReg64 s (o + 0x1C) (o + 0x20) 0
    let k := s.st[r]
    completeSt { s with st := s.st.set r { k with words := BitVec.ofNat 16 words, mover := BitVec.ofNat 3 (byteAt d 0x10)
                                                  dropped := if flags.testBit 2 then k.dropped else 0 } } d stOK

/-- STREAM_STOP: no record is in progress between commands. [log entry 125: DEDUCED] -/
def streamStopCmd (d : Desc) (s : State) : State :=
  completeSt (setRegBits s (stBase (streamOf d).val + 0x18) 0 0 0) d stOK

/-- A record leaves the window: SEQ counts it. -/
def takeRecord (s : State) (r : Fin 32) (w : Fin 16) (n : Nat) : State :=
  let o := stBase r.val
  setReg64 (advanceWindow s w false n).1 (o + 0x1C) (o + 0x20) (reg64 s (o + 0x1C) (o + 0x20) + 1)

/-- The record is dropped. -/
def dropRecord (s : State) (r : Fin 32) (w : Fin 16) (n : Nat) : State :=
  let k := s.st[r]
  let s := countUp (takeRecord s r w n) (stBase r.val + 0x24) 31 0 1
  hifEvent { s with st := s.st.set r { k with dropped := BitVec.ofNat 32 (min (k.dropped.toNat + 1) (2 ^ 32 - 1)) } } 2

/-- The header of a record. -/
def recordHeader (s : State) (r : Fin 32) (w : Fin 16) (payload : List (BitVec 8)) : List (BitVec 8) :=
  let o := stBase r.val
  let k := s.st[r]
  let phase := lapPhase k.written.toNat (regBits s (o + 0x10) 5 1)
  leBytes (reg64 s (o + 0x1C) (o + 0x20)).toNat 8 ++ leBytes s.epoch.toNat 8 ++ leBytes k.words.toNat 4 ++
  leBytes k.dropped.toNat 4 ++ leBytes (crc32 payload).toNat 4 ++
  [BitVec.ofNat 8 w.val, BitVec.ofNat 8 (phase.toNat + 2 * regBits s (o + 0x18) 6 6)] ++ leBytes 0 2

/-- Read `n` elements from the head of a window. -/
def readWindow (w : Fin 16) (meets : List (Nat × Meet)) : Nat → Nat → State → State × List Word
  | 0, _, s => (s, [])
  | n + 1, i, s =>
    let r := readWord false s (headElem s w i) (meetOf meets (headElem s w i))
    let q := readWindow w meets n (i + 1) r.1
    (q.1, r.2.word :: q.2)

/-- The record is written to the next slot, padded with zeros. [log entry 125: DEDUCED] -/
def writeRecord (s : State) (r : Fin 32) (w : Fin 16) (meets : List (Nat × Meet)) (n : Nat) : State :=
  let o := stBase r.val
  let k := s.st[r]
  let size := regBits s (o + 0x14) 19 0
  let slot := (reg64 s o (o + 4)).toNat + k.written.toNat % 2 ^ regBits s (o + 0x10) 5 1 * size
  let q := readWindow w meets n 0 s
  let payload := wordBytes ((reg s (o + 0x18)).getLsbD 6) q.2
  let bytes := recordHeader q.1 r w payload ++ payload
  let s := takeRecord (hostWrite q.1 slot (bytes ++ List.replicate (size - bytes.length) 0)) r w n
  let g := moderates s (o + 0x10) k.since false
  let s := { s with st := s.st.set r { k with written := k.written + 1, dropped := 0, since := g.2 } }
  if g.1 then sendMsix s (ringVector s (o + 0x10)) else s

/-- The window of a bound stream ring holds a record's worth of elements. [log entry 125: DEDUCED] -/
def streamRecord (r : Fin 32) (consumer : Option (BitVec 32)) (meets : List (Nat × Meet)) (s : State) : State :=
  let o := stBase r.val
  let bind := reg s (o + 0x18)
  let w := Fin.ofNat 16 (bitsOf bind.toNat 4 1)
  let k := s.st[r]
  let n := k.words.toNat
  if !bind.getLsbD 0 || n == 0 || !storeServes s || !winOn s w || winUsed s w < n then s
  else
    let blocked := fun (s : State) => if bind.getLsbD 5 then dropRecord s r w n else s
    if !ringOn s (o + 0x10) || !busMaster s then blocked s
    else
      match consumer with
      | none => consumerFails s r.val
      | some h => if (k.written - h).toNat ≥ 2 ^ regBits s (o + 0x10) 5 1 then blocked s else writeRecord s r w meets n

/-- MOD_TIME has passed since the oldest entry that no message has announced. -/
def moderationTimer (stream : Bool) (n : BitVec 6) (s : State) : State :=
  if stream then
    let r := Fin.ofNat 32 n.toNat
    let o := stBase r.val + 0x10
    if n.toNat ≥ 32 ∨ s.st[r].since = 0 ∨ regBits s o 29 20 = 0 then s
    else sendMsix { s with st := s.st.set r { s.st[r] with since := 0 } } (ringVector s o)
  else
    let m := Fin.ofNat 64 n.toNat
    let o := cqBase m.val + 0x10
    if s.cq[m].since = 0 ∨ regBits s o 29 20 = 0 then s
    else sendMsix { s with cq := s.cq.set m { s.cq[m] with since := 0 } } (ringVector s o)

/-! ### Meanings -/

def execFunctionLevelReset (s : State) : Host.Outcome State Fault Refusal := .next (hostReset 0 s)
def execPerstNReset (s : State) : Host.Outcome State Fault Refusal := .next (hostReset 1 s)
def execHifWake (value : Reg32) (s : State) : Host.Outcome State Fault Refusal := .next (hifWake s value)
def execDoorbellPoll (ring : BitVec 6) (pi : Option (BitVec 32)) (entries : List DescBits) (s : State) :
    Host.Outcome State Fault Refusal := .next (doorbellPoll ring pi entries s)
def execDescriptorFetchFail (ring : BitVec 6) (why : FetchFail) (s : State) : Host.Outcome State Fault Refusal :=
  .next (fetchFails ring why s)

/-- A write of a ring's CTRL register (R342); stream rings are 0 to 31. -/
def execRingEnable (kind : RingKind) (n : BitVec 6) (value : Reg32) (s : State) : Host.Outcome State Fault Refusal :=
  .next (match kind with
    | .sq => bar0Write s (sqBase n.toNat + 0x18) value true
    | .cq => bar0Write s (cqBase n.toNat + 0x10) value true
    | .st => if n.toNat < 32 then bar0Write s (stBase n.toNat + 0x10) value true else s)

/-- SETUP_LOCK is written 1 (R341). -/
def execSetupLock (s : State) : Host.Outcome State Fault Refusal := .next (setRegBits s 0x1000 31 31 1)

/-- A descriptor of the row's kind is accepted; a command of another kind is no such descriptor. -/
def execKernel (d : Desc) (s : State) : Host.Outcome State Fault Refusal := .next (if descType d = 1 then submit s d else s)
def execCopy (d : Desc) (s : State) : Host.Outcome State Fault Refusal :=
  .next (if descType d = 2 ∧ descCode d = 0 then submit s d else s)
def execRegRead (d : Desc) (s : State) : Host.Outcome State Fault Refusal :=
  .next (if descType d = 2 ∧ descCode d = 1 then submit s d else s)
def execRegWrite (d : Desc) (s : State) : Host.Outcome State Fault Refusal :=
  .next (if descType d = 2 ∧ descCode d = 2 then submit s d else s)
def execMoverTransferDone (mover : Fin 8) (status : BitVec 8) (moved : Nat) (data : Met (List Word)) (s : State) :
    Host.Outcome State Fault Refusal :=
  .next (finishTransfer mover (knownStatus status) moved data.val data.meets s)
def execCompletionWrite (cq : BitVec 6) (consumer : Option (BitVec 32)) (s : State) : Host.Outcome State Fault Refusal :=
  .next (writeCompletion (Fin.ofNat 64 cq.toNat) consumer s)
def execStreamStart (d : Desc) (s : State) : Host.Outcome State Fault Refusal := .next (runAdmin 0x0028 d (streamStartCmd d) s)
def execStreamStop (d : Desc) (s : State) : Host.Outcome State Fault Refusal := .next (runAdmin 0x0029 d (streamStopCmd d) s)
def execStreamRecord (ring : Fin 32) (consumer : Met (Option (BitVec 32))) (s : State) :
    Host.Outcome State Fault Refusal := .next (streamRecord ring consumer.val consumer.meets s)
def execIrqModTimer (stream : Bool) (ring : BitVec 6) (s : State) : Host.Outcome State Fault Refusal :=
  .next (moderationTimer stream ring s)

end Sys2Proof.Machine
end

