-- ==== Sys2Proof/Machine/Peer.lean ====
section
/-! DEFINITION. Meanings of the peer links: training, frames, acknowledgements, retraining and failure (R426 to R430,
R441). -/

namespace Sys2Proof.Machine

def peer (s : State) (l : Fin 2) : PeerSt := s.peers[l]
def setPeer (s : State) (l : Fin 2) (k : PeerSt) : State := { s with peers := s.peers.set l k }
def setLinkState (s : State) (l : Fin 2) (v : Nat) : State := setRegBits s (linkReg l.val 0) 2 0 v

/-- A Logbook entry PEER: the link, and as cause the STATE that it enters. [log entry 127: DESIGN CHOICE] -/
def logPeer (s : State) (l : Fin 2) (st : Status) (state : Nat) : State :=
  logEvent s (logSource 0x0D l.val) 0x0080 st (BitVec.ofNat 24 (l.val + 256 * state))

/-! ### Training (R427) -/

/-- The partner that EXCHANGE expects: own + 1 on PL0, own − 1 on PL1. -/
def partnerOf (s : State) (l : Fin 2) : Nat :=
  let n := ringSize s
  ((ownDev s).toNat + (if l.val = 0 then 1 else n - 1)) % n

/-- EXCHANGE passes, and the link is UP; or fails, and it is MISMATCH. -/
def trainLink (l : Fin 2) (devnum : BitVec 3) (size : BitVec 4) (reversed : Bool) (s : State) : State :=
  if !peerEnabled s l || !(1 ≤ linkState s l.val && linkState s l.val ≤ 3) then s
  else
    let s := setRegBits (setRegBits s (linkReg l.val 0) 5 3 devnum.toNat) (linkReg l.val 0) 6 6 reversed.toNat
    if size.toNat = ringSize s ∧ devnum.toNat = partnerOf s l then setLinkState s l 4
    else logPeer (setLinkState s l 5) l stInternal 5

/-- 10 ms after MISMATCH and 100 ms after FAILED, training starts anew. -/
def restartTraining (l : Fin 2) (s : State) : State :=
  match linkState s l.val with
  | 5 => setLinkState s l 1
  | 6 => setLinkState (setPeer s l { PeerSt.reset with retrains := (peer s l).retrains }) l 1
  | _ => s

/-! ### Retraining and failure (R430) -/

/-- Retrains of the past second. -/
def recentRetrains (s : State) (l : Fin 2) : List (BitVec 64) :=
  (peer s l).retrains.filter (fun t => (s.epoch - t).toNat < secondTicks)

/-- The link trains again from ALIGN; what it keeps for replay stays. [log entry 127: DESIGN CHOICE] -/
def retrainLink (s : State) (l : Fin 2) : State :=
  let s := setPeer s l { peer s l with retrains := s.epoch :: recentRetrains s l }
  logPeer (setLinkState (countUp s (linkReg l.val 0x08) 31 0 1) l 2) l stOK 2

/-- Eight retrains within one second: FAILED, and every packet held for the link ends: those kept for replay, those that
wait to be forwarded, and those on their way to the link. [log entry 127: DESIGN CHOICE] -/
def failPeer (l : Fin 2) (s : State) : State :=
  if (recentRetrains s l).length < 8 then s
  else
    let k := peer s l
    let held := (k.kept.reverse.filterMap (fun f => f.done)) ++ k.wait.map (fun x => x.1) ++ s.flight.filter (fun x => x.via == .over l)
    let s := { s with flight := s.flight.filter (fun x => x.via != .over l) }
    let s := setPeer (setRegBits (setLinkState s l 6) (linkReg l.val 0) 7 7 1) l { PeerSt.reset with retrains := [] }
    let s := logPeer s l stInternal 6
    held.foldl (fun s x => linkRefuses s l.val stDomainOff x.type.toNat x.pkt) s

/-! ### Frames (R426, R428, R430) -/

/-- The other link. -/
def otherLink (l : Fin 2) : Fin 2 := if l.val = 0 then 1 else 0

/-- A packet received on a link enters this device's network, or goes on in its direction of travel, behind those that wait
there. `high` says that it came on a high VC. -/
def receivePacket (l : Fin 2) (s : State) (x : BitVec 4 × Packet) (high : Bool) : State :=
  let t := x.1.toNat
  let p := x.2
  if p.ddev = ownDev s then inject s t p
  else
    let o := otherLink l
    let wait := setPeer s o { peer s o with wait := (peer s o).wait ++ [(mkSent t p, high)] }
    if !linkUp s o.val then linkRefuses s o.val stBadAddress t p
    else if linkTakes s o p then (sendFrame s o (mkSent t p) high).getD wait
    else wait

/-- Packets to forward that wait are sent, oldest first, as far as there is room. -/
def drainWait (l : Fin 2) : Nat → State → State
  | 0, s => s
  | n + 1, s => match (peer s l).wait with
    | [] => s
    | x :: rest => match sendFrame (setPeer s l { peer s l with wait := rest }) l x.1 x.2 with
      | some t => drainWait l n t
      | none => s

/-- Fields of a frame, in the order of R426 from bit 0 on: four slots of 80 data bits, four times 4 control bits, frame type,
sequence number and CRC. [log entry 127: DESIGN CHOICE] -/
def slotData (f : BitVec 384) (k : Nat) : BitVec 80 := f.extractLsb' (80 * k) 80
def slotVc (f : BitVec 384) (k : Nat) : Fin 4 := Fin.ofNat 4 (bitsOf f.toNat (321 + 4 * k) (320 + 4 * k))
def slotHead (f : BitVec 384) (k : Nat) : Bool := f.getLsbD (322 + 4 * k)
def slotValid (f : BitVec 384) (k : Nat) : Bool := f.getLsbD (323 + 4 * k)
def frameType (f : BitVec 384) : Nat := bitsOf f.toNat 339 336
def frameSeq (f : BitVec 384) : BitVec 12 := f.extractLsb' 340 12

/-- The CRC-32 over the first 352 bits is right. -/
def frameSound (f : BitVec 384) : Bool := f.extractLsb' 352 32 == crc32 (leBytes (f.toNat % 2 ^ 352) 44)

/-- The flits of a packet are all there. -/
def flitsComplete (head : BitVec 80) (body : List (BitVec 80)) : Bool :=
  let h := headerPacket head
  flitsOf h.1.toNat h.2.words.toNat ≤ body.length

/-- A flit received on a VC: the packet that it completes enters the network, or goes on. -/
def receiveFlit (l : Fin 2) (vc : Fin 4) (head : Bool) (d : BitVec 80) (s : State) : State :=
  let k := peer s l
  let got := if head then [d] else if (k.part[vc]).isEmpty then [] else k.part[vc] ++ [d]
  let put := fun (fs : List (BitVec 80)) => setPeer s l { k with part := k.part.set vc fs }
  match got with
  | [] => s
  | h :: body => if flitsComplete h body then receivePacket l (put []) (packetOfFlits h body) (vc.val % 2 == 1) else put got

/-- An ACK of the latest frame received, or a NAK of the one expected, is sent. -/
def sendReply (s : State) (l : Fin 2) (nak : Bool) : State :=
  let k := peer s l
  let out := fun (type : Nat) (n : BitVec 12) => (frameBits [] type n :: k.line).take 64
  setPeer s l (if nak then { k with reply := some (2, k.expect), line := out 2 k.expect }
    else { k with reply := some (1, k.expect - 1), sinceAck := 0, line := out 1 (k.expect - 1) })

/-- A DATA frame in order: its flits are delivered, and every sixteenth is acknowledged.
[log entry 27: DESIGN CHOICE] -/
def dataFrame (l : Fin 2) (f : BitVec 384) (s : State) : State :=
  let k := peer s l
  let s := setPeer s l { k with expect := k.expect + 1, sinceAck := k.sinceAck + 1 }
  let s := if k.sinceAck + 1 ≥ 16 then sendReply s l false else s
  (List.range 4).foldl (fun s i => if slotValid f i then receiveFlit l (slotVc f i) (slotHead f i) (slotData f i) s else s) s

/-- Frames sent from number `n` on, of those kept. [log entry 127: DESIGN CHOICE] -/
def framesFrom (k : PeerSt) (n : BitVec 12) : Nat := (k.next - n).toNat

/-- Frames before frame n are acknowledged and kept no longer; packets that waited for room are sent.
[log entry 127: DESIGN CHOICE] -/
def ackFrames (l : Fin 2) (n : BitVec 12) (s : State) : State :=
  let k := peer s l
  drainWait l k.wait.length (setPeer s l { k with kept := k.kept.take (framesFrom k n) })

/-- A NAK: every frame from the one that it names on is sent again, before any other. -/
def resendFrames (l : Fin 2) (n : BitVec 12) (s : State) : State :=
  let k := peer s l
  let kept := k.kept.take (framesFrom k n)
  drainWait l k.wait.length (setPeer s l { k with kept, line := (kept.map (fun f => f.bits) ++ k.line).take 64 })

/-- A frame is received: one that fails its CRC is discarded, counted and answered with a NAK.
[log entry 27: DESIGN CHOICE] -/
def peerFrame (l : Fin 2) (f : BitVec 384) (s : State) : State :=
  let k := peer s l
  let n := frameSeq f
  if !linkUp s l.val then s
  else if !frameSound f then sendReply (countUp s (linkReg l.val 0x04) 31 0 1) l true
  else match frameType f with
    | 0 => if n = k.expect then dataFrame l f s else retrainLink s l
    | 1 => if framesFrom k (n + 1) ≤ k.kept.length then ackFrames l (n + 1) s else retrainLink s l
    | 2 => if framesFrom k n ≤ k.kept.length then resendFrames l n s else retrainLink s l
    | 3 => s
    | _ => retrainLink s l

/-! ### Meanings -/

def execPeerTrain (link : Fin 2) (devnum : BitVec 3) (ringSize : BitVec 4) (reversed : Bool) (s : State) :
    Host.Outcome State Fault Refusal := .next (trainLink link devnum ringSize reversed s)
def execPeerRetrainTimer (link : Fin 2) (s : State) : Host.Outcome State Fault Refusal := .next (restartTraining link s)
def execPeerFrame (link : Fin 2) (f : BitVec 384) (s : State) : Host.Outcome State Fault Refusal := .next (peerFrame link f s)

/-- 200 ns since a DATA frame that no ACK has answered: an ACK is sent. -/
def execPeerAckTimer (link : Fin 2) (s : State) : Host.Outcome State Fault Refusal :=
  .next (if (peer s link).sinceAck = 0 then s else sendReply s link false)
def execPeerLinkFail (link : Fin 2) (s : State) : Host.Outcome State Fault Refusal := .next (failPeer link s)

end Sys2Proof.Machine
end

