-- ==== Sys2Proof/Machine/Access.lean ====
section
/-! DEFINITION. Meanings of JTAG, the debug access port, BAR4, the debug commands and host register writes (R6, R339, R431 to
R440). -/

namespace Sys2Proof.Machine

/-! ### The test access port (R431, R432) -/

/-- The identification register: version 1, part 0x6540. -/
def idCode : Reg32 := 0x16540879

/-- The instruction that a code stands for: one that the table does not list acts as BYPASS.
[log entry 129: DEDUCED] -/
def irActs (code : BitVec 8) : BitVec 8 :=
  if [0x00, 0x01, 0x02, 0x04, 0x05, 0x08, 0x09, 0x10].contains code.toNat then code else 0xFF

/-- An instruction is loaded; a boundary-scan instruction before it no longer controls the balls.
[log entry 129: DEDUCED] -/
def loadIr (s : State) (code : BitVec 8) : State := { s with jtag := { s.jtag with ir := irActs code, control := false } }

/-- What the data register that the instruction selects captures: the identification, the DAP's status and data, the levels
of the FIO balls, or the bypass bit. -/
def tapCapture (s : State) : BitVec 64 :=
  if s.jtag.ir = 0x02 then idCode.setWidth 64
  else if s.jtag.ir = 0x10 then (s.jtag.data ++ (0 : BitVec 18) ++ s.jtag.status : BitVec 52).setWidth 64
  else if [0x00, 0x01, 0x08, 0x09].contains s.jtag.ir.toNat then s.jtag.sampled
  else 0

/-- SAMPLE/PRELOAD: the boundary register takes the levels of the balls, and then what the tester shifts in.
[log entry 129: DEDUCED] -/
def samplePreload (s : State) : State :=
  let f := takeFree (loadIr s 0x01)
  { f.2 with jtag := { f.2.jtag with sampled := fioLevels s, drives := Config.scanIn f.1 } }

/-- An instruction that takes control of the balls: before outputs have started and with the debug lock open, else it acts
as BYPASS and is counted. [log entry 129: DEDUCED] -/
def takeBalls (s : State) (code : BitVec 8) : State :=
  let t := loadIr s code
  if !outputsStarted s && debugOpen s then { t with jtag := { t.jtag with control := true, taken := true } }
  else countUp t 0x90014 31 16 1

/-! ### The debug access port (R433) -/

/-- Update-DR: a read, a write, or with OP 3 a refusal. [log entry 129: DEDUCED] -/
def dapAccess (op : BitVec 2) (addr : BitVec 18) (data : Reg32) (s : State) : State :=
  let s := loadIr s 0x10
  let o := 4 * addr.toNat
  match op.toNat with
  | 1 =>
    let v := bar0Read s o
    let s := noteRead s o
    { s with jtag := { s.jtag with status := 0, data := v } }
  | 2 =>
    let s := bar0Write s o data true
    { s with jtag := { s.jtag with status := 0 } }
  | 3 => { s with jtag := { s.jtag with status := 2 } }
  | _ => s

/-! ### BAR4 (R436) -/

/-- The request of the host interface for a store word. -/
def bar4Packet (s : State) (a : Nat) (lanes : BitVec 5) : Packet :=
  { ddev := ownDev s, dst := ident 2 (a / 8 % 4), sdev := ownDev s, src := ident 4 0, tag := 0, words := 1, addr := BitVec.ofNat 21 a,
    lanes, arg := 0, data := [], flits := 0, host := 0 }

/-- Carry an N-port request of the host interface to the store and back: the status, and the word of a read. -/
def bar4Request (s : State) (t a : Nat) (lanes : BitVec 5) (body : State → State × Hit) : State × Status × Word :=
  let p := bar4Packet s a lanes
  let host : Nat × Nat := (32, 3)
  match portOf s p.dst host.1 with
  | none => (s, stBadAddress, 0)
  | some np =>
    if !portEnabled s np then (niErr s host stBadAddress, stBadAddress, 0)
    else
      let s := tallyPair s t { p with flits := flitsOf t 1 } (if t = ptRd then 1 else 0)
      let r := if niState s np ≠ 0 then
          (logEvent (niErr s np stDomainOff) (logSource 0x05 (4 * np.1 + np.2)) 0x0021 stDomainOff (BitVec.ofNat 24 t), stDomainOff, 0)
        else
          let h := body s
          (h.1, h.2.status, h.2.word)
      r

/-- Every status but OK is counted in BAR4_ERR. -/
def bar4Count (s : State) (st : Status) : State := if st = stOK then s else countUp s 0x90014 15 0 1

def bar4Read (a : Nat) (meet : Meet) (s : State) : State :=
  let r := bar4Request s ptRd a 0b11111 (fun s => readWord false s a meet)
  let v : BitVec 64 := if r.2.1 = stOK ∨ r.2.1 = stUndefRead then r.2.2.setWidth 64 else 0xFFFFFFFFFFFFFFFF
  bar4Count { r.1 with bar4 := v } r.2.1

def bar4Write (a : Nat) (data : BitVec 64) (lanes : BitVec 5) (meet : Meet) (s : State) : State :=
  let r := bar4Request s ptWr a lanes (fun s => writeWord false s a lanes (data.setWidth 40) meet)
  bar4Count r.1 r.2.1

/-- The words that BAR4 maps: the general store, with the debug lock open. -/
def bar4Maps (s : State) (offset : BitVec 26) : Bool :=
  debugOpen s && offset.toNat < 0x1000000 && offset.toNat / 8 < secureBase

def bar4Access (offset : BitVec 26) (write : Met (Option (BitVec 64 × BitVec 8))) (s : State) : State :=
  let a := offset.toNat / 8
  let meet := meetOf write.meets a
  match write.val with
  | none => if bar4Maps s offset then bar4Read a meet s else { s with bar4 := 0 }
  | some (data, be) =>
    let lanes : BitVec 5 := be.extractLsb' 0 5
    if bar4Maps s offset && lanes != 0 then bar4Write a data lanes meet s else s

/-! ### Meanings -/

def execExtest (s : State) : Host.Outcome State Fault Refusal := .next (takeBalls s 0x00)
def execClamp (s : State) : Host.Outcome State Fault Refusal := .next (takeBalls s 0x04)
def execHighz (s : State) : Host.Outcome State Fault Refusal := .next (takeBalls s 0x05)
def execExtestPulse (s : State) : Host.Outcome State Fault Refusal := .next (takeBalls s 0x08)
def execExtestTrain (s : State) : Host.Outcome State Fault Refusal := .next (takeBalls s 0x09)

/-- SAMPLE/PRELOAD selects the boundary register, IDCODE the identification, BYPASS the bypass bit. -/
def execSamplePreload (s : State) : Host.Outcome State Fault Refusal := .next (samplePreload s)
def execIdcode (s : State) : Host.Outcome State Fault Refusal := .next (loadIr s 0x02)
def execBypass (s : State) : Host.Outcome State Fault Refusal := .next (loadIr s 0xFF)

/-- TRST_N selects IDCODE, as IEEE 1149.1 resets the instruction register. [log entry 13: PRESUMED] -/
def execTrstNAssert (s : State) : Host.Outcome State Fault Refusal := .next (loadIr s 0x02)
def execDapAccess (op : BitVec 2) (addr : BitVec 18) (data : Reg32) (s : State) : Host.Outcome State Fault Refusal :=
  .next (dapAccess op addr data s)
def execBar4Access (offset : BitVec 26) (write : Met (Option (BitVec 64 × BitVec 8))) (s : State) :
    Host.Outcome State Fault Refusal := .next (bar4Access offset write s)

/-- Writes of DBG_HALT, DBG_RESUME and DBG_STEP. -/
def execDbgHalt (bows : BitVec 16) (s : State) : Host.Outcome State Fault Refusal :=
  .next (bar0Write s 0x90004 (bows.setWidth 32) true)
def execDbgResume (bows : BitVec 16) (s : State) : Host.Outcome State Fault Refusal :=
  .next (bar0Write s 0x90008 (bows.setWidth 32) true)
def execDbgStep (bow : Fin 16) (ctx : Ctx) (s : State) : Host.Outcome State Fault Refusal :=
  .next (bar0Write s 0x9000C (BitVec.ofNat 32 (bow.val + (if ctx = .u then 16 else 0))) true)
def execDbgContextWrite (bow : Fin 16) (hi : Bool) (value : Reg32) (s : State) : Host.Outcome State Fault Refusal :=
  .next (bar0Write s (0x90120 + bow.val * 0x40 + (if hi then 4 else 0)) value true)

/-- A write of DBG_UNLOCK.CHECK, with whether the response verifies. -/
def execDbgUnlockCheck (sigOk : Bool) (s : State) : Host.Outcome State Fault Refusal := .next (checkUnlock s sigOk)
def execDbgUnlockLock (s : State) : Host.Outcome State Fault Refusal := .next (unlockLock s)
def execRegisterWrite (place : HostPlace) (value : Reg32) (full : Bool) (s : State) : Host.Outcome State Fault Refusal :=
  .next (hostRegWrite place value full s)

end Sys2Proof.Machine
end

