-- ==== Sys2Proof/Machine/ArrayInt.lean ====
section
/-! DEFINITION. Meanings of the array integer and logic instructions (R122 to R130, R160 to R163, R466). -/

namespace Sys2Proof.Machine

/-! ### Bit-serial addition (R25, R123) -/

/-- State of the ripple: carry, overflow of the latest bit, its operand A bit, and where the operands have differed. -/
structure Ripple where
  c  : Plane
  o  : Plane
  a  : Plane
  ne : Plane

def maj (a b c : Plane) : Plane := (a &&& b) ||| (c &&& (a ||| b))

/-- One ADD or SUB microcycle: the next state and the result bit. -/
def rippleStep (sub : Bool) (st : Ripple) (a b : Plane) : Ripple × Plane :=
  let b' := if sub then ~~~b else b
  let c := maj a b' st.c
  ({ c, o := st.c ^^^ c, a, ne := st.ne ||| (a ^^^ b) }, a ^^^ b' ^^^ st.c)

/-- The running carry, which takes no undo entry of its own. -/
def carryWr (e : Env) (c : Plane) : Wr := { key := keyC, mask := e.en, val := c, log := false }

def rippleStart (c : Plane) : Ripple := { c, o := 0, a := 0, ne := 0 }

/-- The pass that adds or subtracts and writes result bits to `d` (nowhere for `.none`). -/
def addPass (e : Env) (d : Dst) (sub : Bool) (rd : Nat → View → Plane × Plane) (ad : Nat → List Nat) (w : Nat)
    (c0 : Plane) : Pass Ripple :=
  pass e rd ad (fun st i a b =>
    let r := rippleStep sub st a b
    (r.1, putBit d e.en i r.2 ++ [carryWr e r.1.c])) w (rippleStart c0)

/-- ADD, ADC, SUB, SBC: `sub`, and the carry in that the first cycle sets, or C as it stands (R123). -/
def addPlan (sub : Bool) (cin : Option Bool) (a : Args) : Plan :=
  let c0 := match cin with
    | some b => if b then onesPlane else 0
    | none => cget zeroes a.env.st.pe keyC
  let r := addPass a.env a.d sub (rd2 a.env a.s1 a.s2) (ad2 a.s1 a.s2) a.w c0
  direct ([putFlag keyC a.env.en c0] ++ r.writes ++ [putFlag keyX a.env.en r.st.o]) r.found

/-- NEG: 0 − src1 (R123). -/
def negPlan (a : Args) : Plan :=
  let r := addPass a.env a.d true (fun i v => (0, srcBit a.env v a.s1 i)) (planesRead a.s1) a.w onesPlane
  direct ([putFlag keyC a.env.en onesPlane] ++ r.writes ++ [putFlag keyX a.env.en r.st.o]) r.found

/-- ABS (R124, R466): the sign is read first, then the bits are negated where it is set. -/
def absPlan (a : Args) : Plan :=
  let e := a.env
  let sgn := srcNow e a.s1 (a.w - 1)
  let r := pass e (fun i v => (srcBit e v a.s1 i, 0)) (planesRead a.s1) (fun (st : Plane × Plane) i v _ =>
    let y := v ^^^ sgn
    let res := y ^^^ st.1
    ((y &&& st.1, res), putBit a.d e.en i res)) a.w (sgn, 0)
  direct (r.writes ++ [putFlag keyX e.en r.st.2, putFlag keyC e.en 0]) (foundIn e a.s1 [a.w - 1] ++ r.found)

/-- The saturating forms (R124): a wrapped first pass, then the clamped PEs are rewritten. -/
def satPlan (sub signed : Bool) (a : Args) : Plan :=
  let e := a.env
  let c0 := if sub then onesPlane else 0
  let r := addPass e a.d sub (rd2 e a.s1 a.s2) (ad2 a.s1 a.s2) a.w c0
  let clamp := if signed then r.st.o else if sub then ~~~r.st.c else r.st.c
  -- the clamped value: signed by the sign of src1, unsigned the limit that was passed
  let neg := r.st.a
  let bit := fun (i : Nat) => if signed then (if i = a.w - 1 then neg else ~~~neg) else if sub then 0 else onesPlane
  direct ([putFlag keyC e.en c0] ++ r.writes ++
    (List.range a.w).flatMap (fun i => putBit a.d (e.en &&& clamp) i (bit i)) ++
    [putFlag keyC e.en 0, putFlag keyX e.en clamp]) r.found

/-- src1 < src2 at the end of a subtraction: signed by sign and overflow, unsigned by borrow. -/
def lessPlane (signed : Bool) (st : Ripple) (msb : Plane) : Plane := if signed then msb ^^^ st.o else ~~~st.c

/-- The compare pass of src1 − src2: the ripple's end and its top result bit. -/
def comparePass (a : Args) : Pass (Ripple × Plane) :=
  pass a.env (rd2 a.env a.s1 a.s2) (ad2 a.s1 a.s2) (fun (st : Ripple × Plane) _ u v =>
    let r := rippleStep true st.1 u v
    (r, [carryWr a.env r.1.c])) a.w (rippleStart onesPlane, 0)

/-- MIN and MAX (R125): a compare pass, then a select pass; src1 where the sources are equal. -/
def minMaxPlan (max signed : Bool) (a : Args) : Plan :=
  let e := a.env
  let p := comparePass a
  let lt := lessPlane signed p.st.1 p.st.2
  let pick2 := if max then lt else p.st.1.ne &&& ~~~lt
  let sel := pass e (rd2 e a.s1 a.s2) (ad2 a.s1 a.s2)
    (fun (_ : Unit) i u v => ((), putBit a.d e.en i (blend pick2 u v))) a.w ()
  direct ([putFlag keyC e.en onesPlane] ++ p.writes ++ [putFlag keyX e.en pick2] ++ sel.writes) (p.found ++ sel.found)

/-- The integer compares (R125): 0 EQ, 1 NE, 2 LT, 3 LE, 4 LTU, 5 LEU. -/
def cmpPlan (rel : Nat) (a : Args) : Plan :=
  let e := a.env
  let p := comparePass a
  let eq := ~~~p.st.1.ne
  let v : Plane := match rel with
    | 0 => eq
    | 1 => p.st.1.ne
    | 2 => lessPlane true p.st.1 p.st.2
    | 3 => lessPlane true p.st.1 p.st.2 ||| eq
    | 4 => lessPlane false p.st.1 p.st.2
    | _ => lessPlane false p.st.1 p.st.2 ||| eq
  direct ([putFlag keyC e.en onesPlane] ++ p.writes ++ putBit a.d e.en 0 v ++ [putFlag keyX e.en p.st.1.o]) p.found

/-! ### Multiplication and division (R126 to R128) -/

/-- Both sources of every enabled PE, read before anything is written. -/
def operandPairs (a : Args) : List (Nat × Nat × Nat) :=
  let u := readAll a.env a.s1 a.w
  let v := readAll a.env a.s2 a.w
  (enabledPes a.env).map (fun p => (p, valueAt u p, valueAt v p))

/-- MULI and MULIU. -/
def mulPlan (signed : Bool) (a : Args) : Plan :=
  let ps := operandPairs a
  let vals := ps.map (fun t => (t.1,
    (if signed then low (2 * a.w) (sx a.w t.2.1 * sx a.w t.2.2) else t.2.1 * t.2.2), 0))
  -- k: one plus the index of the highest set multiplier bit over the enabled PEs
  let k := ps.foldl (fun k t => max k (if t.2.2 = 0 then 0 else t.2.2.log2 + 1)) 0
  scratch (commitScratch a.env a.d (2 * a.w) vals 0 []) (allReads a)
    (if signed then none else some (a.w * (a.w + 1) - max (k * (a.w + 1)) (2 * a.w)))

/-- MACI (R127): the accumulator is the 2w-bit field at dst. -/
def maciPlan (a : Args) : Plan :=
  let acc := match a.d with
    | .planes b => Src.mem b
    | _ => Src.absent
  let d := readAll a.env acc (2 * a.w)
  let vals := (operandPairs a).map (fun t => (t.1,
    low (2 * a.w) ((valueAt d t.1 : Nat) + sx a.w t.2.1 * sx a.w t.2.2), 0))
  scratch (commitScratch a.env a.d (2 * a.w) vals 0 []) (allReads a ++ foundIn a.env acc (List.range (2 * a.w))) none

/-- Quotient, remainder, X and DZ of one division (R128, R163). -/
def divide (signed : Bool) (w u v : Nat) : Nat × Nat × Bool × Bool :=
  if v = 0 then (2 ^ w - 1, u, false, true)
  else if signed then
    if sx w u = -(2 ^ (w - 1) : Nat) ∧ sx w v = -1 then (u, 0, true, false)
    else (low w ((sx w u).tdiv (sx w v)), low w ((sx w u).tmod (sx w v)), false, false)
  else (u / v, u % v, false, false)

/-- DIVI and DIVIU. -/
def divPlan (signed : Bool) (a : Args) : Plan :=
  let qs := (operandPairs a).map (fun t => (t.1, divide signed a.w t.2.1 t.2.2))
  let vals := qs.map (fun t => (t.1, t.2.1 + t.2.2.1 * 2 ^ a.w, if t.2.2.2.2 then 2 else 0))
  let x := planeOf (qs.map (fun t => (t.1, t.2.2.2.1.toNat))) 0
  scratch (commitScratch a.env a.d (2 * a.w) vals x [1]) (allReads a) none

/-! ### Logic, shifts, LAR, C and X (R129, R130, R162) -/

/-- AND to NOT: a function of both bits. -/
def logicPlan (f : Plane → Plane → Plane) (a : Args) : Plan :=
  let r := pass a.env (rd2 a.env a.s1 a.s2) (ad2 a.s1 a.s2)
    (fun (_ : Unit) i u v => ((), putBit a.d a.env.en i (f u v))) a.w ()
  direct r.writes r.found

/-- The uniform shift amount: bits [6:0] of src2 (R129). -/
def shiftAmount (a : Args) : Nat :=
  match a.s2 with
  | .bcast v => v % 128
  | _ => 0

/-- A routine that reads source bit `idx i` in array cycle i, or nothing, and writes it to destination bit i; a bit
that reads nothing takes the latched fill. `latch` names the source bit whose value is kept as the fill. -/
def movePlan (idx : Nat → Option Nat) (latch : Option Nat) (a : Args) : Plan :=
  let e := a.env
  let rd := fun (i : Nat) (v : View) =>
    match idx i with
    | some j => (srcBit e v a.s1 j, (0 : Plane))
    | none => (0, 0)
  let ad := fun (i : Nat) =>
    match idx i with
    | some j => planesRead a.s1 j
    | none => []
  let r := pass e rd ad (fun (fill : Plane) i u _ =>
    match idx i with
    | some j => (if latch = some j then u else fill, putBit a.d e.en i u)
    | none => (fill, putBit a.d e.en i fill)) a.w 0
  direct r.writes r.found

def shlPlan (a : Args) : Plan :=
  let n := shiftAmount a
  movePlan (fun i => if n ≤ i then some (i - n) else none) none a

def shrPlan (a : Args) : Plan :=
  let n := shiftAmount a
  movePlan (fun i => if i + n < a.w then some (i + n) else none) none a

/-- SAR reads bit w − 1 once, at the latest in its first cycle, and repeats it. -/
def sarPlan (a : Args) : Plan :=
  let n := shiftAmount a
  movePlan (fun i => if i + n < a.w then some (i + n) else if i = 0 then some (a.w - 1) else none) (some (a.w - 1)) a

def rolPlan (a : Args) : Plan :=
  let r := shiftAmount a % a.w
  movePlan (fun i => some ((i + a.w - r) % a.w)) none a

/-- LDLAR: the sum of the zero-extended sources mod 2^14; C becomes 0 (R130). -/
def ldlarPlan (a : Args) : Plan :=
  let e := a.env
  let zx := fun (i : Nat) (v : View) => if i < a.w then rd2 e a.s1 a.s2 i v else (0, 0)
  let ad := fun (i : Nat) => if i < a.w then ad2 a.s1 a.s2 i else []
  let r := pass e zx ad (fun st i u v =>
    let r := rippleStep false st u v
    (r.1, [{ key := keyLar i, mask := e.en, val := r.2, log := false }, carryWr e r.1.c])) 14 (rippleStart 0)
  direct ([putFlag keyC e.en 0] ++ r.writes ++ [putFlag keyC e.en 0]) r.found

/-- STLAR. -/
def stlarPlan (a : Args) : Plan :=
  direct ((List.range a.w).flatMap (fun i =>
    putBit a.d a.env.en i (if i < 14 then cget zeroes a.env.st.pe (keyLar i) else 0))) []

/-- LDC and LDX. -/
def loadFlagPlan (key : Nat) (a : Args) : Plan :=
  direct [putFlag key a.env.en (srcNow a.env a.s1 0)] (foundIn a.env a.s1 [0])

/-- STC and STX. -/
def storeFlagPlan (key : Nat) (a : Args) : Plan :=
  direct (putBit a.d a.env.en 0 (cget zeroes a.env.st.pe key)) []

/-! ### Meanings -/

def execAdd (x : Issue) (s : State) : Host.Outcome State Fault Refusal :=
  .next (runArray 0x00 x (addPlan false (some false)) noPost s)
def execAdc (x : Issue) (s : State) : Host.Outcome State Fault Refusal :=
  .next (runArray 0x01 x (addPlan false none) noPost s)
def execSub (x : Issue) (s : State) : Host.Outcome State Fault Refusal :=
  .next (runArray 0x02 x (addPlan true (some true)) noPost s)
def execSbc (x : Issue) (s : State) : Host.Outcome State Fault Refusal :=
  .next (runArray 0x03 x (addPlan true none) noPost s)
def execNeg (x : Issue) (s : State) : Host.Outcome State Fault Refusal :=
  .next (runArray 0x04 x negPlan noPost s)
def execAbs (x : Issue) (s : State) : Host.Outcome State Fault Refusal :=
  .next (runArray 0x05 x absPlan noPost s)
def execAddss (x : Issue) (s : State) : Host.Outcome State Fault Refusal :=
  .next (runArray 0x06 x (satPlan false true) noPost s)
def execAddus (x : Issue) (s : State) : Host.Outcome State Fault Refusal :=
  .next (runArray 0x07 x (satPlan false false) noPost s)
def execSubss (x : Issue) (s : State) : Host.Outcome State Fault Refusal :=
  .next (runArray 0x08 x (satPlan true true) noPost s)
def execSubus (x : Issue) (s : State) : Host.Outcome State Fault Refusal :=
  .next (runArray 0x09 x (satPlan true false) noPost s)
def execMin (x : Issue) (s : State) : Host.Outcome State Fault Refusal :=
  .next (runArray 0x0A x (minMaxPlan false true) noPost s)
def execMax (x : Issue) (s : State) : Host.Outcome State Fault Refusal :=
  .next (runArray 0x0B x (minMaxPlan true true) noPost s)
def execMinu (x : Issue) (s : State) : Host.Outcome State Fault Refusal :=
  .next (runArray 0x0C x (minMaxPlan false false) noPost s)
def execMaxu (x : Issue) (s : State) : Host.Outcome State Fault Refusal :=
  .next (runArray 0x0D x (minMaxPlan true false) noPost s)
def execCmpeq (x : Issue) (s : State) : Host.Outcome State Fault Refusal :=
  .next (runArray 0x10 x (cmpPlan 0) noPost s)
def execCmpne (x : Issue) (s : State) : Host.Outcome State Fault Refusal :=
  .next (runArray 0x11 x (cmpPlan 1) noPost s)
def execCmplt (x : Issue) (s : State) : Host.Outcome State Fault Refusal :=
  .next (runArray 0x12 x (cmpPlan 2) noPost s)
def execCmple (x : Issue) (s : State) : Host.Outcome State Fault Refusal :=
  .next (runArray 0x13 x (cmpPlan 3) noPost s)
def execCmpltu (x : Issue) (s : State) : Host.Outcome State Fault Refusal :=
  .next (runArray 0x14 x (cmpPlan 4) noPost s)
def execCmpleu (x : Issue) (s : State) : Host.Outcome State Fault Refusal :=
  .next (runArray 0x15 x (cmpPlan 5) noPost s)
def execMuli (x : Issue) (s : State) : Host.Outcome State Fault Refusal :=
  .next (runArray 0x18 x (mulPlan true) noPost s)
def execMuliu (x : Issue) (s : State) : Host.Outcome State Fault Refusal :=
  .next (runArray 0x19 x (mulPlan false) noPost s)
def execMaci (x : Issue) (s : State) : Host.Outcome State Fault Refusal :=
  .next (runArray 0x1A x maciPlan noPost s)
def execDivi (x : Issue) (s : State) : Host.Outcome State Fault Refusal :=
  .next (runArray 0x1C x (divPlan true) noPost s)
def execDiviu (x : Issue) (s : State) : Host.Outcome State Fault Refusal :=
  .next (runArray 0x1D x (divPlan false) noPost s)
def execAnd (x : Issue) (s : State) : Host.Outcome State Fault Refusal :=
  .next (runArray 0x20 x (logicPlan (fun u v => u &&& v)) noPost s)
def execOr (x : Issue) (s : State) : Host.Outcome State Fault Refusal :=
  .next (runArray 0x21 x (logicPlan (fun u v => u ||| v)) noPost s)
def execXor (x : Issue) (s : State) : Host.Outcome State Fault Refusal :=
  .next (runArray 0x22 x (logicPlan (fun u v => u ^^^ v)) noPost s)
def execAndn (x : Issue) (s : State) : Host.Outcome State Fault Refusal :=
  .next (runArray 0x23 x (logicPlan (fun u v => u &&& ~~~v)) noPost s)
def execNand (x : Issue) (s : State) : Host.Outcome State Fault Refusal :=
  .next (runArray 0x24 x (logicPlan (fun u v => ~~~(u &&& v))) noPost s)
def execNor (x : Issue) (s : State) : Host.Outcome State Fault Refusal :=
  .next (runArray 0x25 x (logicPlan (fun u v => ~~~(u ||| v))) noPost s)
def execXnor (x : Issue) (s : State) : Host.Outcome State Fault Refusal :=
  .next (runArray 0x26 x (logicPlan (fun u v => ~~~(u ^^^ v))) noPost s)
def execNot (x : Issue) (s : State) : Host.Outcome State Fault Refusal :=
  .next (runArray 0x27 x (logicPlan (fun u _ => ~~~u)) noPost s)
def execShl (x : Issue) (s : State) : Host.Outcome State Fault Refusal :=
  .next (runArray 0x30 x shlPlan noPost s)
def execShr (x : Issue) (s : State) : Host.Outcome State Fault Refusal :=
  .next (runArray 0x31 x shrPlan noPost s)
def execSar (x : Issue) (s : State) : Host.Outcome State Fault Refusal :=
  .next (runArray 0x32 x sarPlan noPost s)
def execRol (x : Issue) (s : State) : Host.Outcome State Fault Refusal :=
  .next (runArray 0x33 x rolPlan noPost s)
def execLdlar (x : Issue) (s : State) : Host.Outcome State Fault Refusal :=
  .next (runArray 0x38 x ldlarPlan noPost s)
def execStlar (x : Issue) (s : State) : Host.Outcome State Fault Refusal :=
  .next (runArray 0x39 x stlarPlan noPost s)
def execLdc (x : Issue) (s : State) : Host.Outcome State Fault Refusal :=
  .next (runArray 0x3A x (loadFlagPlan keyC) noPost s)
def execStc (x : Issue) (s : State) : Host.Outcome State Fault Refusal :=
  .next (runArray 0x3B x (storeFlagPlan keyC) noPost s)
def execLdx (x : Issue) (s : State) : Host.Outcome State Fault Refusal :=
  .next (runArray 0x3C x (loadFlagPlan keyX) noPost s)
def execStx (x : Issue) (s : State) : Host.Outcome State Fault Refusal :=
  .next (runArray 0x3D x (storeFlagPlan keyX) noPost s)

end Sys2Proof.Machine
end

