-- ==== Sys2Proof/Machine/ArrayFp.lean ====
section
/-! DEFINITION. Meanings of the array FP40 instructions (R131 to R136, R164 to R184, R229, R230, R466). -/

namespace Sys2Proof.Machine

/-- FPCTL of the issuing context (R133). -/
def ctlOf (a : Args) : FpCtl := fpCtlOf a.ctx.fpctl

/-- Bits [n−1:0] of a source in every enabled PE, all read before anything is written. -/
def operandVals (a : Args) (s : Src) (n : Nat) : List (Nat × Nat) :=
  let u := readAll a.env s n
  (enabledPes a.env).map (fun p => (p, valueAt u p))

/-- The 40-bit operands of every enabled PE. -/
def fpPairs (a : Args) : List (Nat × Word × Word) :=
  (operandPairs a).map (fun t => (t.1, BitVec.ofNat 40 t.2.1, BitVec.ofNat 40 t.2.2))

/-- Commit a list of results of `n` bits; `raise` are the sticky flags the operation can raise. -/
def fpCommit (a : Args) (n : Nat) (vals : List (Nat × Nat × FFlags)) (raise : List Nat) : List Wr :=
  commitScratch a.env a.d n (vals.map (fun v => (v.1, v.2.1, v.2.2.toNat))) 0 raise

/-- Normalisation steps taken by the group: the steps that some enabled PE needs (R135, R229). -/
def stepsTaken (n : Nat) (ds : List Nat) : Nat := stepCount n (ds.foldl (fun acc d => acc ||| d) 0)

/-- FADD and FSUB. -/
def faddPlan (sub : Bool) (a : Args) : Plan :=
  let c := ctlOf a
  let ps := fpPairs a
  let vals := ps.map (fun t =>
    let r := if sub then fpSub c t.2.1 t.2.2 else fpAdd c t.2.1 t.2.2
    (t.1, r.1.toNat, r.2))
  let s := stepsTaken 5 (ps.map (fun t => addSteps c t.2.1 t.2.2 sub))
  scratch (fpCommit a 40 vals [0, 2, 3, 4]) (allReads a) (some (26 * (5 - s)))

/-- k of R134: the multiplier bits processed. A SCALAR multiplier decides it at issue. -/
def multiplierK (a : Args) (ps : List (Nat × Word × Word)) : Nat :=
  let c := ctlOf a
  match a.s2 with
  | .bcast v => max 1 (multiplierBits c (BitVec.ofNat 40 v))
  | _ => ps.foldl (fun k t => max k (multiplierBits c t.2.2)) 1

/-- FMUL. -/
def fmulPlan (a : Args) : Plan :=
  let c := ctlOf a
  let ps := fpPairs a
  let vals := ps.map (fun t =>
    let r := fpMul c t.2.1 t.2.2
    (t.1, r.1.toNat, r.2))
  scratch (fpCommit a 40 vals [0, 2, 3, 4]) (allReads a) (some (33 * (32 - multiplierK a ps)))

/-- FDIV. -/
def fdivPlan (a : Args) : Plan :=
  let c := ctlOf a
  let vals := (fpPairs a).map (fun t =>
    let r := fpDiv c t.2.1 t.2.2
    (t.1, r.1.toNat, r.2))
  scratch (fpCommit a 40 vals [0, 1, 2, 3, 4]) (allReads a) none

/-- A routine with one FP40 source and an `n`-bit result. -/
def fpUnaryPlan (n : Nat) (f : FpCtl → Word → Nat × FFlags) (raise : List Nat) (a : Args) : Plan :=
  let c := ctlOf a
  let vals := (operandVals a a.s1 40).map (fun t =>
    let r := f c (BitVec.ofNat 40 t.2)
    (t.1, r.1, r.2))
  scratch (fpCommit a n vals raise) (foundIn a.env a.s1 (List.range 40)) none

def fsqrtPlan (a : Args) : Plan := fpUnaryPlan 40 (fun c v => ((fpSqrt c v).1.toNat, (fpSqrt c v).2)) [0, 4] a

/-- MACF (R136): the accumulator is the 40-bit field at dst. -/
def macfPlan (a : Args) : Plan :=
  let c := ctlOf a
  let acc := match a.d with
    | .planes b => Src.mem b
    | _ => Src.absent
  let d := readAll a.env acc 40
  let ps := fpPairs a
  let vals := ps.map (fun t =>
    let r := fpMac c (BitVec.ofNat 40 (valueAt d t.1)) t.2.1 t.2.2
    (t.1, r.1.toNat, r.2))
  let s := stepsTaken 5 (ps.map (fun t => macSteps c (BitVec.ofNat 40 (valueAt d t.1)) t.2.1 t.2.2))
  scratch (fpCommit a 40 vals [0, 2, 3, 4]) (allReads a ++ foundIn a.env acc (List.range 40))
    (some (33 * (32 - multiplierK a ps) + 26 * (5 - s)))

/-- ICVTF and UCVTF of w bits (R180). -/
def icvtfPlan (signed : Bool) (a : Args) : Plan :=
  let c := ctlOf a
  let ps := (operandVals a a.s1 a.w).map (fun t => (t.1, if signed then sx a.w t.2 else (t.2 : Int)))
  let vals := ps.map (fun t =>
    let r := intToFp c t.2
    (t.1, r.1.toNat, r.2))
  let s := stepsTaken 6 (ps.map (fun t => intSteps a.w t.2))
  scratch (fpCommit a 40 vals [4]) (foundIn a.env a.s1 (List.range a.w)) (some (26 * (6 - s)))

/-- FCVTI and FCVTU (R179). -/
def fcvtiPlan (signed : Bool) (a : Args) : Plan :=
  let lo : Int := if signed then -(2 ^ (a.w - 1) : Nat) else 0
  let hi : Int := if signed then (2 ^ (a.w - 1) : Nat) - 1 else (2 ^ a.w : Nat) - 1
  fpUnaryPlan a.w (fun c v => (low a.w (fpToInt c lo hi v).1, (fpToInt c lo hi v).2)) [0, 4] a

/-- F32CVT and F64CVT: an `n`-bit source. -/
def fromIeeePlan (n : Nat) (f : FpCtl → Nat → Word × FFlags) (raise : List Nat) (a : Args) : Plan :=
  let c := ctlOf a
  let vals := (operandVals a a.s1 n).map (fun t =>
    let r := f c t.2
    (t.1, r.1.toNat, r.2))
  scratch (fpCommit a 40 vals raise) (foundIn a.env a.s1 (List.range n)) none

/-! ### Direct routines (R466) -/

/-- FNEG and FABS: a copying pass with the sign changed, then the PEs whose result is not that copy are rewritten: the
canonical NaN, or under DAZ the zero of a subnormal source. -/
def fsignPlan (absolute : Bool) (a : Args) : Plan :=
  let c := ctlOf a
  let e := a.env
  let r := pass e (fun i v => (srcBit e v a.s1 i, (0 : Plane))) (planesRead a.s1) (fun (st : List Plane) i u _ =>
    (st ++ [u], putBit a.d e.en i (if i = 39 then (if absolute then 0 else ~~~u) else u))) 40 []
  let res := (enabledPes e).map (fun p => (p, fpSign absolute c (BitVec.ofNat 40 (valueAt r.st p))))
  let vals := res.map (fun t => (t.1, t.2.1.toNat))
  let redo := planeOf ((enabledPes e).map (fun p =>
    let v := BitVec.ofNat 40 (valueAt r.st p)
    (p, (fpIsNaN (fpUnpack c v) || dazWord c v != v).toNat))) 0
  direct (r.writes ++ (List.range 40).flatMap (fun i => putBit a.d (e.en &&& redo) i (planeOf vals i)) ++
    [orSticky e.st.pe 0 e.en (planeOf (res.map (fun t => (t.1, t.2.2.toNat))) 0),
     putFlag keyC e.en 0, putFlag keyX e.en 0]) r.found

/-- FMIN and FMAX: a compare pass, then a select pass that reads the chosen source again. -/
def fminmaxPlan (max : Bool) (a : Args) : Plan :=
  let c := ctlOf a
  let e := a.env
  let ps := fpPairs a
  let nan := planeOf (ps.map (fun t => (t.1, (fpIsNaN (fpUnpack c t.2.1) || fpIsNaN (fpUnpack c t.2.2)).toNat))) 0
  let pick2 := planeOf (ps.map (fun t =>
    let u := fpKey (dazWord c t.2.1)
    let v := fpKey (dazWord c t.2.2)
    (t.1, (if max then decide (u < v) else decide (v < u)).toNat))) 0
  -- a chosen subnormal is read as zero under DAZ
  let zero := planeOf (ps.map (fun t =>
    let u := if pick2.getLsbD t.1 then t.2.2 else t.2.1
    (t.1, (dazWord c u != u).toNat))) 0
  let iv := planeOf (ps.map (fun t => (t.1, (fpMinMax max c t.2.1 t.2.2).2.toNat))) 0
  let sel := pass e (rd2 e a.s1 a.s2) (ad2 a.s1 a.s2) (fun (_ : Unit) i u v =>
    let chosen := blend pick2 u v
    let chosen := if i = 39 then chosen else chosen &&& ~~~zero
    let nanBit : Plane := if canonicalNaN.getLsbD i then onesPlane else 0
    ((), putBit a.d e.en i (blend nan chosen nanBit))) 40 ()
  direct (sel.writes ++ [orSticky e.st.pe 0 e.en iv, putFlag keyC e.en 0, putFlag keyX e.en 0]) (allReads a ++ sel.found)

/-- The FP compares: 0 EQ, 1 LT, 2 LE, 3 UN. -/
def fcmpPlan (rel : Nat) (a : Args) : Plan :=
  let c := ctlOf a
  let e := a.env
  let rs := (fpPairs a).map (fun t => (t.1, fpCompare rel c t.2.1 t.2.2))
  direct ([putFlag keyC e.en 0, orSticky e.st.pe 0 e.en (planeOf (rs.map (fun t => (t.1, t.2.2.toNat))) 0)] ++
    putBit a.d e.en 0 (planeOf (rs.map (fun t => (t.1, t.2.1.toNat))) 0) ++ [putFlag keyX e.en 0]) (allReads a)

/-! ### Meanings -/

def execFadd (x : Issue) (s : State) : Host.Outcome State Fault Refusal :=
  .next (runArray 0x40 x (faddPlan false) noPost s)
def execFsub (x : Issue) (s : State) : Host.Outcome State Fault Refusal :=
  .next (runArray 0x41 x (faddPlan true) noPost s)
def execFmul (x : Issue) (s : State) : Host.Outcome State Fault Refusal :=
  .next (runArray 0x42 x fmulPlan noPost s)
def execFdiv (x : Issue) (s : State) : Host.Outcome State Fault Refusal :=
  .next (runArray 0x43 x fdivPlan noPost s)
def execFsqrt (x : Issue) (s : State) : Host.Outcome State Fault Refusal :=
  .next (runArray 0x44 x fsqrtPlan noPost s)
def execMacf (x : Issue) (s : State) : Host.Outcome State Fault Refusal :=
  .next (runArray 0x45 x macfPlan noPost s)
def execFneg (x : Issue) (s : State) : Host.Outcome State Fault Refusal :=
  .next (runArray 0x46 x (fsignPlan false) noPost s)
def execFabs (x : Issue) (s : State) : Host.Outcome State Fault Refusal :=
  .next (runArray 0x47 x (fsignPlan true) noPost s)
def execFmin (x : Issue) (s : State) : Host.Outcome State Fault Refusal :=
  .next (runArray 0x48 x (fminmaxPlan false) noPost s)
def execFmax (x : Issue) (s : State) : Host.Outcome State Fault Refusal :=
  .next (runArray 0x49 x (fminmaxPlan true) noPost s)
def execFcmpeq (x : Issue) (s : State) : Host.Outcome State Fault Refusal :=
  .next (runArray 0x4A x (fcmpPlan 0) noPost s)
def execFcmplt (x : Issue) (s : State) : Host.Outcome State Fault Refusal :=
  .next (runArray 0x4B x (fcmpPlan 1) noPost s)
def execFcmple (x : Issue) (s : State) : Host.Outcome State Fault Refusal :=
  .next (runArray 0x4C x (fcmpPlan 2) noPost s)
def execFcmpun (x : Issue) (s : State) : Host.Outcome State Fault Refusal :=
  .next (runArray 0x4D x (fcmpPlan 3) noPost s)
def execIcvtf (x : Issue) (s : State) : Host.Outcome State Fault Refusal :=
  .next (runArray 0x50 x (icvtfPlan true) noPost s)
def execUcvtf (x : Issue) (s : State) : Host.Outcome State Fault Refusal :=
  .next (runArray 0x51 x (icvtfPlan false) noPost s)
def execFcvti (x : Issue) (s : State) : Host.Outcome State Fault Refusal :=
  .next (runArray 0x52 x (fcvtiPlan true) noPost s)
def execFcvtu (x : Issue) (s : State) : Host.Outcome State Fault Refusal :=
  .next (runArray 0x53 x (fcvtiPlan false) noPost s)
def execF32cvt (x : Issue) (s : State) : Host.Outcome State Fault Refusal :=
  .next (runArray 0x54 x (fromIeeePlan 32 fpFrom32 [0, 3, 4]) noPost s)
def execFcvt32 (x : Issue) (s : State) : Host.Outcome State Fault Refusal :=
  .next (runArray 0x55 x (fpUnaryPlan 32 fpTo32 [0, 2, 3, 4]) noPost s)
def execF64cvt (x : Issue) (s : State) : Host.Outcome State Fault Refusal :=
  .next (runArray 0x56 x (fromIeeePlan 64 fpFrom64 [0, 2, 3, 4]) noPost s)
def execFcvt64 (x : Issue) (s : State) : Host.Outcome State Fault Refusal :=
  .next (runArray 0x57 x (fpUnaryPlan 64 fpTo64 [0]) noPost s)
def execFrint (x : Issue) (s : State) : Host.Outcome State Fault Refusal :=
  .next (runArray 0x58 x (fpUnaryPlan 40 (fun c v => ((fpRint c v).1.toNat, (fpRint c v).2)) [0]) noPost s)

end Sys2Proof.Machine
end

