-- ==== Sys2Proof/Machine/Course.lean ====
section
/-! DEFINITION. Meanings of the course commands: Course Port starts, aborts, words, plane accesses and completions, the
scrubber, ECC write-back and the memory clear (R32 to R36, R46, R47, R51). -/

namespace Sys2Proof.Machine

/-- The register-access write that a requester sends to a course, when it asked for an acknowledgement (R51). -/
def ctrlRequest (s : State) (c : Fin 64) (n : Fin 4) (v : Reg32) (ack : Option (BitVec 12 × BitVec 8)) : Option Packet :=
  ack.map (fun a =>
    { ddev := ownDev s, dst := ident 0 c.val, sdev := ownDev s, src := a.1, tag := a.2, words := 1,
      addr := BitVec.ofNat 21 (0x100 + 0x20 * n.val), lanes := 0b11111, arg := 1, data := [v.setWidth 40], flits := 1, host := 0 })

/-- A write of CRS_CP_CTRL that reaches a course which serves packets. [log entry 41: DEDUCED] -/
def ctrlWrite (c : Fin 64) (n : Fin 4) (v : Reg32) (ack : Option (BitVec 12 × BitVec 8)) (s : State) : State :=
  if (course s c).ready then courseRegWrite s c (0x100 + 0x20 * n.val) v (ctrlRequest s c n v ack) else s

/-- A CP_PUSH packet at its destination (R47): a logical course serves it, and a fabric port hands it to its logic
(R293). -/
def pushBody (p : Packet) (np : Nat × Nat) (s : State) : State :=
  if clsOf p.dst = 0 then pushWords s (Fin.ofNat 64 (instOf p.dst)) (Fin.ofNat 4 p.arg.toNat) p.data
  else if clsOf p.dst = 3 then fpReceive s (Fin.ofNat 4 (instOf p.dst)) (mkSent ptCpPush p)
  else failAt s ptCpPush p np stBadDescriptor

/-- The bow that a course is attached to executes. -/
def bowExecutes (s : State) (c : Fin 64) : Bool := match (course s c).owner with
  | some b => (bow s b).n.job.isSome || (bow s b).u.job.isSome
  | none => false

/-- One plane of the scrubber of a course (R34): single-bit errors are corrected and written back, others recorded. -/
def scrubAt (s : State) (c : Fin 64) : State :=
  let a := regBits s (crsReg c 0x54) 13 0
  let hits := s.peErr.filter (fun e => e.course == c && e.plane.toNat == a)
  let s := hits.foldl (fun s e => countPeError s e true) s
  let s := { s with peErr := s.peErr.filter (fun e => !(e.course == c && e.plane.toNat == a && singleBit e)) }
  let s := setRegBits s (crsReg c 0x54) 13 0 (if a = 16383 then 0 else a + 1)
  if a = 16383 then setRegBits s (crsReg c 0x50) 2 2 1 else s

/-- A plane of a fast pass, which takes every plane once: with the last one FAST clears and PASS_DONE sets (R35). -/
def fastAt (s : State) (c : Fin 64) : State :=
  let s := scrubAt s c
  let k := course s c
  if k.fastLeft ≤ 1 then
    setRegBits (setRegBits (setCourse s c { k with fastLeft := 0 }) (crsReg c 0x50) 2 2 1) (crsReg c 0x50) 1 1 0
  else setCourse s c { k with fastLeft := k.fastLeft - 1 }

/-- FAST is requested on a course: a pass over 16,384 planes starts unless one is in progress. -/
def fastLeftFor (s : State) (c : Fin 64) : State :=
  let k := course s c
  setCourse s c { k with fastLeft := if k.fastLeft = 0 then 16384 else k.fastLeft }

/-- One step of the scrubber: a plane of the fast pass where one is requested, which is suspended, at its plane, while the
bow of an attached course executes (R35); else a plane of the ordinary pass. [log entry 155: DESIGN CHOICE] -/
def scrubOne (s : State) (c : Fin 64) : State :=
  if (reg s (crsReg c 0x50)).getLsbD 1 then
    (if bowExecutes s c then s else fastAt (fastLeftFor s c) c)
  else
    let k := course s c
    scrubAt (setCourse s c { k with fastLeft := 0 }) c

/-- The scrubber runs on a powered course while ENABLE is set (R34). -/
def scrubPlane (c : Fin 64) (s : State) : State :=
  if (course s c).ready && (reg s (crsReg c 0x50)).getLsbD 0 then scrubOne s c else s

/-- FAST requests one fast pass (R35). -/
def requestFast (c : Fin 64) (s : State) : State :=
  if (course s c).ready then fastLeftFor (setRegBits s (crsReg c 0x50) 1 1 1) c else s

/-- The oldest entry of the write-back queue is written back: its plane is sound again in that group (R32). -/
def writeBack (c : Fin 64) (s : State) : State :=
  let k := course s c
  match k.eccQueue with
  | e :: rest =>
    let s := setCourse s c { k with eccQueue := rest }
    { s with peErr := s.peErr.filter (fun x => !(x.course == c && x.group == e.1 && x.plane == e.2 && singleBit x)) }
  | [] => s

/-- The memory clear runs when the course is powered up or before it is attached again (R36); its domain is then on. In
STANDBY, SLEEP and SENTINEL no course has power (R396). -/
def memoryClear (c : Fin 64) (s : State) : State :=
  if (course s c).ready || s.mode == .standby || s.mode == .sleep || s.mode == .sentinel then s else markDomain (clearCourse s c) (s.lmap[c]).val true

/-! ### Meanings -/

def execCpStart (course : Fin 64) (ch : Fin 4) (value : Reg32) (ack : Option (BitVec 12 × BitVec 8)) (s : State) :
    Host.Outcome State Fault Refusal := .next (ctrlWrite course ch (value ||| 1) ack s)
def execCpAbort (course : Fin 64) (ch : Fin 4) (value : Reg32) (ack : Option (BitVec 12 × BitVec 8)) (s : State) :
    Host.Outcome State Fault Refusal := .next (ctrlWrite course ch (value ||| 2) ack s)
def execCpPush (p : Packet) (s : State) : Host.Outcome State Fault Refusal :=
  .next (arrive ptCpPush p anyRange pushBody s)
def execCpPlaneWrite (course : Fin 64) (ch : Fin 4) (s : State) : Host.Outcome State Fault Refusal :=
  .next (planePhase s course ch)
def execCpCompletion (course : Fin 64) (ch : Fin 4) (s : State) : Host.Outcome State Fault Refusal :=
  .next (completeTransfer s course ch)
def execScrubPlane (course : Fin 64) (s : State) : Host.Outcome State Fault Refusal := .next (scrubPlane course s)
def execScrubFastRequest (course : Fin 64) (s : State) : Host.Outcome State Fault Refusal := .next (requestFast course s)
def execEccWriteback (course : Fin 64) (s : State) : Host.Outcome State Fault Refusal := .next (writeBack course s)
def execHwMemoryClear (course : Fin 64) (s : State) : Host.Outcome State Fault Refusal := .next (memoryClear course s)

end Sys2Proof.Machine
end

