-- ==== Sys2Proof/Machine/Movement.lean ====
section
/-! DEFINITION. Meanings of the movement, communication and reduction instructions (R137 to R142). -/

namespace Sys2Proof.Machine

/-- MOVE copies; `n` source bits are read, and the bits above take bit n − 1 (`sign`) or zero (R142). -/
def copyPlan (n : Nat) (sign : Bool) (a : Args) : Plan :=
  movePlan (fun i => if i < n then some i else none) (if sign then some (n - 1) else none) a

/-- n of SEXT and ZEXT: the immediate of src2. -/
def extendFrom (x : Issue) : Nat := immNat x.src2

/-- A reduction writes no plane. -/
def readPlan (a : Args) : Plan := direct [] (foundIn a.env a.s1 (List.range a.w))

/-- The OR of src1 over the enabled PEs, bit by bit (R41, R138). -/
def orOver (a : Args) : Nat :=
  (List.range a.w).foldl (fun acc i =>
    if srcNow a.env a.s1 i &&& a.env.en = 0 then acc else acc + 2 ^ i) 0

/-- Population count of bit i over the enabled PEs (R41). -/
def countOver (a : Args) (i : Nat) : Nat :=
  let v := srcNow a.env a.s1 i
  (enabledPes a.env).foldl (fun n p => n + (v.getLsbD p).toNat) 0

/-- Weighted sum of the bit counts, the top bit with weight −2^(w−1) when signed (R138). -/
def sumOver (signed : Bool) (a : Args) : Int :=
  (List.range a.w).foldl (fun (acc : Int) i =>
    let t : Int := (countOver a i * 2 ^ i : Nat)
    if signed ∧ i = a.w - 1 then acc - t else acc + t) 0

def getgPost (x : Issue) (a : Args) (s : State) : State :=
  let v := orOver a
  captureG x (v != 0) (deliverS x (BitVec.ofNat 40 v) s)

def testgPost (x : Issue) (a : Args) (s : State) : State := captureG x (orOver a != 0) s

/-- The PE whose logical coordinates GETPE takes from src2, read at issue (R140). -/
def peNamed (x : Issue) (c : Context) : Nat :=
  let v := (sValue c x.src2).toNat
  v / 256 % 256 * 256 + v % 256

def getpePost (x : Issue) (a : Args) (s : State) : State :=
  let p := peNamed x a.ctx
  let v := valueAt (readAll a.env a.s1 a.w) p
  deliverS x (if a.env.en.getLsbD p then BitVec.ofNat 40 v else 0) s

def getcountPost (x : Issue) (a : Args) (s : State) : State := deliverS x (BitVec.ofNat 40 (countOver a 0)) s

def getsumPost (x : Issue) (signed : Bool) (a : Args) (s : State) : State :=
  deliverS x (BitVec.ofInt 40 (sumOver signed a)) s

/-- STKOR (R141): the OR of each sticky flag over the enabled PEs reaches BF. -/
def stkorPost (x : Issue) (a : Args) (s : State) : State :=
  let any := fun (i : Nat) => cget zeroes s.pe (keySticky i) &&& a.env.en != 0
  let k := ctx s x.bow x.ctx
  -- IV to bit 6, DZ to 5, OF to 7, UF to 8, IX to 9
  let m : BitVec 10 := BitVec.ofNat 10 ((any 0).toNat * 64 + (any 1).toNat * 32 + (any 2).toNat * 128 +
    (any 3).toNat * 256 + (any 4).toNat * 512)
  setCtx s x.bow x.ctx { k with bf := k.bf ||| m }

/-- STKCLR (R141, R193). -/
def stkclrPlan (a : Args) : Plan := direct ((List.range 5).map (fun i => putFlag (keySticky i) a.env.en 0)) []

/-! ### Meanings -/

def execMove (x : Issue) (s : State) : Host.Outcome State Fault Refusal :=
  .next (runArray 0x60 x (copyPlan (widthOf x) false) noPost s)
def execSext (x : Issue) (s : State) : Host.Outcome State Fault Refusal :=
  .next (runArray 0x61 x (copyPlan (extendFrom x) true) noPost s)
def execZext (x : Issue) (s : State) : Host.Outcome State Fault Refusal :=
  .next (runArray 0x62 x (copyPlan (extendFrom x) false) noPost s)
def execGetg (x : Issue) (s : State) : Host.Outcome State Fault Refusal :=
  .next (runArray 0x70 x readPlan (getgPost x) s)
def execTestg (x : Issue) (s : State) : Host.Outcome State Fault Refusal :=
  .next (runArray 0x71 x readPlan (testgPost x) s)
def execGetpe (x : Issue) (s : State) : Host.Outcome State Fault Refusal :=
  .next (runArray 0x72 x readPlan (getpePost x) s)
def execGetcount (x : Issue) (s : State) : Host.Outcome State Fault Refusal :=
  .next (runArray 0x73 x readPlan (getcountPost x) s)
def execGetsum (x : Issue) (s : State) : Host.Outcome State Fault Refusal :=
  .next (runArray 0x74 x readPlan (getsumPost x false) s)
def execGetsums (x : Issue) (s : State) : Host.Outcome State Fault Refusal :=
  .next (runArray 0x75 x readPlan (getsumPost x true) s)
def execStkor (x : Issue) (s : State) : Host.Outcome State Fault Refusal :=
  .next (runArray 0x78 x (fun _ => direct [] []) (stkorPost x) s)
def execStkclr (x : Issue) (s : State) : Host.Outcome State Fault Refusal :=
  .next (runArray 0x79 x stkclrPlan noPost s)

end Sys2Proof.Machine
end

