-- ==== Sys2Proof/Machine/Store.lean ====
section
/-! DEFINITION. Meanings of the D-port accesses and of the store's own events: scrubbing, the clear, windows and block
leases (R263 to R266, R270 to R274, R277, R278). -/

namespace Sys2Proof.Machine

/-! ### D ports (R265, R270, R294) -/

/-- STORE_BUSY is high while BUSY is 1 in the result of any connection. -/
def settleBusy (s : State) : State :=
  { s with pins := { s.pins with storeBusy := s.dresult.toList.any (fun r => r.busy) } }

/-- The result of an access appears; RDATA that the access does not define is free. [log entry 18: DESIGN CHOICE] -/
def putResult (a : DAccess) (st : Status) (data : Option Word) (busy : Bool) (s : State) : State :=
  let f := match data with
    | some _ => (0, s)
    | none => takeFree s
  let w := match data with
    | some v => v
    | none => Config.dpData f.1
  settleBusy { f.2 with dresult := f.2.dresult.set a.port { rvalid := true, rdata := w, status := st, busy } }

/-- A connection makes an access while its quadrant runs (R294): off, the store answers DOMAIN_OFF (R277).
[log entries 82: DEDUCED; 159: DESIGN CHOICE] -/
def dAccess (a : DAccess) (bad : State → Option Status) (f : State → State) (s : State) : State :=
  if quadState s a.port ≠ 2 then s
  else if !storeIsOn s || (reg s 0x30004).getLsbD 0 then putResult a stDomainOff none false s
  else
    match if a.op7 then some stBadDescriptor else bad s with
    | some st => putResult a st none false s
    | none => f s

/-- An address that a D port reaches. -/
def dAddrBad (a : Nat) : Bool := a ≥ secureBase

def dRead (a : DAccess) (addr : Nat) (s : State) : State :=
  let r := readWord true s addr a.meet
  let given : Bool := r.2.status == stOK || r.2.status == stUndefRead
  putResult a r.2.status (if given then some r.2.word else none) r.2.busy r.1

def dWrite (a : DAccess) (addr : Nat) (s : State) : State :=
  let r := writeWord true s addr a.lanes a.wdata a.meet
  putResult a r.2.status none r.2.busy r.1

def dAtomic (a : DAccess) (f : Word → Word → Word) (s : State) : State :=
  let r := atomicWord true s a.addr.toNat (fun old => f old a.wdata) a.meet
  putResult a r.2.status (if r.2.status = stOK then some r.2.word else none) r.2.busy r.1

/-- Window and offset of WREAD and WWRITE. -/
def dWin (a : DAccess) : Fin 16 := Fin.ofNat 16 (a.addr.toNat % 16)
def dOff (a : DAccess) : Nat := a.addr.toNat / 16

def dWindowBad (s : State) (a : DAccess) (write : Bool) : Option Status :=
  firstFail [(write && a.lanes == 0, stBadDescriptor), (!winOn s (dWin a) || dOff a ≥ winLen s (dWin a), stBadAddress)]

def dAdvance (a : DAccess) (s : State) : State :=
  let r := advanceWindow s (dWin a) (a.addr.getLsbD 4) (advanceAmount a.wdata)
  putResult a stOK (some r.2) false r.1

/-! ### The scrubber (R263) -/

/-- One word of a bank. -/
def scrubWord (s : State) (a : Nat) : State :=
  match errorAt s a with
  | some true => recordUncorr s a 1
  | some false => correctWord s a
  | none => s

/-- Rows that a fast pass still takes with the present one, 0 where none is requested. -/
def fastRows (s : State) : Nat :=
  if !(reg s 0x30000).getLsbD 2 then 0 else if s.scrubLeft = 0 then 65536 else s.scrubLeft

/-- One row of every bank; the last row sets SCRUB_DONE, and a fast pass ends with its 65,536th row. -/
def scrubRow (s : State) : State :=
  if !(reg s 0x30000).getLsbD 1 || !storeIsOn s then s
  else
    let row := s.scrubRow.toNat
    let left := fastRows s
    let s := (List.range 32).foldl (fun s b => scrubWord s (row * 32 + b)) s
    let s := { s with scrubRow := s.scrubRow + 1, scrubLeft := left - 1 }
    let s := if row = 65535 then setRegBits s 0x30000 3 3 1 else s
    if left = 1 then setRegBits s 0x30000 2 2 0 else s

/-! ### The clear (R277) -/

/-- The quadrants power up where the mode has them on (R396), and the clear begins. -/
def clearOnPower (s : State) : State :=
  let off : Bool := match s.mode with
    | .off | .standby | .sleep | .sentinel => true
    | _ => false
  if storeIsOn s || off then s else storePower s

/-! ### Leases (R278) -/

def blockBase (b : BitVec 9) : Nat := b.toNat * 4096

/-- The words of a block that are not 0, keyed within the block. -/
def blockCells (m : Cells 40) (b : BitVec 9) : Cells 40 :=
  (m.filter (fun e => e.1 / 4096 == b.toNat)).foldl (fun c e => cset zeroes c (e.1 % 4096) e.2) []

/-- A memory with a block's words replaced. -/
def withBlock (m : Cells 40) (b : BitVec 9) (c : Cells 40) : Cells 40 :=
  c.foldl (fun m e => cset zeroes m (blockBase b + e.1 % 4096) e.2) (cclear (blockBase b) (blockBase b + 4095) m)

/-- The Soundpost leases a block of the general store while STORE_TEST is set (R410); one block at a time, and none
while a block is retained. [log entry 81: DEDUCED] -/
def leaseStart (b : BitVec 9) (s : State) : State :=
  if s.lease.st ≠ .none ∨ b.toNat ≥ 496 ∨ !s.policy.storeTest ∨ !storeIsOn s then s
  else { s with lease := { block := b, st := .copy, retained := false }, shadow := [] }

/-- Every word has been copied to the shadow. -/
def leaseCopied (s : State) : State :=
  if s.lease.st = .copy then
    { s with lease := { s.lease with st := .redirect }, shadow := blockCells s.store s.lease.block }
  else s

/-- The block's test ends: a faulty block stays redirected. [log entries 81: DEDUCED; 114: DEDUCED] -/
def leaseTested (r : BlockTest) (s : State) : State :=
  if s.lease.st ≠ .redirect ∨ s.lease.retained then s
  else
    let s := logEvent s (logSource 0x0E 0) 0x0043 (if r.fault then stInternal else stOK)
      (BitVec.ofNat 24 (s.lease.block.toNat + 2 ^ 16 * r.margin.toNat))
    if r.fault then { s with lease := { s.lease with retained := true } } else { s with lease := { s.lease with st := .restore } }

/-- Every word has been copied back. -/
def leaseRestored (s : State) : State :=
  if s.lease.st = .restore then
    { s with lease := { s.lease with st := .none }, shadow := [], store := withBlock s.store s.lease.block s.shadow,
             storeErr := s.storeErr.filter (fun e => e.addr.toNat / 4096 != s.lease.block.toNat) }
  else s

/-! ### Meanings -/

def execDpRead (a : DAccess) (s : State) : Host.Outcome State Fault Refusal :=
  .next (dAccess a (fun _ => if dAddrBad a.addr.toNat then some stBadAddress else none) (dRead a a.addr.toNat) s)
def execDpWrite (a : DAccess) (s : State) : Host.Outcome State Fault Refusal :=
  .next (dAccess a (fun _ => firstFail [(a.lanes == 0, stBadDescriptor), (dAddrBad a.addr.toNat, stBadAddress)])
    (dWrite a a.addr.toNat) s)
def execDpFetchAdd (a : DAccess) (s : State) : Host.Outcome State Fault Refusal :=
  .next (dAccess a (fun _ => firstFail [(a.lanes != 0b11111, stBadDescriptor), (dAddrBad a.addr.toNat, stBadAddress)])
    (dAtomic a (fun old v => old + v)) s)
def execDpSwap (a : DAccess) (s : State) : Host.Outcome State Fault Refusal :=
  .next (dAccess a (fun _ => firstFail [(a.lanes != 0b11111, stBadDescriptor), (dAddrBad a.addr.toNat, stBadAddress)])
    (dAtomic a (fun _ v => v)) s)
def execDpRingAdvance (a : DAccess) (s : State) : Host.Outcome State Fault Refusal :=
  .next (dAccess a (fun s => match firstFail [(a.lanes != 0b11111, stBadDescriptor)] with
    | some st => some st
    | none => advanceBad s a.addr a.wdata) (dAdvance a) s)
def execDpWread (a : DAccess) (s : State) : Host.Outcome State Fault Refusal :=
  .next (dAccess a (fun s => dWindowBad s a false) (fun s => dRead a (headElem s (dWin a) (dOff a)) s) s)
def execDpWwrite (a : DAccess) (s : State) : Host.Outcome State Fault Refusal :=
  .next (dAccess a (fun s => dWindowBad s a true) (fun s => dWrite a (tailElem s (dWin a) (dOff a)) s) s)
def execStoreScrub (s : State) : Host.Outcome State Fault Refusal := .next (scrubRow s)
def execStoreScrubFast (s : State) : Host.Outcome State Fault Refusal := .next (setRegBits s 0x30000 2 2 1)
def execStoreClear (s : State) : Host.Outcome State Fault Refusal := .next (clearOnPower s)
def execWindowEnable (w : Fin 16) (value : Reg32) (s : State) : Host.Outcome State Fault Refusal :=
  .next (warned (winReg w 0x0C) (winCtrlWrite s w value))
def execStoreLeaseStart (block : BitVec 9) (s : State) : Host.Outcome State Fault Refusal := .next (leaseStart block s)
def execStoreLeaseCopyDone (s : State) : Host.Outcome State Fault Refusal := .next (leaseCopied s)
def execStoreLeaseTestDone (result : BlockTest) (s : State) : Host.Outcome State Fault Refusal := .next (leaseTested result s)
def execStoreLeaseRestoreDone (s : State) : Host.Outcome State Fault Refusal := .next (leaseRestored s)

end Sys2Proof.Machine
end

