-- ==== Sys2Proof/Machine/System.lean ====
section
/-! DEFINITION. Meanings of the system instructions (R154 to R159, R116) and of the events that end their waits. -/

namespace Sys2Proof.Machine

/-! ### Control items (R155) -/

/-- The item of a selector as GETCTL delivers it. -/
def controlItem (s : State) (b : Fin 16) (c : Ctx) (sel : Nat) : Word :=
  let k := ctx s b c
  match sel with
  | 0 => k.lk.setWidth 40
  | 1 => k.rc.setWidth 40
  | 2 => k.bf.setWidth 40
  | 3 => k.fpctl.setWidth 40
  | 4 => k.stackLo.setWidth 40
  | 5 => k.trapPc.setWidth 40
  | 6 => BitVec.ofNat 40 (k.trapCause.toNat + 256 * k.th.toNat)
  | 7 => k.lastStatus.setWidth 40
  | 8 => match c with
    | .n => 0
    | .u => 1
  | 9 => match (bow s b).group with
    | some r => BitVec.ofNat 40 (b.val + 16 * r.x0.toNat + 128 * r.y0.toNat + 1024 * (r.w - 1) + 8192 * (r.h - 1))
    | none => BitVec.ofNat 40 b.val
  | _ => s.epoch.extractLsb' 0 40

/-- SETCTL of a writable item; bits above the item's are ignored. -/
def setControlItem (k : Context) (sel : Nat) (v : Word) : Context :=
  match sel with
  | 0 => { k with lk := v.extractLsb' 0 13 }
  | 1 => { k with rc := v.extractLsb' 0 16 }
  | 2 => { k with bf := v.extractLsb' 0 10 }
  | 3 => { k with fpctl := v.extractLsb' 0 4 }
  | _ => { k with stackLo := v.extractLsb' 0 14 }

/-- Write an S register. -/
def writeS (s : State) (b : Fin 16) (c : Ctx) (n : Fin 16) (v : Word) : State :=
  let k := ctx s b c
  setCtx s b c { k with s := k.s.set n v }

/-- The S register number of an operand. -/
def sNum (o : BitVec 20) : Fin 16 := ⟨(o.extractLsb' 0 4).toNat, (o.extractLsb' 0 4).isLt⟩

/-! ### Requests of a bow (R156, R157) -/

/-- A destination operand whose address is resolved at issue. -/
def resolveDst (k : Context) (o : BitVec 20) : BitVec 20 :=
  if isMem o then BitVec.ofNat 20 (wordAddr k.a o).toNat else o

/-- Send a request and remember what its response does. -/
def askFor (x : Issue) (t : Nat) (p : Packet) (kind : AskKind) (s : State) : State :=
  let k := ctx s x.bow x.ctx
  let tag := askTag x.ctx k
  let s := setCtx s x.bow x.ctx { k with asks := k.asks ++ [{ tag, kind }], nextTag := askNum x.ctx k + 1 }
  inject s t { p with sdev := ownDev s, src := ident 1 x.bow.val, tag }

/-- A packet to an identity, with the fields that R156's instructions leave as they are. -/
def bowPacket (s : State) (dst : BitVec 12) (ddev : BitVec 3) (words addr arg : Nat) (data : List Word) : Packet :=
  { ddev, dst, sdev := ownDev s, src := 0, tag := 0, words := BitVec.ofNat 6 words, addr := BitVec.ofNat 21 addr,
    lanes := 0b11111, arg := BitVec.ofNat 6 arg, data, flits := half data.length, host := 0 }

/-- The load ask of an instruction. -/
def loadAsk (op : Nat) (x : Issue) (k : Context) : AskKind :=
  .load (resolveDst k x.dst) k.pc (encodeWord (BitVec.ofNat 8 op) x)

/-- A packet to the store: word address or window operand from src1, payload from src2 where there is one. -/
def storeAsk (op t arg : Nat) (payload : Bool) (post : Bool) (x : Issue) (s : State) : State :=
  let k := ctx s x.bow x.ctx
  let a := (sValue k x.src1).toNat % 2 ^ 21
  let data := if payload then [scalarRead s x.bow k x.src2] else []
  askFor x t (bowPacket s (ident 2 0) (ownDev s) 1 a arg data) (if post then .post else loadAsk op x k) s

/-- A register-access packet: offset, identity and device from src1 (R156). -/
def regAsk (op t : Nat) (write : Bool) (x : Issue) (s : State) : State :=
  let k := ctx s x.bow x.ctx
  let v := sValue k x.src1
  let dst := ident (v.extractLsb' 28 4).toNat (v.extractLsb' 16 8).toNat
  let data := if write then [scalarRead s x.bow k x.src2] else []
  askFor x t (bowPacket s dst (v.extractLsb' 32 3) 1 (v.extractLsb' 0 16).toNat write.toNat data)
    (if write then .post else loadAsk op x k) s

/-! ### SYNC, END and WAITPH -/

/-- SYNC once every acknowledgement has arrived (R157). -/
def syncFlags (k : Context) : Context :=
  { k with bf := putBf k.bf bfV k.ackBad.isSome, ackBad := none,
           lastStatus := match k.ackBad with | some st => st | none => k.lastStatus }

/-- The kernel of a context has ended: its completion is to be posted (R83). -/
def kernelDone (s : State) (b : Fin 16) (c : Ctx) : State :=
  let k := ctx s b c
  match k.job with
  | some j =>
    let w := bow s b
    let w := putCtx w c { k with wait := none, asks := k.asks.map orphan }
    leaveContext (setBow s b { w with ended := w.ended ++ [{ ctx := c, job := j, bf := k.bf, cause := if k.th then some k.trapCause else none }] }) b c
  | none => s

/-- A posted request is not acknowledged yet. -/
def postsOut (k : Context) : Bool := k.asks.any (fun a => a.kind == .post)

/-- END (R83, R159): pending deliveries complete, then the acknowledgements are awaited. [log entry 34: DEDUCED] -/
def endEffect (x : Issue) (s : State) : State :=
  let s := flushDeliveries s x.bow x.ctx
  let k := ctx s x.bow x.ctx
  if postsOut k then setCtx s x.bow x.ctx { k with run := .stalled, wait := some .ended }
  else kernelDone s x.bow x.ctx

/-- WAITPH (R158). -/
def waitPhase (x : Issue) (s : State) : State :=
  let k := ctx s x.bow x.ctx
  let target := sValue k x.src2
  let sel := immNat x.src1
  if reached (refValue s sel) target then advanceAt s x.bow x.ctx
  else setCtx s x.bow x.ctx { k with run := .stalled, wait := some (.phase (BitVec.ofNat 4 sel) target) }

/-- BRK (R159): a halt after the instruction where breakpoints are enabled, else trap SOFTWARE.
[log entry 32: DEDUCED] -/
def breakEffect (x : Issue) (s : State) : State :=
  if debugOpen s && (reg s 0x90000).getLsbD 1 then
    let pc := (ctx s x.bow x.ctx).pc.toNat
    haltBow (advanceAt s x.bow x.ctx) x.bow 5 0 pc
  else takeTrap s x.bow x.ctx (encodeWord 0xEF x) causeSoftware

/-- A context stalled in WAITPH resumes once its target is reached (R158). -/
def releasePhase (b : Fin 16) (c : Ctx) (s : State) : State :=
  let k := ctx s b c
  match k.wait with
  | some (.phase sel target) =>
    if (k.run == .stalled || k.run == .running) && reached (refValue s sel.toNat) target then
      let s := setCtx s b c (advance { k with run := .running, wait := none, stepping := false })
      if k.stepping then haltBow s b 2 0 (ctx s b c).pc.toNat else s
    else s
  | _ => s

/-- Post the completion of a kernel that has ended in a context (R83). -/
def postEnding (b : Fin 16) (c : Ctx) (s : State) : State :=
  let k := ctx s b c
  let s := if k.wait = some .ended ∧ !postsOut k ∧ k.run ≠ .halted then kernelDone s b c else s
  let w := bow s b
  match w.ended.find? (fun e => e.ctx == c) with
  | some e => completeEnding (setBow s b { w with ended := w.ended.erase e }) e
  | none => s

/-! ### Meanings -/

def execEndk (x : Issue) (s : State) : Host.Outcome State Fault Refusal :=
  .next (issueRaw 0xE0 x none (endEffect x) s)
def execGetctl (x : Issue) (s : State) : Host.Outcome State Fault Refusal :=
  .next (issue 0xE1 x (fun s => writeS s x.bow x.ctx (sNum x.dst) (controlItem s x.bow x.ctx (immNat x.src1))) s)
def execSetctl (x : Issue) (s : State) : Host.Outcome State Fault Refusal :=
  .next (issue 0xE2 x (fun s =>
    let k := ctx s x.bow x.ctx
    setCtx s x.bow x.ctx (setControlItem k (immNat x.src2) (scalarRead s x.bow k x.src1))) s)
def execGettw (x : Issue) (s : State) : Host.Outcome State Fault Refusal :=
  .next (issue 0xE3 x (fun s =>
    let w := (ctx s x.bow x.ctx).trapWord
    writeS (writeS s x.bow x.ctx (sNum x.dst) (w.extractLsb' 0 40)) x.bow x.ctx (sNum x.dst + 1) (w.extractLsb' 40 40)) s)
def execSync (x : Issue) (s : State) : Host.Outcome State Fault Refusal :=
  .next (issue 0xE4 x (fun s => setCtx s x.bow x.ctx (syncFlags (ctx s x.bow x.ctx))) s)
def execSld (x : Issue) (s : State) : Host.Outcome State Fault Refusal :=
  .next (issue 0xE5 x (storeAsk 0xE5 ptRd 0 false false x) s)
def execSst (x : Issue) (s : State) : Host.Outcome State Fault Refusal :=
  .next (issue 0xE6 x (storeAsk 0xE6 ptWr 1 true true x) s)
def execXfadd (x : Issue) (s : State) : Host.Outcome State Fault Refusal :=
  .next (issue 0xE7 x (storeAsk 0xE7 ptAtomic 0 true false x) s)
def execXswap (x : Issue) (s : State) : Host.Outcome State Fault Refusal :=
  .next (issue 0xE8 x (storeAsk 0xE8 ptAtomic 1 true false x) s)
def execXradv (x : Issue) (s : State) : Host.Outcome State Fault Refusal :=
  .next (issue 0xE9 x (storeAsk 0xE9 ptAtomic 2 true false x) s)
def execPrd (x : Issue) (s : State) : Host.Outcome State Fault Refusal :=
  .next (issue 0xEA x (regAsk 0xEA ptRegRd false x) s)
def execPwr (x : Issue) (s : State) : Host.Outcome State Fault Refusal :=
  .next (issue 0xEB x (regAsk 0xEB ptRegWr true x) s)
def execWaitph (x : Issue) (s : State) : Host.Outcome State Fault Refusal :=
  .next (issueRaw 0xEC x none (waitPhase x) s)
def execBrk (x : Issue) (s : State) : Host.Outcome State Fault Refusal :=
  .next (issueRaw 0xEF x none (breakEffect x) s)
def execWaitphRelease (bow : Fin 16) (ctx : Ctx) (s : State) : Host.Outcome State Fault Refusal :=
  .next (releasePhase bow ctx s)
def execKernelCompletion (bow : Fin 16) (ctx : Ctx) (s : State) : Host.Outcome State Fault Refusal :=
  .next (postEnding bow ctx s)

end Sys2Proof.Machine
end

