-- ==== Sys2Proof/Machine/Dispatch.lean ====
section
/-! DEFINITION. What each command does to everything but the queue: one arm for each row of the opcode table. -/

namespace Sys2Proof.Machine

def exec (i : Instr) (s : State) : Host.Outcome State Fault Refusal :=
  match i with
  | .add x => Sys2Proof.Machine.execAdd x s
  | .adc x => Sys2Proof.Machine.execAdc x s
  | .sub x => Sys2Proof.Machine.execSub x s
  | .sbc x => Sys2Proof.Machine.execSbc x s
  | .neg x => Sys2Proof.Machine.execNeg x s
  | .abs x => Sys2Proof.Machine.execAbs x s
  | .addss x => Sys2Proof.Machine.execAddss x s
  | .addus x => Sys2Proof.Machine.execAddus x s
  | .subss x => Sys2Proof.Machine.execSubss x s
  | .subus x => Sys2Proof.Machine.execSubus x s
  | .min x => Sys2Proof.Machine.execMin x s
  | .max x => Sys2Proof.Machine.execMax x s
  | .minu x => Sys2Proof.Machine.execMinu x s
  | .maxu x => Sys2Proof.Machine.execMaxu x s
  | .cmpeq x => Sys2Proof.Machine.execCmpeq x s
  | .cmpne x => Sys2Proof.Machine.execCmpne x s
  | .cmplt x => Sys2Proof.Machine.execCmplt x s
  | .cmple x => Sys2Proof.Machine.execCmple x s
  | .cmpltu x => Sys2Proof.Machine.execCmpltu x s
  | .cmpleu x => Sys2Proof.Machine.execCmpleu x s
  | .muli x => Sys2Proof.Machine.execMuli x s
  | .muliu x => Sys2Proof.Machine.execMuliu x s
  | .maci x => Sys2Proof.Machine.execMaci x s
  | .divi x => Sys2Proof.Machine.execDivi x s
  | .diviu x => Sys2Proof.Machine.execDiviu x s
  | .and x => Sys2Proof.Machine.execAnd x s
  | .or x => Sys2Proof.Machine.execOr x s
  | .xor x => Sys2Proof.Machine.execXor x s
  | .andn x => Sys2Proof.Machine.execAndn x s
  | .nand x => Sys2Proof.Machine.execNand x s
  | .nor x => Sys2Proof.Machine.execNor x s
  | .xnor x => Sys2Proof.Machine.execXnor x s
  | .not x => Sys2Proof.Machine.execNot x s
  | .shl x => Sys2Proof.Machine.execShl x s
  | .shr x => Sys2Proof.Machine.execShr x s
  | .sar x => Sys2Proof.Machine.execSar x s
  | .rol x => Sys2Proof.Machine.execRol x s
  | .ldlar x => Sys2Proof.Machine.execLdlar x s
  | .stlar x => Sys2Proof.Machine.execStlar x s
  | .ldc x => Sys2Proof.Machine.execLdc x s
  | .stc x => Sys2Proof.Machine.execStc x s
  | .ldx x => Sys2Proof.Machine.execLdx x s
  | .stx x => Sys2Proof.Machine.execStx x s
  | .fadd x => Sys2Proof.Machine.execFadd x s
  | .fsub x => Sys2Proof.Machine.execFsub x s
  | .fmul x => Sys2Proof.Machine.execFmul x s
  | .fdiv x => Sys2Proof.Machine.execFdiv x s
  | .fsqrt x => Sys2Proof.Machine.execFsqrt x s
  | .macf x => Sys2Proof.Machine.execMacf x s
  | .fneg x => Sys2Proof.Machine.execFneg x s
  | .fabs x => Sys2Proof.Machine.execFabs x s
  | .fmin x => Sys2Proof.Machine.execFmin x s
  | .fmax x => Sys2Proof.Machine.execFmax x s
  | .fcmpeq x => Sys2Proof.Machine.execFcmpeq x s
  | .fcmplt x => Sys2Proof.Machine.execFcmplt x s
  | .fcmple x => Sys2Proof.Machine.execFcmple x s
  | .fcmpun x => Sys2Proof.Machine.execFcmpun x s
  | .icvtf x => Sys2Proof.Machine.execIcvtf x s
  | .ucvtf x => Sys2Proof.Machine.execUcvtf x s
  | .fcvti x => Sys2Proof.Machine.execFcvti x s
  | .fcvtu x => Sys2Proof.Machine.execFcvtu x s
  | .f32cvt x => Sys2Proof.Machine.execF32cvt x s
  | .fcvt32 x => Sys2Proof.Machine.execFcvt32 x s
  | .f64cvt x => Sys2Proof.Machine.execF64cvt x s
  | .fcvt64 x => Sys2Proof.Machine.execFcvt64 x s
  | .frint x => Sys2Proof.Machine.execFrint x s
  | .move x => Sys2Proof.Machine.execMove x s
  | .sext x => Sys2Proof.Machine.execSext x s
  | .zext x => Sys2Proof.Machine.execZext x s
  | .getg x => Sys2Proof.Machine.execGetg x s
  | .testg x => Sys2Proof.Machine.execTestg x s
  | .getpe x => Sys2Proof.Machine.execGetpe x s
  | .getcount x => Sys2Proof.Machine.execGetcount x s
  | .getsum x => Sys2Proof.Machine.execGetsum x s
  | .getsums x => Sys2Proof.Machine.execGetsums x s
  | .stkor x => Sys2Proof.Machine.execStkor x s
  | .stkclr x => Sys2Proof.Machine.execStkclr x s
  | .sadd x => Sys2Proof.Machine.execSadd x s
  | .sadc x => Sys2Proof.Machine.execSadc x s
  | .ssub x => Sys2Proof.Machine.execSsub x s
  | .ssbc x => Sys2Proof.Machine.execSsbc x s
  | .sneg x => Sys2Proof.Machine.execSneg x s
  | .scmp x => Sys2Proof.Machine.execScmp x s
  | .sand x => Sys2Proof.Machine.execSand x s
  | .sor x => Sys2Proof.Machine.execSor x s
  | .sxor x => Sys2Proof.Machine.execSxor x s
  | .sandn x => Sys2Proof.Machine.execSandn x s
  | .snot x => Sys2Proof.Machine.execSnot x s
  | .stst x => Sys2Proof.Machine.execStst x s
  | .sshl x => Sys2Proof.Machine.execSshl x s
  | .sshr x => Sys2Proof.Machine.execSshr x s
  | .ssar x => Sys2Proof.Machine.execSsar x s
  | .srol x => Sys2Proof.Machine.execSrol x s
  | .smul x => Sys2Proof.Machine.execSmul x s
  | .smulh x => Sys2Proof.Machine.execSmulh x s
  | .smulhu x => Sys2Proof.Machine.execSmulhu x s
  | .sdiv x => Sys2Proof.Machine.execSdiv x s
  | .sdivu x => Sys2Proof.Machine.execSdivu x s
  | .srem x => Sys2Proof.Machine.execSrem x s
  | .sremu x => Sys2Proof.Machine.execSremu x s
  | .macs x => Sys2Proof.Machine.execMacs x s
  | .sfadd x => Sys2Proof.Machine.execSfadd x s
  | .sfsub x => Sys2Proof.Machine.execSfsub x s
  | .sfmul x => Sys2Proof.Machine.execSfmul x s
  | .sfdiv x => Sys2Proof.Machine.execSfdiv x s
  | .sfsqrt x => Sys2Proof.Machine.execSfsqrt x s
  | .sfcmp x => Sys2Proof.Machine.execSfcmp x s
  | .sfmin x => Sys2Proof.Machine.execSfmin x s
  | .sfmax x => Sys2Proof.Machine.execSfmax x s
  | .macsf x => Sys2Proof.Machine.execMacsf x s
  | .sfneg x => Sys2Proof.Machine.execSfneg x s
  | .sfabs x => Sys2Proof.Machine.execSfabs x s
  | .sfcvti x => Sys2Proof.Machine.execSfcvti x s
  | .sicvtf x => Sys2Proof.Machine.execSicvtf x s
  | .smov x => Sys2Proof.Machine.execSmov x s
  | .smovz x => Sys2Proof.Machine.execSmovz x s
  | .sins x => Sys2Proof.Machine.execSins x s
  | .push x => Sys2Proof.Machine.execPush x s
  | .pop x => Sys2Proof.Machine.execPop x s
  | .amov x => Sys2Proof.Machine.execAmov x s
  | .aadd x => Sys2Proof.Machine.execAadd x s
  | .acmp x => Sys2Proof.Machine.execAcmp x s
  | .a2s x => Sys2Proof.Machine.execA2s x s
  | .s2a x => Sys2Proof.Machine.execS2a x s
  | .br x => Sys2Proof.Machine.execBr x s
  | .brr x => Sys2Proof.Machine.execBrr x s
  | .call x => Sys2Proof.Machine.execCall x s
  | .callr x => Sys2Proof.Machine.execCallr x s
  | .ret x => Sys2Proof.Machine.execRet x s
  | .loop x => Sys2Proof.Machine.execLoop x s
  | .nop x => Sys2Proof.Machine.execNop x s
  | .rep x following => Sys2Proof.Machine.execRep x following s
  | .yield x => Sys2Proof.Machine.execYield x s
  | .trap x => Sys2Proof.Machine.execTrap x s
  | .rett x => Sys2Proof.Machine.execRett x s
  | .endk x => Sys2Proof.Machine.execEndk x s
  | .getctl x => Sys2Proof.Machine.execGetctl x s
  | .setctl x => Sys2Proof.Machine.execSetctl x s
  | .gettw x => Sys2Proof.Machine.execGettw x s
  | .sync x => Sys2Proof.Machine.execSync x s
  | .sld x => Sys2Proof.Machine.execSld x s
  | .sst x => Sys2Proof.Machine.execSst x s
  | .xfadd x => Sys2Proof.Machine.execXfadd x s
  | .xswap x => Sys2Proof.Machine.execXswap x s
  | .xradv x => Sys2Proof.Machine.execXradv x s
  | .prd x => Sys2Proof.Machine.execPrd x s
  | .pwr x => Sys2Proof.Machine.execPwr x s
  | .waitph x => Sys2Proof.Machine.execWaitph x s
  | .brk x => Sys2Proof.Machine.execBrk x s
  | .gDelivery bow ctx extra waited => Sys2Proof.Machine.execGDelivery bow ctx extra waited s
  | .getxDelivery bow ctx => Sys2Proof.Machine.execGetxDelivery bow ctx s
  | .istoreLineFill bow image line reads writes atomics => Sys2Proof.Machine.execIstoreLineFill bow image line reads writes atomics s
  | .preemption bow ac => Sys2Proof.Machine.execPreemption bow ac s
  | .urgentLaunch d => Sys2Proof.Machine.execUrgentLaunch d s
  | .kernelStart bow => Sys2Proof.Machine.execKernelStart bow s
  | .kernelCompletion bow ctx => Sys2Proof.Machine.execKernelCompletion bow ctx s
  | .deadlineExpiry bow => Sys2Proof.Machine.execDeadlineExpiry bow s
  | .stealAttempt bow => Sys2Proof.Machine.execStealAttempt bow s
  | .moverSteal mover => Sys2Proof.Machine.execMoverSteal mover s
  | .bowPowerDown bow => Sys2Proof.Machine.execBowPowerDown bow s
  | .bowPowerUp bow => Sys2Proof.Machine.execBowPowerUp bow s
  | .clockStep bow clock => Sys2Proof.Machine.execClockStep bow clock s
  | .cpStart course ch value ack => Sys2Proof.Machine.execCpStart course ch value ack s
  | .cpAbort course ch value ack => Sys2Proof.Machine.execCpAbort course ch value ack s
  | .cpPush p => Sys2Proof.Machine.execCpPush p s
  | .cpPlaneWrite course ch => Sys2Proof.Machine.execCpPlaneWrite course ch s
  | .cpCompletion course ch => Sys2Proof.Machine.execCpCompletion course ch s
  | .scrubPlane course => Sys2Proof.Machine.execScrubPlane course s
  | .scrubFastRequest course => Sys2Proof.Machine.execScrubFastRequest course s
  | .eccWriteback course => Sys2Proof.Machine.execEccWriteback course s
  | .hwMemoryClear course => Sys2Proof.Machine.execHwMemoryClear course s
  | .rd p meets => Sys2Proof.Machine.execRd p meets s
  | .wr p meets => Sys2Proof.Machine.execWr p meets s
  | .fetchAdd p meet => Sys2Proof.Machine.execFetchAdd p meet s
  | .swap p meet => Sys2Proof.Machine.execSwap p meet s
  | .ringAdvance p => Sys2Proof.Machine.execRingAdvance p s
  | .regRd p => Sys2Proof.Machine.execRegRd p s
  | .regWr p => Sys2Proof.Machine.execRegWr p s
  | .hostRd p reply => Sys2Proof.Machine.execHostRd p reply s
  | .hostWr p => Sys2Proof.Machine.execHostWr p s
  | .notify p => Sys2Proof.Machine.execNotify p s
  | .marker p => Sys2Proof.Machine.execMarker p s
  | .resp p nc => Sys2Proof.Machine.execResp p nc s
  | .dpRead a => Sys2Proof.Machine.execDpRead a s
  | .dpWrite a => Sys2Proof.Machine.execDpWrite a s
  | .dpFetchAdd a => Sys2Proof.Machine.execDpFetchAdd a s
  | .dpSwap a => Sys2Proof.Machine.execDpSwap a s
  | .dpRingAdvance a => Sys2Proof.Machine.execDpRingAdvance a s
  | .dpWread a => Sys2Proof.Machine.execDpWread a s
  | .dpWwrite a => Sys2Proof.Machine.execDpWwrite a s
  | .flitEccError router link replay => Sys2Proof.Machine.execFlitEccError router link replay s
  | .linkFailed router link => Sys2Proof.Machine.execLinkFailed router link s
  | .identityMove course dest => Sys2Proof.Machine.execIdentityMove course dest s
  | .domainClose d => Sys2Proof.Machine.execDomainClose d s
  | .closeTimeout d => Sys2Proof.Machine.execCloseTimeout d s
  | .niOpen node port => Sys2Proof.Machine.execNiOpen node port s
  | .nocReconfig d => Sys2Proof.Machine.execNocReconfig d s
  | .reconfigApply => Sys2Proof.Machine.execReconfigApply s
  | .reconfigTimeout => Sys2Proof.Machine.execReconfigTimeout s
  | .storeScrub => Sys2Proof.Machine.execStoreScrub s
  | .storeScrubFast => Sys2Proof.Machine.execStoreScrubFast s
  | .storeClear => Sys2Proof.Machine.execStoreClear s
  | .windowEnable w value => Sys2Proof.Machine.execWindowEnable w value s
  | .storeLeaseStart block => Sys2Proof.Machine.execStoreLeaseStart block s
  | .storeLeaseCopyDone => Sys2Proof.Machine.execStoreLeaseCopyDone s
  | .storeLeaseTestDone result => Sys2Proof.Machine.execStoreLeaseTestDone result s
  | .storeLeaseRestoreDone => Sys2Proof.Machine.execStoreLeaseRestoreDone s
  | .fabLoad d img => Sys2Proof.Machine.execFabLoad d img s
  | .fabApplyDone status => Sys2Proof.Machine.execFabApplyDone status s
  | .fabStart d => Sys2Proof.Machine.execFabStart d s
  | .fabSafeSet d => Sys2Proof.Machine.execFabSafeSet d s
  | .fabSnap d => Sys2Proof.Machine.execFabSnap d s
  | .fabSnapCapture => Sys2Proof.Machine.execFabSnapCapture s
  | .fabSnapReadbackDone => Sys2Proof.Machine.execFabSnapReadbackDone s
  | .fpResponseTimeout port src tag => Sys2Proof.Machine.execFpResponseTimeout port src tag s
  | .driveSample lane x => Sys2Proof.Machine.execDriveSample lane x s
  | .abortSample ch x => Sys2Proof.Machine.execAbortSample ch x s
  | .guardWindowRead ch => Sys2Proof.Machine.execGuardWindowRead ch s
  | .guardStale ch => Sys2Proof.Machine.execGuardStale ch s
  | .tbPllLock => Sys2Proof.Machine.execTbPllLock s
  | .lfClockFail => Sys2Proof.Machine.execLfClockFail s
  | .ppsEdge falling => Sys2Proof.Machine.execPpsEdge falling s
  | .ppsMissing => Sys2Proof.Machine.execPpsMissing s
  | .phrefEdge n a b => Sys2Proof.Machine.execPhrefEdge n a b s
  | .phrefZEdge n => Sys2Proof.Machine.execPhrefZEdge n s
  | .phrefStall n => Sys2Proof.Machine.execPhrefStall n s
  | .phrefModeWrite n value => Sys2Proof.Machine.execPhrefModeWrite n value s
  | .tbSchedArm d => Sys2Proof.Machine.execTbSchedArm d s
  | .tbSchedCancel d => Sys2Proof.Machine.execTbSchedCancel d s
  | .schedFire => Sys2Proof.Machine.execSchedFire s
  | .evPulseEnd line => Sys2Proof.Machine.execEvPulseEnd line s
  | .etTick t => Sys2Proof.Machine.execEtTick t s
  | .etCommit t reg hi => Sys2Proof.Machine.execEtCommit t reg hi s
  | .etCaptureRise t => Sys2Proof.Machine.execEtCaptureRise t s
  | .etCaptureFall t => Sys2Proof.Machine.execEtCaptureFall t s
  | .etLfStep t => Sys2Proof.Machine.execEtLfStep t s
  | .functionLevelReset => Sys2Proof.Machine.execFunctionLevelReset s
  | .perstNReset => Sys2Proof.Machine.execPerstNReset s
  | .hifWake value => Sys2Proof.Machine.execHifWake value s
  | .doorbellPoll ring pi entries => Sys2Proof.Machine.execDoorbellPoll ring pi entries s
  | .descriptorFetchFail ring why => Sys2Proof.Machine.execDescriptorFetchFail ring why s
  | .ringEnable kind n value => Sys2Proof.Machine.execRingEnable kind n value s
  | .setupLock => Sys2Proof.Machine.execSetupLock s
  | .kernel d => Sys2Proof.Machine.execKernel d s
  | .copy d => Sys2Proof.Machine.execCopy d s
  | .regRead d => Sys2Proof.Machine.execRegRead d s
  | .regWrite d => Sys2Proof.Machine.execRegWrite d s
  | .moverTransferDone mover status moved data => Sys2Proof.Machine.execMoverTransferDone mover status moved data s
  | .capoAssign d => Sys2Proof.Machine.execCapoAssign d s
  | .capoRelease d => Sys2Proof.Machine.execCapoRelease d s
  | .capoClock d => Sys2Proof.Machine.execCapoClock d s
  | .abort d => Sys2Proof.Machine.execAbort d s
  | .setupUnlock d => Sys2Proof.Machine.execSetupUnlock d s
  | .patchLoad d img => Sys2Proof.Machine.execPatchLoad d img s
  | .patchSwap bow => Sys2Proof.Machine.execPatchSwap bow s
  | .patchLoadTimeout => Sys2Proof.Machine.execPatchLoadTimeout s
  | .streamStart d => Sys2Proof.Machine.execStreamStart d s
  | .streamStop d => Sys2Proof.Machine.execStreamStop d s
  | .streamRecord ring consumer => Sys2Proof.Machine.execStreamRecord ring consumer s
  | .completionWrite cq consumer => Sys2Proof.Machine.execCompletionWrite cq consumer s
  | .irqModTimer stream ring => Sys2Proof.Machine.execIrqModTimer stream ring s
  | .startOutputs d => Sys2Proof.Machine.execStartOutputs d s
  | .revert d => Sys2Proof.Machine.execRevert d s
  | .restart d attempts => Sys2Proof.Machine.execRestart d attempts s
  | .slotErase d => Sys2Proof.Machine.execSlotErase d s
  | .slotWrite d => Sys2Proof.Machine.execSlotWrite d s
  | .slotVerify d img => Sys2Proof.Machine.execSlotVerify d img s
  | .slotActivate d => Sys2Proof.Machine.execSlotActivate d s
  | .rollbackCommit d => Sys2Proof.Machine.execRollbackCommit d s
  | .bootPolicy d => Sys2Proof.Machine.execBootPolicy d s
  | .ownerKeySet d => Sys2Proof.Machine.execOwnerKeySet d s
  | .lifecycle d sigOk => Sys2Proof.Machine.execLifecycle d sigOk s
  | .tamperCfg d => Sys2Proof.Machine.execTamperCfg d s
  | .tamperClear d detected sigOk => Sys2Proof.Machine.execTamperClear d detected sigOk s
  | .porRelease attempts fallback us => Sys2Proof.Machine.execPorRelease attempts fallback us s
  | .reset => Sys2Proof.Machine.execReset s
  | .tamperDetect src => Sys2Proof.Machine.execTamperDetect src s
  | .eraseEnd attempts => Sys2Proof.Machine.execEraseEnd attempts s
  | .modeSet d d3hot => Sys2Proof.Machine.execModeSet d d3hot s
  | .wake src reads => Sys2Proof.Machine.execWake src reads s
  | .sentinelExit d img => Sys2Proof.Machine.execSentinelExit d img s
  | .domainPowerDown d => Sys2Proof.Machine.execDomainPowerDown d s
  | .monitorSample x => Sys2Proof.Machine.execMonitorSample x s
  | .servicePolicy d => Sys2Proof.Machine.execServicePolicy d s
  | .migrate d => Sys2Proof.Machine.execMigrate d s
  | .migrationSwap => Sys2Proof.Machine.execMigrationSwap s
  | .courseLease p => Sys2Proof.Machine.execCourseLease p s
  | .testResult p pass margin => Sys2Proof.Machine.execTestResult p pass margin s
  | .fwSwitch d img ready => Sys2Proof.Machine.execFwSwitch d img ready s
  | .fwSwitchTimeout => Sys2Proof.Machine.execFwSwitchTimeout s
  | .guardChannel d => Sys2Proof.Machine.execGuardChannel d s
  | .guardLanes d => Sys2Proof.Machine.execGuardLanes d s
  | .guardAbort d => Sys2Proof.Machine.execGuardAbort d s
  | .guardResume d => Sys2Proof.Machine.execGuardResume d s
  | .guardRampEnd img => Sys2Proof.Machine.execGuardRampEnd img s
  | .logbookRead d => Sys2Proof.Machine.execLogbookRead d s
  | .brownoutWarning rail => Sys2Proof.Machine.execBrownoutWarning rail s
  | .brownoutClear rail => Sys2Proof.Machine.execBrownoutClear rail s
  | .launchHoldExpiry => Sys2Proof.Machine.execLaunchHoldExpiry s
  | .brownoutTimeout => Sys2Proof.Machine.execBrownoutTimeout s
  | .faultEscalation row => Sys2Proof.Machine.execFaultEscalation row s
  | .watchdogExpiry => Sys2Proof.Machine.execWatchdogExpiry s
  | .logbookCommit => Sys2Proof.Machine.execLogbookCommit s
  | .logbookSuppressed source event => Sys2Proof.Machine.execLogbookSuppressed source event s
  | .peerTrain link devnum ringSize reversed => Sys2Proof.Machine.execPeerTrain link devnum ringSize reversed s
  | .peerRetrainTimer link => Sys2Proof.Machine.execPeerRetrainTimer link s
  | .peerFrame link f => Sys2Proof.Machine.execPeerFrame link f s
  | .peerAckTimer link => Sys2Proof.Machine.execPeerAckTimer link s
  | .peerLinkFail link => Sys2Proof.Machine.execPeerLinkFail link s
  | .extest => Sys2Proof.Machine.execExtest s
  | .samplePreload => Sys2Proof.Machine.execSamplePreload s
  | .idcode => Sys2Proof.Machine.execIdcode s
  | .clamp => Sys2Proof.Machine.execClamp s
  | .highz => Sys2Proof.Machine.execHighz s
  | .extestPulse => Sys2Proof.Machine.execExtestPulse s
  | .extestTrain => Sys2Proof.Machine.execExtestTrain s
  | .bypass => Sys2Proof.Machine.execBypass s
  | .dapAccess op addr data => Sys2Proof.Machine.execDapAccess op addr data s
  | .bar4Access offset write => Sys2Proof.Machine.execBar4Access offset write s
  | .dbgHalt bows => Sys2Proof.Machine.execDbgHalt bows s
  | .dbgResume bows => Sys2Proof.Machine.execDbgResume bows s
  | .dbgStep bow ctx => Sys2Proof.Machine.execDbgStep bow ctx s
  | .dbgContextWrite bow hi value => Sys2Proof.Machine.execDbgContextWrite bow hi value s
  | .dbgUnlockCheck sigOk => Sys2Proof.Machine.execDbgUnlockCheck sigOk s
  | .dbgUnlockLock => Sys2Proof.Machine.execDbgUnlockLock s
  | .registerWrite place value full => Sys2Proof.Machine.execRegisterWrite place value full s
  | .waitphRelease bow ctx => Sys2Proof.Machine.execWaitphRelease bow ctx s
  | .lfClockRestored => Sys2Proof.Machine.execLfClockRestored s
  | .trstNAssert => Sys2Proof.Machine.execTrstNAssert s

end Sys2Proof.Machine
end

