-- ==== Sys2Proof/Machine/Tick.lean ====
section
/-! DEFINITION. The tick: what time does in every part of the block whatever is commanded. -/

namespace Sys2Proof.Machine

/-- The bows: the end of a patch swap, and a deferred clock step (R78, R212). [log entry 2: DESIGN CHOICE] -/
def bowTick (s : State) : State := (List.finRange 16).foldl (fun s b => settleClock (releaseSwap s b) b) s

/-- A tick of the empty queue: the timebase, the end of a wipe, the bows, the routers, a copier, a fabric load,
the readback of a snapshot, and the fabric. [log entry 2: DESIGN CHOICE] -/
def idleTick (s : State) : State :=
  let t := (List.finRange 16).foldl sendLines (bowTick (endClear (endWipe (timeTick s))))
  fabTick (noteTrigger (snapTick (loadTick (copyTick (networkTime (ncBetween s.epoch t.epoch) t)))))

end Sys2Proof.Machine
end

