-- ==== Sys2Proof/Safety.lean ====
section
/-! DEFINITION. What a safe run of the block is, and the conditions under which an instruction issues, in the terms the
claims use. -/

namespace Sys2Proof.Safety

open Sys2Proof.Machine

/-- A step that goes on: neither a fault nor a refusal. -/
def Goes (s : State) : Prop := ∃ t, step s = .next t

/-- The data memory and the branch histories of every bow list rising keys and no 0 (R60, R216). -/
def BowMemories (s : State) : Prop := ∀ b : Fin 16,
  cwf zeroes (bow s b).dmem = true ∧ cwf zeroes (bow s b).n.history = true ∧ cwf zeroes (bow s b).u.history = true

/-- Every memory of the state lists rising keys and no default value. -/
def Canonical (s : State) : Prop := Memory.wf s = true ∧ BowMemories s

/-- The issuing context holds a kernel and nothing suspends it: no open window, no halt, step or abort requested, no
breakpoint enabled or matched, no routine stopped at a yield point, no repetition, delivery or response outstanding (R60,
R72, R84, R106, R109, R202, R215, R437, R439). -/
structure Runs (x : Issue) (s : State) : Prop where
  run      : (ctx s x.bow x.ctx).run = .running ∨ (ctx s x.bow x.ctx).run = .stalled
  job      : (ctx s x.bow x.ctx).job.isSome = true
  wait     : (ctx s x.bow x.ctx).wait = none
  window   : (bow s x.bow).window = none
  halt     : (reg s 0x90004).getLsbD x.bow.val = false
  breaks   : (reg s 0x90000).getLsbD 0 = false
  hit      : (bow s x.bow).microHit = none
  micro    : (ctx s x.bow x.ctx).micro = none
  stepping : (ctx s x.bow x.ctx).stepping = false
  aborting : (ctx s x.bow x.ctx).aborting = false
  rep      : (ctx s x.bow x.ctx).rep = none
  deliver  : (ctx s x.bow x.ctx).deliveries = []
  gOut     : (ctx s x.bow x.ctx).gOut = []
  asks     : (ctx s x.bow x.ctx).asks = []

/-- The word holds the opcode of the instruction, its line is there and valid, no row of R115 stops it, its condition
holds and the data-memory words that it reads hold no error: it issues and has its effect. -/
structure Issues (op : Nat) (x : Issue) (s : State) : Prop extends Runs x s where
  opcode : opOf op x = op
  fields : ∃ sp, opSpec op = some sp ∧ fieldsOk op sp x = true
  there  : lineMissing (bow s x.bow) (ctx s x.bow x.ctx) = false
  line   : lineInvalid (bow s x.bow) (ctx s x.bow x.ctx) = false
  cond   : condHolds x.cond (ctx s x.bow x.ctx).bf = true
  value  : valueReserved op x (ctx s x.bow x.ctx) = false
  falls  : fallsOff op x (ctx s x.bow x.ctx) = false
  range  : rangeBad op x (bow s x.bow) (x.ctx == .u) (ctx s x.bow x.ctx) = false
  stack  : ∀ v, newA7 op x (ctx s x.bow x.ctx) = some v → (ctx s x.bow x.ctx).stackLo.toNat ≤ v.toNat
  ecc    : ∀ a ∈ dmemReads op x (ctx s x.bow x.ctx), ∀ e ∈ (bow s x.bow).dmemErr, e.addr.toNat ≠ a

/-- An array instruction that issues to the group `r` of its bow: a group within the grid, READY streams, no bit error
in the planes, no match register in use, and nothing that stops its routine at a yield point (R32, R50, R76, R202,
R206). -/
structure ArrayIssues (op : Nat) (x : Issue) (s : State) (r : Rect) : Prop extends Issues op x s where
  group   : (bow s x.bow).group = some r
  fits    : r.x0.toNat + r.w ≤ 8 ∧ r.y0.toNat + r.h ≤ 8 ∧ 1 ≤ r.w ∧ 1 ≤ r.h
  ports   : ∀ n ∈ portsOf op x, streamReady s r n = true
  clean   : s.peErr = []
  rom     : (bow s x.bow).patch.entries = []
  stays   : x.stop = none ∨ stopPending s x.bow x.ctx = false
  planes  : cwf zeroes s.pe = true

/-- The context once the slot of an instruction has begun (R89). -/
def begun (k : Context) : Context := { k with run := .running, bpSkip := false }

/-- The state once the slot of an instruction of a context has begun: the line it came from is the most recently used. -/
def slotBegun (s : State) (b : Fin 16) (c : Ctx) : State :=
  setBow s b (touchLine (putCtx (bow s b) c (begun (ctx s b c))) (begun (ctx s b c)))

/-- The state after a scalar destination `o` has received `v`, BF the value `bf`, and the PC its next value. -/
def scalarDone (x : Issue) (s : State) (v : Option Word) (bf : Bf) : State :=
  let s := slotBegun s x.bow x.ctx
  let t := match v with
    | some v => scalarWrite s x.bow x.ctx x.dst v
    | none => s
  let k := ctx t x.bow x.ctx
  setCtx t x.bow x.ctx { k with bf := bf, pc := k.pc + 1 }

/-- The state after the issuing context has become `k`, data memory as it was, and the PC its next value. -/
def contextDone (x : Issue) (s : State) (k : Context) : State :=
  setCtx (slotBegun s x.bow x.ctx) x.bow x.ctx { k with pc := k.pc + 1 }

end Sys2Proof.Safety
end

