-- ==== Sys2Proof/Certificates/Slice0/Obligations.lean ====
section
/-! DEFINITION. The statements about the model, for the provers. -/

namespace Sys2Proof.Claims

open Sys2Proof.Machine Sys2Proof.Safety

/-- The issuing context, and the words of the two source operands of a scalar instruction (R94, R98). -/
def self (x : Issue) (s : State) : Context := ctx s x.bow x.ctx
def wordA (x : Issue) (s : State) : Word := scalarRead s x.bow (self x s) x.src1
def wordB (x : Issue) (s : State) : Word := scalarRead s x.bow (self x s) x.src2

/-- The low w bits of a word, unsigned and signed (R93). -/
def lowOf (w : Nat) (v : Word) : Nat := v.toNat % 2 ^ w
def sgnOf (w : Nat) (v : Word) : Int := Int.bmod v.toNat (2 ^ w)

/-- A result of w bits extended by its sign, where it is given as the integer of that range. -/
def signed40 (r : Int) : Word := BitVec.ofInt 40 r

/-- BF with Z and N of an integer result, and with C and V written too (R60, R144). -/
def flagsZN (bf : Bf) (r : Int) : Bf := putBf (putBf bf bfZ (decide (r = 0))) bfN (decide (r < 0))
def flagsZNCV (bf : Bf) (r : Int) (c v : Bool) : Bf := putBf (putBf (flagsZN bf r) bfC c) bfV v

/-- Z and N of an unsigned result of w bits. -/
def flagsLow (bf : Bf) (w r : Nat) : Bf := putBf (putBf bf bfZ (decide (r = 0))) bfN (r.testBit (w - 1))

/-- BF.C as a number. -/
def carryIn (x : Issue) (s : State) : Nat := ((self x s).bf.getLsbD bfC).toNat

end Sys2Proof.Claims

open Sys2Proof Sys2Proof.Machine Sys2Proof.Safety Sys2Proof.Claims

/-! ### Scalar instructions -/

/-- R93, R144, R161: the sums and differences deliver the exact value mod 2^w, sign-extended; C is the carry out of bit
w − 1 (1 for no borrow), V tells that the exact value does not fit; SCMP writes the flags alone. Says where these
complete: SADD, SADC, SSUB, SSBC, SNEG, SCMP. -/
def Obligations.ScalarSums : Prop :=
  ∀ (x : Issue) (s : State),
    let w := widthOf x
    let a := wordA x s
    let b := wordB x s
    let c : Nat := carryIn x s
    let bf := (self x s).bf
    let sum := fun (v : Int) => Int.bmod v (2 ^ w)
    (Issues 0x80 x s → exec (.sadd x) s = .next (scalarDone x s (some (signed40 (sum (sgnOf w a + sgnOf w b))))
      (flagsZNCV bf (sum (sgnOf w a + sgnOf w b)) (decide (2 ^ w ≤ lowOf w a + lowOf w b))
        (decide (sum (sgnOf w a + sgnOf w b) ≠ sgnOf w a + sgnOf w b))))) ∧
    (Issues 0x81 x s → exec (.sadc x) s = .next (scalarDone x s (some (signed40 (sum (sgnOf w a + sgnOf w b + c))))
      (flagsZNCV bf (sum (sgnOf w a + sgnOf w b + c)) (decide (2 ^ w ≤ lowOf w a + lowOf w b + c))
        (decide (sum (sgnOf w a + sgnOf w b + c) ≠ sgnOf w a + sgnOf w b + c))))) ∧
    (Issues 0x82 x s → exec (.ssub x) s = .next (scalarDone x s (some (signed40 (sum (sgnOf w a - sgnOf w b))))
      (flagsZNCV bf (sum (sgnOf w a - sgnOf w b)) (decide (lowOf w b ≤ lowOf w a))
        (decide (sum (sgnOf w a - sgnOf w b) ≠ sgnOf w a - sgnOf w b))))) ∧
    (Issues 0x83 x s → exec (.ssbc x) s = .next (scalarDone x s (some (signed40 (sum (sgnOf w a - sgnOf w b - (1 - c)))))
      (flagsZNCV bf (sum (sgnOf w a - sgnOf w b - (1 - c))) (decide (lowOf w b + 1 ≤ lowOf w a + c))
        (decide (sum (sgnOf w a - sgnOf w b - (1 - c)) ≠ sgnOf w a - sgnOf w b - (1 - c)))))) ∧
    (Issues 0x84 x s → exec (.sneg x) s = .next (scalarDone x s (some (signed40 (sum (-sgnOf w a))))
      (flagsZNCV bf (sum (-sgnOf w a)) (decide (lowOf w a = 0)) (decide (sum (-sgnOf w a) ≠ -sgnOf w a))))) ∧
    (Issues 0x85 x s → exec (.scmp x) s = .next (scalarDone x s none
      (flagsZNCV bf (sum (sgnOf w a - sgnOf w b)) (decide (lowOf w b ≤ lowOf w a))
        (decide (sum (sgnOf w a - sgnOf w b) ≠ sgnOf w a - sgnOf w b)))))

/-- R143, R144: the logic instructions zero-extend their w-bit result and write Z and N; SMOV sign-extends, SMOVZ
zero-extends, STST writes the flags alone; SINS shifts a 16-bit immediate in and writes no flag. -/
def Sys2Proof.Claims.scalarLogic : Prop :=
  ∀ (x : Issue) (s : State),
    let w := widthOf x
    let a := wordA x s
    let b := wordB x s
    let bf := (self x s).bf
    let low := fun (v : Word) => BitVec.ofNat 40 (lowOf w v)
    let fl := fun (v : Word) => flagsLow bf w (lowOf w v)
    (Issues 0x86 x s → exec (.sand x) s = .next (scalarDone x s (some (low (a &&& b))) (fl (a &&& b)))) ∧
    (Issues 0x87 x s → exec (.sor x) s = .next (scalarDone x s (some (low (a ||| b))) (fl (a ||| b)))) ∧
    (Issues 0x88 x s → exec (.sxor x) s = .next (scalarDone x s (some (low (a ^^^ b))) (fl (a ^^^ b)))) ∧
    (Issues 0x89 x s → exec (.sandn x) s = .next (scalarDone x s (some (low (a &&& ~~~b))) (fl (a &&& ~~~b)))) ∧
    (Issues 0x8A x s → exec (.snot x) s = .next (scalarDone x s (some (low (~~~a))) (fl (~~~a)))) ∧
    (Issues 0x8B x s → exec (.stst x) s = .next (scalarDone x s none (fl (a &&& b)))) ∧
    (Issues 0xB0 x s → exec (.smov x) s = .next (scalarDone x s (some (signed40 (sgnOf w a))) (fl a))) ∧
    (Issues 0xB1 x s → exec (.smovz x) s = .next (scalarDone x s (some (low a)) (fl a))) ∧
    (Issues 0xB2 x s → exec (.sins x) s = .next (scalarDone x s
      (some ((sValue (self x s) x.dst <<< 16) ||| (fieldOf x.src1).setWidth 40)) bf))

/-- R144, R162: the shifts take bits [5:0] of the whole second operand; C is the last bit shifted out, 0 for an amount of
0, and for SSAR beyond w the sign; SROL rotates by the amount mod w and leaves C. -/
def Sys2Proof.Claims.scalarShifts : Prop :=
  ∀ (x : Issue) (s : State),
    let w := widthOf x
    let a := lowOf w (wordA x s)
    let n := (wordB x s).toNat % 64
    let bf := (self x s).bf
    let l := a * 2 ^ n % 2 ^ w
    let r := a / 2 ^ n
    let g := sgnOf w (wordA x s) / (2 ^ n : Nat)
    let rot := (a * 2 ^ (n % w) + a / 2 ^ (w - n % w)) % 2 ^ w
    (Issues 0x90 x s → exec (.sshl x) s = .next (scalarDone x s (some (BitVec.ofNat 40 l))
      (putBf (flagsLow bf w l) bfC (decide (1 ≤ n ∧ n ≤ w) && a.testBit (w - n))))) ∧
    (Issues 0x91 x s → exec (.sshr x) s = .next (scalarDone x s (some (BitVec.ofNat 40 r))
      (putBf (flagsLow bf w r) bfC (decide (1 ≤ n ∧ n ≤ w) && a.testBit (n - 1))))) ∧
    (Issues 0x92 x s → exec (.ssar x) s = .next (scalarDone x s (some (signed40 g))
      (putBf (flagsZN bf g) bfC (decide (1 ≤ n) && a.testBit (min n w - 1))))) ∧
    (Issues 0x93 x s → exec (.srol x) s = .next (scalarDone x s (some (BitVec.ofNat 40 rot)) (flagsLow bf w rot)))

/-- R144, R146, R147, R161, R163: products, quotients and remainders; a zero divisor delivers all ones and the dividend
and sets BF.DZ, the most negative value by −1 delivers itself and 0 and sets BF.V. Says where these complete: SMUL,
SMULH, SMULHU, SDIV, SDIVU, SREM, SREMU, MACS. -/
def Obligations.ScalarProducts : Prop :=
  ∀ (x : Issue) (s : State),
    let w := widthOf x
    let a := sgnOf w (wordA x s)
    let b := sgnOf w (wordB x s)
    let ua := lowOf w (wordA x s)
    let ub := lowOf w (wordB x s)
    let bf := (self x s).bf
    let q : Int := if b = 0 then -1 else Int.bmod (a.tdiv b) (2 ^ w)
    let r : Int := if b = 0 then a else a.tmod b
    let clipped := decide (b ≠ 0 ∧ Int.bmod (a.tdiv b) (2 ^ w) ≠ a.tdiv b)
    let uq := if ub = 0 then 2 ^ w - 1 else ua / ub
    let ur := if ub = 0 then ua else ua % ub
    let acc := sgnOf w (sValue (self x s) x.dst) + a * b
    (Issues 0x94 x s → exec (.smul x) s = .next (scalarDone x s (some (signed40 (Int.bmod (a * b) (2 ^ w))))
      (putBf (flagsZN bf (Int.bmod (a * b) (2 ^ w))) bfV (decide (Int.bmod (a * b) (2 ^ w) ≠ a * b))))) ∧
    (Issues 0x95 x s → exec (.smulh x) s = .next (scalarDone x s (some (signed40 (a * b / (2 ^ w : Nat))))
      (flagsZN bf (a * b / (2 ^ w : Nat))))) ∧
    (Issues 0x96 x s → exec (.smulhu x) s = .next (scalarDone x s (some (BitVec.ofNat 40 (ua * ub / 2 ^ w)))
      (flagsLow bf w (ua * ub / 2 ^ w)))) ∧
    (Issues 0x97 x s → exec (.sdiv x) s = .next (scalarDone x s (some (signed40 q))
      (raiseBf (putBf (flagsZN bf q) bfV clipped) bfDZ (decide (b = 0))))) ∧
    (Issues 0x98 x s → exec (.sdivu x) s = .next (scalarDone x s (some (BitVec.ofNat 40 uq))
      (raiseBf (flagsLow bf w uq) bfDZ (decide (ub = 0))))) ∧
    (Issues 0x99 x s → exec (.srem x) s = .next (scalarDone x s (some (signed40 r))
      (raiseBf (putBf (flagsZN bf r) bfV clipped) bfDZ (decide (b = 0))))) ∧
    (Issues 0x9A x s → exec (.sremu x) s = .next (scalarDone x s (some (BitVec.ofNat 40 ur))
      (raiseBf (flagsLow bf w ur) bfDZ (decide (ub = 0))))) ∧
    (Issues 0x9C x s → exec (.macs x) s = .next (scalarDone x s (some (signed40 (Int.bmod acc (2 ^ w))))
      (putBf (flagsZN bf (Int.bmod acc (2 ^ w))) bfV (decide (Int.bmod acc (2 ^ w) ≠ acc)))))

/-- R143, R144, R147, R148, R179, R180: the scalar FP40 instructions take FPCTL at issue, write the FP result and OR the
exceptions into the sticky bits of BF; SFCMP writes Z, N, C and V = 0. Says where these complete: SFADD, SFSUB,
SFMUL, SFDIV, SFSQRT, SFCMP, SFMIN, SFMAX, MACSF, SFNEG, SFABS, SFCVTI, SICVTF. -/
def Obligations.ScalarFloat : Prop :=
  ∀ (x : Issue) (s : State),
    let w := widthOf x
    let a := wordA x s
    let b := wordB x s
    let bf := (self x s).bf
    let c := fpCtlOf (self x s).fpctl
    let done := fun (r : Word × FFlags) => scalarDone x s (some r.1) (raiseFp bf r.2)
    let toI := fpToInt c (-(2 ^ (w - 1) : Nat)) ((2 ^ (w - 1) : Nat) - 1) a
    (Issues 0xA0 x s → exec (.sfadd x) s = .next (done (fpAdd c a b))) ∧
    (Issues 0xA1 x s → exec (.sfsub x) s = .next (done (fpSub c a b))) ∧
    (Issues 0xA2 x s → exec (.sfmul x) s = .next (done (fpMul c a b))) ∧
    (Issues 0xA3 x s → exec (.sfdiv x) s = .next (done (fpDiv c a b))) ∧
    (Issues 0xA4 x s → exec (.sfsqrt x) s = .next (done (fpSqrt c a))) ∧
    (Issues 0xA5 x s → exec (.sfcmp x) s = .next (scalarDone x s none
      (raiseFp (putBf (putBf (putBf (putBf bf bfZ (fpCompare 0 c a b).1) bfN (fpCompare 1 c a b).1) bfC
        (fpIsNaN (fpUnpack c a) || fpIsNaN (fpUnpack c b))) bfV false)
        (if fpIsSNaN (fpUnpack c a) || fpIsSNaN (fpUnpack c b) then flagIV else 0)))) ∧
    (Issues 0xA6 x s → exec (.sfmin x) s = .next (done (fpMinMax false c a b))) ∧
    (Issues 0xA7 x s → exec (.sfmax x) s = .next (done (fpMinMax true c a b))) ∧
    (Issues 0xA8 x s → exec (.macsf x) s = .next (done (fpMac c (sValue (self x s) x.dst) a b))) ∧
    (Issues 0xA9 x s → exec (.sfneg x) s = .next (done (fpSign false c a))) ∧
    (Issues 0xAA x s → exec (.sfabs x) s = .next (done (fpSign true c a))) ∧
    (Issues 0xAB x s → exec (.sfcvti x) s = .next (scalarDone x s (some (signed40 toI.1)) (raiseFp bf toI.2))) ∧
    (Issues 0xAC x s → exec (.sicvtf x) s = .next (done (intToFp c (sgnOf w a))))

/-- R95, R113, R149: the address registers wrap at 16 bits; PUSH decrements A7 and stores at the new A7, POP loads from
A7 and increments it; ACMP writes Z, N, C and V of the 16-bit difference. Says where these complete: PUSH, POP,
AMOV, AADD, ACMP, A2S, S2A. -/
def Obligations.AddressRegisters : Prop :=
  ∀ (x : Issue) (s : State),
    let k := self x s
    let d := x.dst.extractLsb' 0 3
    let aA := aValue k x.src1
    let aB := aValue k x.src2
    let diff := Int.bmod (aA.toNat - aB.toNat) (2 ^ 16)
    let k' := begun k
    (Issues 0xB4 x s → exec (.push x) s = .next (dmemWrite
      (contextDone x s (setA k' 7 (k.a[7] - 1))) x.bow (k.a[7] - 1).toNat (wordA x s))) ∧
    (Issues 0xB5 x s → modeOf x.dst = 5 → exec (.pop x) s = .next (contextDone x s
      (setA { k' with s := k.s.set (sNum x.dst) (cget zeroes (bow s x.bow).dmem k.a[7].toNat) } 7 (k.a[7] + 1)))) ∧
    (Issues 0xB5 x s → modeOf x.dst ≠ 5 → exec (.pop x) s = .next (dmemWrite
      (contextDone x s (setA k' 7 (k.a[7] + 1))) x.bow (wordAddr k.a x.dst).toNat
      (cget zeroes (bow s x.bow).dmem k.a[7].toNat))) ∧
    (Issues 0xB8 x s → exec (.amov x) s = .next (contextDone x s (setA k' d aA))) ∧
    (Issues 0xB9 x s → exec (.aadd x) s = .next (contextDone x s (setA k' d (aA + aB)))) ∧
    (Issues 0xBA x s → exec (.acmp x) s = .next (contextDone x s
      { k' with bf := flagsZNCV k.bf diff (decide (aB.toNat ≤ aA.toNat)) (decide (diff ≠ aA.toInt - aB.toInt)) })) ∧
    (Issues 0xBB x s → exec (.a2s x) s = .next (contextDone x s
      { k' with s := k.s.set (sNum x.dst) (aA.setWidth 40) })) ∧
    (Issues 0xBC x s → exec (.s2a x) s = .next (contextDone x s (setA k' d ((sValue k x.src1).extractLsb' 0 16))))

/-! ### Control flow and system instructions -/

namespace Sys2Proof.Claims

/-- The state after the issuing context has become `k` and stands at the target `t`. -/
def jumped (x : Issue) (s : State) (k : Context) (t : Nat) : State :=
  setCtx (slotBegun s x.bow x.ctx) x.bow x.ctx { k with pc := BitVec.ofNat 13 t }

/-- The trap registers of a context that has trapped on the word `word` with a cause, at the trap's entry (R69, R70). -/
def trapped (k : Context) (word : IWord) (cause : BitVec 8) : Context :=
  { k with run := .running, trapPc := k.pc, trapWord := word, trapCause := cause, th := true, pc := cause.setWidth 13 * 2 }

/-- The items of the GETCTL selectors 0 to 10 (R155). -/
def controlItems (x : Issue) (s : State) : List Word :=
  let k := self x s
  let group : Nat := match (bow s x.bow).group with
    | some r => 16 * r.x0.toNat + 128 * r.y0.toNat + 1024 * (r.w - 1) + 8192 * (r.h - 1)
    | none => 0
  [k.lk.setWidth 40, k.rc.setWidth 40, k.bf.setWidth 40, k.fpctl.setWidth 40, k.stackLo.setWidth 40, k.trapPc.setWidth 40,
   BitVec.ofNat 40 (k.trapCause.toNat + 256 * k.th.toNat), k.lastStatus.setWidth 40, (if x.ctx = .n then 0 else 1),
   BitVec.ofNat 40 (x.bow.val + group), s.epoch.extractLsb' 0 40]

/-- A packet of a bow: its context's next TAG, one word, all lanes (R156). -/
def bowRequest (x : Issue) (s : State) (dst : BitVec 12) (ddev : BitVec 3) (addr arg : Nat) (data : List Word) : Packet :=
  { ddev, dst, sdev := ownDev s, src := ident 1 x.bow.val, tag := askTag x.ctx (self x s), words := 1,
    addr := BitVec.ofNat 21 addr, lanes := 0b11111, arg := BitVec.ofNat 6 arg, data, flits := half data.length, host := 0 }

/-- The instruction has sent a packet and remembers what its response does. -/
def hasAsked (x : Issue) (s t : State) (type : Nat) (p : Packet) (kind : AskKind) : Prop :=
  ctx t x.bow x.ctx = { begun (self x s) with
    asks := [{ tag := askTag x.ctx (self x s), kind }], nextTag := (self x s).nextTag + 1, pc := (self x s).pc + 1 } ∧
  t.flight = (inject s type p).flight ∧ t.heldBack = (inject s type p).heldBack ∧ t.regs = (inject s type p).regs ∧
  (bow t x.bow).dmem = (bow s x.bow).dmem ∧ t.store = s.store ∧ t.pe = s.pe

end Sys2Proof.Claims

/-- R105, R111, R112, R150, R151, R153, R216: branches that are taken, calls, returns, LOOP, REP, NOP and YIELD, which
lets a waiting urgent launch take the bow. Says where these complete: BR, BRR, CALL, CALLR, RET, LOOP, NOP, REP,
YIELD. -/
def Obligations.ControlFlow : Prop :=
  ∀ (x : Issue) (s : State) (f : IWord),
    let k := self x s
    let k' := begun k
    let imm := (fieldOf x.src1).toNat
    let d := x.dst.extractLsb' 0 3
    let n : BitVec 16 := if modeOf x.src1 = 6 then fieldOf x.src1 else (sValue k x.src1).extractLsb' 0 16
    let slot := k.pc.toNat % 128
    let hist := cset zeroes k.history slot (newHistory (cget zeroes k.history slot) (x.hint = 1) true)
    (Issues 0xC0 x s → x.cond ≠ 0xE → x.cond ≠ 0xF → exec (.br x) s = .next (jumped x s k' imm)) ∧
    (Issues 0xC0 x s → (x.cond = 0xE ∨ x.cond = 0xF) → exec (.br x) s = .next (jumped x s { k' with history := hist } imm)) ∧
    (Issues 0xC0 { x with cond := 0 } s → (x.cond = 0xE ∨ x.cond = 0xF) → condHolds x.cond k.bf = false → k.pc ≠ 0x1FFF →
      exec (.br x) s = .next (contextDone x s { k' with
        history := cset zeroes k.history slot (newHistory (cget zeroes k.history slot) (x.hint = 1) false) })) ∧
    (Issues 0xC1 x s → exec (.brr x) s = .next (jumped x s k' (sValue k x.src1).toNat)) ∧
    (Issues 0xC2 x s → exec (.call x) s = .next (jumped x s { k' with lk := k.pc + 1 } imm)) ∧
    (Issues 0xC3 x s → exec (.callr x) s = .next (jumped x s { k' with lk := k.pc + 1 } (sValue k x.src1).toNat)) ∧
    (Issues 0xC4 x s → exec (.ret x) s = .next (jumped x s k' k.lk.toNat)) ∧
    (Issues 0xC5 x s → exec (.loop x) s = .next (if aValue k x.dst - 1 = 0 then contextDone x s (setA k' d 0)
      else jumped x s (setA k' d (aValue k x.dst - 1)) imm)) ∧
    (Issues 0xC6 x s → exec (.nop x) s = .next (contextDone x s k')) ∧
    (Issues 0xC8 x s → repFollowBad f = false → exec (.rep x f) s = .next (contextDone x s
      { k' with rc := n, rep := some { pc := k.pc + 1, left := n, intr := x.dst.getLsbD 0 } })) ∧
    (Issues 0xCC x s → (x.ctx = .u ∨ (bow s x.bow).launches = []) → exec (.yield x) s = .next (contextDone x s k')) ∧
    (∀ j rest, Issues 0xCC x s → x.ctx = .n → (bow s x.bow).launches = j :: rest →
      (∀ q ∈ (bow s x.bow).launches, expired s q.desc = false) → (bow s x.bow).powered = true → (bow s x.bow).u.job = none →
      (bow s x.bow).swapEnd = none → haltedBow s x.bow = false → s.brown.hold = false →
      ∃ t, exec (.yield x) s = .next t ∧ (bow t x.bow).n = { k' with pc := k.pc + 1, run := .preempted } ∧
        (bow t x.bow).u.job = some j ∧ (bow t x.bow).u.run = .running ∧ (bow t x.bow).launches = rest)

/-- R69, R70, R152, R159: TRAP and, with its halt disabled, BRK take trap SOFTWARE; RETT clears TH and resumes at
TRAPPC, or past it with immediate 1. Says where these complete: TRAP, BRK, RETT. -/
def Obligations.TrapsAndReturns : Prop :=
  ∀ (x : Issue) (s : State),
    let k := self x s
    let k' := begun k
    let at' := fun (k : Context) => setCtx (slotBegun s x.bow x.ctx) x.bow x.ctx k
    (Issues 0xCE x s → k.th = false → exec (.trap x) s = .next (at' (trapped k' (encodeWord 0xCE x) 7))) ∧
    (Issues 0xEF x s → k.th = false → (debugOpen s = false ∨ (reg s 0x90000).getLsbD 1 = false) →
      exec (.brk x) s = .next (at' (trapped k' (encodeWord 0xEF x) 7))) ∧
    (Issues 0xCF x s → exec (.rett x) s = .next (at' { k' with
      th := false, pc := if fieldOf x.src1 = 1 then k.trapPc + 1 else k.trapPc }))

/-- R154, R155, R157, R158, R116: the control items are read and written, GETTW delivers the trapped word in two halves,
SYNC with nothing outstanding reports the acknowledgements in BF.V, and WAITPH waits until its target is reached. -/
def Sys2Proof.Claims.systemControl : Prop :=
  ∀ (x : Issue) (s : State),
    let k := self x s
    let k' := begun k
    let sel := (fieldOf x.src2).toNat
    let v := scalarRead s x.bow k x.src1
    let ph := (fieldOf x.src1).toNat
    let target := sValue k x.src2
    let d1 : Fin 16 := sNum x.dst + 1
    (Issues 0xE1 x s → exec (.getctl x) s = .next (contextDone x s
      { k' with s := k.s.set (sNum x.dst) ((controlItems x s).getD (fieldOf x.src1).toNat 0) })) ∧
    (Issues 0xE2 x s → sel = 0 → exec (.setctl x) s = .next (contextDone x s { k' with lk := v.extractLsb' 0 13 })) ∧
    (Issues 0xE2 x s → sel = 1 → exec (.setctl x) s = .next (contextDone x s { k' with rc := v.extractLsb' 0 16 })) ∧
    (Issues 0xE2 x s → sel = 2 → exec (.setctl x) s = .next (contextDone x s { k' with bf := v.extractLsb' 0 10 })) ∧
    (Issues 0xE2 x s → sel = 3 → exec (.setctl x) s = .next (contextDone x s { k' with fpctl := v.extractLsb' 0 4 })) ∧
    (Issues 0xE2 x s → sel = 4 → exec (.setctl x) s = .next (contextDone x s { k' with stackLo := v.extractLsb' 0 14 })) ∧
    (Issues 0xE3 x s → exec (.gettw x) s = .next (contextDone x s { k' with
      s := (k.s.set (sNum x.dst) (k.trapWord.extractLsb' 0 40)).set d1 (k.trapWord.extractLsb' 40 40) })) ∧
    (Issues 0xE4 x s → exec (.sync x) s = .next (contextDone x s { k' with
      bf := putBf k.bf bfV k.ackBad.isSome, ackBad := none, lastStatus := k.ackBad.getD k.lastStatus })) ∧
    (Issues 0xEC x s → reached (refValue s ph) target = true → exec (.waitph x) s = .next (contextDone x s k')) ∧
    (Issues 0xEC x s → reached (refValue s ph) target = false → exec (.waitph x) s = .next (setCtx (slotBegun s x.bow x.ctx)
      x.bow x.ctx { k' with run := .stalled, wait := some (.phase (BitVec.ofNat 4 ph) target) }))

/-- R156, R157: each request of a bow goes out as the packet of its instruction, with the operands it names, and the
context remembers what the response does: fill the destination operand, or count an acknowledgement. -/
def Sys2Proof.Claims.systemRequests : Prop :=
  ∀ (x : Issue) (s : State),
    let k := self x s
    let a := (sValue k x.src1).toNat % 2 ^ 21
    let v := sValue k x.src1
    let data := [scalarRead s x.bow k x.src2]
    let load := fun (op : Nat) => AskKind.load (resolveDst k x.dst) k.pc (encodeWord (BitVec.ofNat 8 op) x)
    let store := fun (arg : Nat) (d : List Word) => bowRequest x s 0x200 (ownDev s) a arg d
    let regp := fun (arg : Nat) (d : List Word) => bowRequest x s (v.extractLsb' 28 4 ++ v.extractLsb' 16 8)
      (v.extractLsb' 32 3) (v.extractLsb' 0 16).toNat arg d
    (Issues 0xE5 x s → ∃ t, exec (.sld x) s = .next t ∧ hasAsked x s t 0 (store 0 []) (load 0xE5)) ∧
    (Issues 0xE6 x s → ∃ t, exec (.sst x) s = .next t ∧ hasAsked x s t 1 (store 1 data) .post) ∧
    (Issues 0xE7 x s → ∃ t, exec (.xfadd x) s = .next t ∧ hasAsked x s t 2 (store 0 data) (load 0xE7)) ∧
    (Issues 0xE8 x s → ∃ t, exec (.xswap x) s = .next t ∧ hasAsked x s t 2 (store 1 data) (load 0xE8)) ∧
    (Issues 0xE9 x s → ∃ t, exec (.xradv x) s = .next t ∧ hasAsked x s t 2 (store 2 data) (load 0xE9)) ∧
    (Issues 0xEA x s → ∃ t, exec (.prd x) s = .next t ∧ hasAsked x s t 3 (regp 0 []) (load 0xEA)) ∧
    (Issues 0xEB x s → ∃ t, exec (.pwr x) s = .next t ∧ hasAsked x s t 4 (regp 1 data) .post)

/-- R71, R83, R159: END ends its kernel: the context is free, and the completion, with the kernel's BF and, from a
handler, the cause of its trap, is to be posted. Says where these complete: END. -/
def Obligations.KernelEnds : Prop :=
  ∀ (x : Issue) (s : State) (j : Job), Issues 0xE0 x s → (self x s).job = some j → (bow s x.bow).launches = [] →
    let cause := if (self x s).th then some (self x s).trapCause else none
    ∃ t, exec (.endk x) s = .next t ∧ (ctx t x.bow x.ctx).job = none ∧ (ctx t x.bow x.ctx).run = .idle ∧
      (bow t x.bow).ended = (bow s x.bow).ended ++ [{ ctx := x.ctx, job := j, bf := (self x s).bf, cause }] ∧
      t.store = s.store ∧ t.accepted = s.accepted

/-! ### Array instructions -/

namespace Sys2Proof.Claims

/-- Bit of PE p at a key of the planes and flags. -/
def peBit (pe : Cells 65536) (key p : Nat) : Bool := (cget zeroes pe key).getLsbD p

/-- PE p is enabled for the instruction (R26). -/
def peOn (x : Issue) (s : State) (r : Rect) (p : Nat) : Bool := (enableOf x s.pe (groupMask r)).getLsbD p

/-- The low n bits that PE p reads from the first or the second source, before anything is written (R94 to R98). -/
def srcA (op : Nat) (x : Issue) (s : State) (r : Rect) (n p : Nat) : Nat :=
  valueAt (readAll (argsOf op x r s).env (argsOf op x r s).s1 n) p
def srcB (op : Nat) (x : Issue) (s : State) (r : Rect) (n p : Nat) : Nat :=
  valueAt (readAll (argsOf op x r s).env (argsOf op x r s).s2 n) p

/-- The low n bits that PE p holds at the destination. -/
def dstVal (x : Issue) (s : State) (n p : Nat) : Nat :=
  match dstOf (self x s) x.dst with
  | .planes b => valueAt ((List.range n).map (fun i => cget zeroes s.pe (b + i))) p
  | _ => 0

/-- No source bit is read after the destination plane it stands in has been written: bit `idx i` is read in array cycle
i, bit j of the destination is written in cycle j + 1 (R29, R102, R188). -/
def unhurt (op : Nat) (x : Issue) (s : State) (r : Rect) (n : Nat) (idx : Nat → Option Nat) : Prop :=
  ∀ b, dstOf (self x s) x.dst = .planes b → ∀ i j q, i < n → j + 2 ≤ i → idx i = some q →
    ∀ src ∈ [(argsOf op x r s).s1, (argsOf op x r s).s2],
      match src with
      | .mem a => a + q ≠ b + j
      | .link _ _ a => a + q ≠ b + j
      | .indirect off => ∀ pl ∈ (argsOf op x r s).env.lars, (pl.2 + off + q) % 16384 ≠ b + j
      | _ => True

/-- What an instruction writes: n bits of `v` at its destination (bit 0 alone for a flag, nothing for F0), C and X where
given, and exceptions ORed into the sticky flags (R23, R98, R172). -/
def fieldWrites (x : Issue) (s : State) (n : Nat) (v : Nat → Nat) (c xf : Nat → Option Bool) (sticky : Nat → Nat → Bool)
    (key p : Nat) : Option Bool :=
  if key = keyC then c p
  else if key = keyX then xf p
  else if keySticky 0 ≤ key ∧ key ≤ keySticky 4 then some (peBit s.pe key p || sticky (key - keySticky 0) p)
  else match dstOf (self x s) x.dst with
    | .planes b => if b ≤ key ∧ key < b + n then some ((v p).testBit (key - b)) else none
    | .flag k => if k ≠ 0 ∧ key = keyF k then some ((v p).testBit 0) else none
    | .none => none

/-- After the instruction every enabled PE holds what was written, and every other bit of every PE is as it was, but for the
working bit O, which is not architectural (R193). -/
def peAfter (x : Issue) (s : State) (r : Rect) (t : State) (w : Nat → Nat → Option Bool) : Prop :=
  ∀ key p, p < 65536 → key ≠ keyO → key ≠ keyOLost →
    peBit t.pe key p = if peOn x s r p then (w key p).getD (peBit s.pe key p) else peBit s.pe key p

/-- The PC has advanced, the READY banks used are released (R50), and nothing but the planes has changed otherwise. -/
def arrayDone (op : Nat) (x : Issue) (s : State) (r : Rect) (t : State) : Prop :=
  t = { contextDone x s (begun (self x s)) with pe := t.pe, courses := (releaseBanks op x r s).courses }

/-- An instruction leaves these results. -/
def leaves (op : Nat) (x : Issue) (s : State) (r : Rect) (o : Host.Outcome State Fault Refusal) (n : Nat) (v : Nat → Nat)
    (c xf : Nat → Option Bool) (sticky : Nat → Nat → Bool) : Prop :=
  ∃ t, o = .next t ∧ arrayDone op x s r t ∧ peAfter x s r t (fieldWrites x s n v c xf sticky)

/-- The same of an instruction with early-out, which counts what it saved in BOW_EO_SAVED and BOW_EO_INSNS (R230, R231). -/
def leavesEarly (op : Nat) (x : Issue) (s : State) (r : Rect) (o : Host.Outcome State Fault Refusal) (n : Nat) (v : Nat → Nat)
    (sticky : Nat → Nat → Bool) : Prop :=
  ∃ t, o = .next t ∧ arrayDone op x s r { t with regs := s.regs } ∧
    peAfter x s r t (fieldWrites x s n v (fun _ => some false) (fun _ => some false) sticky) ∧
    ∀ q, q ≠ bowReg x.bow 0x0D8 → q ≠ bowReg x.bow 0x0E0 → q ≠ bowReg x.bow 0x0E4 → reg t q = reg s q

def noFlag : Nat → Option Bool := fun _ => none
def noSticky : Nat → Nat → Bool := fun _ _ => false
def zeroFlag : Nat → Option Bool := fun _ => some false

/-- The low w bits of a natural number read as signed. -/
def sgnNat (w v : Nat) : Int := Int.bmod v (2 ^ w)

/-- An integer lies outside w signed bits. -/
def wide (w : Nat) (v : Int) : Bool := decide (Int.bmod v (2 ^ w) ≠ v)

/-- The w-bit field of an integer. -/
def fieldOfInt (w : Nat) (v : Int) : Nat := (v % (2 ^ w : Nat)).toNat

end Sys2Proof.Claims

/-- R122, R123, R161: ADD, ADC, SUB, SBC and NEG leave the exact value mod 2^w, the carry out of bit w − 1 in C (1 for no
borrow) and signed overflow in X, in the enabled PEs; ABS leaves the magnitude mod 2^w, its bit w − 1 in X, and C = 0. -/
def Sys2Proof.Claims.arraySums : Prop :=
  ∀ (x : Issue) (s : State) (r : Rect),
    let w := widthOf x
    let ok := fun (op : Nat) => ArrayIssues op x s r ∧ unhurt op x s r w some
    let sum := fun (op : Nat) (o : Host.Outcome State Fault Refusal) (v : Nat → Int) (c : Nat → Bool) =>
      leaves op x s r o w (fun p => fieldOfInt w (v p)) (fun p => some (c p)) (fun p => some (wide w (v p))) noSticky
    let a := fun (op p : Nat) => srcA op x s r w p
    let b := fun (op p : Nat) => srcB op x s r w p
    let c0 := fun (p : Nat) => (peBit s.pe keyC p).toNat
    (ok 0x00 → sum 0x00 (exec (.add x) s) (fun p => sgnNat w (a 0 p) + sgnNat w (b 0 p))
      (fun p => decide (2 ^ w ≤ a 0 p + b 0 p))) ∧
    (ok 0x01 → sum 0x01 (exec (.adc x) s) (fun p => sgnNat w (a 1 p) + sgnNat w (b 1 p) + c0 p)
      (fun p => decide (2 ^ w ≤ a 1 p + b 1 p + c0 p))) ∧
    (ok 0x02 → sum 0x02 (exec (.sub x) s) (fun p => sgnNat w (a 2 p) - sgnNat w (b 2 p)) (fun p => decide (b 2 p ≤ a 2 p))) ∧
    (ok 0x03 → sum 0x03 (exec (.sbc x) s) (fun p => sgnNat w (a 3 p) - sgnNat w (b 3 p) - (1 - (c0 p : Int)))
      (fun p => decide (b 3 p + 1 ≤ a 3 p + c0 p))) ∧
    (ok 0x04 → sum 0x04 (exec (.neg x) s) (fun p => -sgnNat w (a 4 p)) (fun p => decide (a 4 p = 0))) ∧
    (ok 0x05 → leaves 0x05 x s r (exec (.abs x) s) w (fun p => (sgnNat w (a 5 p)).natAbs) zeroFlag
      (fun p => some (decide (sgnNat w (a 5 p) = -(2 ^ (w - 1) : Nat)))) noSticky)

/-- R124, R161: the saturating forms deliver the nearest value of the range, tell in X that they clamped, and clear C. -/
def Sys2Proof.Claims.arraySaturating : Prop :=
  ∀ (x : Issue) (s : State) (r : Rect),
    let w := widthOf x
    let ok := fun (op : Nat) => ArrayIssues op x s r ∧ unhurt op x s r w some
    let lo : Int := -(2 ^ (w - 1) : Nat)
    let hi : Int := (2 ^ (w - 1) : Nat) - 1
    let top : Int := (2 ^ w : Nat) - 1
    let sa := fun (op p : Nat) => sgnNat w (srcA op x s r w p)
    let sb := fun (op p : Nat) => sgnNat w (srcB op x s r w p)
    let ua := fun (op p : Nat) => (srcA op x s r w p : Int)
    let ub := fun (op p : Nat) => (srcB op x s r w p : Int)
    let sat := fun (op : Nat) (o : Host.Outcome State Fault Refusal) (l h : Int) (v : Nat → Int) =>
      leaves op x s r o w (fun p => fieldOfInt w (max l (min h (v p)))) zeroFlag
        (fun p => some (decide (max l (min h (v p)) ≠ v p))) noSticky
    (ok 0x06 → sat 0x06 (exec (.addss x) s) lo hi (fun p => sa 6 p + sb 6 p)) ∧
    (ok 0x07 → sat 0x07 (exec (.addus x) s) 0 top (fun p => ua 7 p + ub 7 p)) ∧
    (ok 0x08 → sat 0x08 (exec (.subss x) s) lo hi (fun p => sa 8 p - sb 8 p)) ∧
    (ok 0x09 → sat 0x09 (exec (.subus x) s) 0 top (fun p => ua 9 p - ub 9 p))

/-- R125: the compares write one bit, to a plane or a flag; MIN to MAXU copy the chosen source. C becomes 1 exactly when
src1 is not below src2 as unsigned numbers; X is 1 for signed overflow of the difference (compares) or where src2 is
taken (MIN to MAXU). Says where these complete: CMPEQ, CMPNE, CMPLT, CMPLE, CMPLTU, CMPLEU, MIN, MAX, MINU, MAXU. -/
def Obligations.ArrayCompares : Prop :=
  ∀ (x : Issue) (s : State) (r : Rect),
    let w := widthOf x
    let ok := fun (op : Nat) => ArrayIssues op x s r
    let ua := fun (op p : Nat) => srcA op x s r w p
    let ub := fun (op p : Nat) => srcB op x s r w p
    let sa := fun (op p : Nat) => sgnNat w (ua op p)
    let sb := fun (op p : Nat) => sgnNat w (ub op p)
    let noBorrow := fun (op p : Nat) => some (decide (ub op p ≤ ua op p))
    let cmp := fun (op : Nat) (o : Host.Outcome State Fault Refusal) (v : Nat → Bool) =>
      leaves op x s r o 1 (fun p => (v p).toNat) (noBorrow op) (fun p => some (wide w (sa op p - sb op p))) noSticky
    let pick := fun (op : Nat) (o : Host.Outcome State Fault Refusal) (second : Nat → Bool) =>
      leaves op x s r o w (fun p => if second p then ub op p else ua op p) (noBorrow op) (fun p => some (second p)) noSticky
    (ok 0x10 → cmp 0x10 (exec (.cmpeq x) s) (fun p => decide (ua 0x10 p = ub 0x10 p))) ∧
    (ok 0x11 → cmp 0x11 (exec (.cmpne x) s) (fun p => decide (ua 0x11 p ≠ ub 0x11 p))) ∧
    (ok 0x12 → cmp 0x12 (exec (.cmplt x) s) (fun p => decide (sa 0x12 p < sb 0x12 p))) ∧
    (ok 0x13 → cmp 0x13 (exec (.cmple x) s) (fun p => decide (sa 0x13 p ≤ sb 0x13 p))) ∧
    (ok 0x14 → cmp 0x14 (exec (.cmpltu x) s) (fun p => decide (ua 0x14 p < ub 0x14 p))) ∧
    (ok 0x15 → cmp 0x15 (exec (.cmpleu x) s) (fun p => decide (ua 0x15 p ≤ ub 0x15 p))) ∧
    (ok 0x0A ∧ unhurt 0x0A x s r w some → pick 0x0A (exec (.min x) s) (fun p => decide (sb 0x0A p < sa 0x0A p))) ∧
    (ok 0x0B ∧ unhurt 0x0B x s r w some → pick 0x0B (exec (.max x) s) (fun p => decide (sa 0x0B p < sb 0x0B p))) ∧
    (ok 0x0C ∧ unhurt 0x0C x s r w some → pick 0x0C (exec (.minu x) s) (fun p => decide (ub 0x0C p < ua 0x0C p))) ∧
    (ok 0x0D ∧ unhurt 0x0D x s r w some → pick 0x0D (exec (.maxu x) s) (fun p => decide (ua 0x0D p < ub 0x0D p)))

/-- R126 to R128, R161, R163: exact 2w-bit products and accumulations, whatever the overlap; quotient in the low half
and remainder in the high half of the destination, with all ones, the dividend and the sticky DZ for a zero divisor,
and X for the most negative value by −1; C and X are cleared otherwise. Says where these complete: MULI, MULIU,
MACI, DIVI, DIVIU. -/
def Obligations.ArrayProducts : Prop :=
  ∀ (x : Issue) (s : State) (r : Rect),
    let w := widthOf x
    let ua := fun (op p : Nat) => srcA op x s r w p
    let ub := fun (op p : Nat) => srcB op x s r w p
    let sa := fun (op p : Nat) => sgnNat w (ua op p)
    let sb := fun (op p : Nat) => sgnNat w (ub op p)
    let q := fun (p : Nat) => if sb 0x1C p = 0 then (-1 : Int) else (sa 0x1C p).tdiv (sb 0x1C p)
    let m := fun (p : Nat) => if sb 0x1C p = 0 then sa 0x1C p else (sa 0x1C p).tmod (sb 0x1C p)
    let uq := fun (p : Nat) => if ub 0x1D p = 0 then 2 ^ w - 1 else ua 0x1D p / ub 0x1D p
    let um := fun (p : Nat) => if ub 0x1D p = 0 then ua 0x1D p else ua 0x1D p % ub 0x1D p
    let dz := fun (op i p : Nat) => decide (i = 1 ∧ ub op p = 0)
    (ArrayIssues 0x18 x s r → leaves 0x18 x s r (exec (.muli x) s) (2 * w)
      (fun p => fieldOfInt (2 * w) (sa 0x18 p * sb 0x18 p)) zeroFlag zeroFlag noSticky) ∧
    (ArrayIssues 0x19 x s r → leavesEarly 0x19 x s r (exec (.muliu x) s) (2 * w) (fun p => ua 0x19 p * ub 0x19 p) noSticky) ∧
    (ArrayIssues 0x1A x s r → leaves 0x1A x s r (exec (.maci x) s) (2 * w)
      (fun p => fieldOfInt (2 * w) (dstVal x s (2 * w) p + sa 0x1A p * sb 0x1A p)) zeroFlag zeroFlag noSticky) ∧
    (ArrayIssues 0x1C x s r → leaves 0x1C x s r (exec (.divi x) s) (2 * w)
      (fun p => fieldOfInt w (q p) + fieldOfInt w (m p) * 2 ^ w) zeroFlag (fun p => some (wide w (q p))) (dz 0x1C)) ∧
    (ArrayIssues 0x1D x s r → leaves 0x1D x s r (exec (.diviu x) s) (2 * w) (fun p => uq p + um p * 2 ^ w) zeroFlag zeroFlag
      (dz 0x1D))

/-- R122, R129, R162: the logic instructions work bit by bit; the shifts take bits [6:0] of the scalar or immediate
amount, the same in every PE, and deliver 0, or the sign for SAR, from an amount of w on; ROL rotates by the amount
mod w. None of them writes C or X. Says where these complete: AND, OR, XOR, ANDN, NAND, NOR, XNOR, NOT, SHL, SHR,
SAR, ROL. -/
def Obligations.ArrayLogicShifts : Prop :=
  ∀ (x : Issue) (s : State) (r : Rect),
    let w := widthOf x
    let ok := fun (op : Nat) => ArrayIssues op x s r ∧ unhurt op x s r w some
    let a := fun (op p : Nat) => srcA op x s r w p
    let b := fun (op p : Nat) => srcB op x s r w p
    let not' := fun (v : Nat) => 2 ^ w - 1 - v
    let put := fun (op : Nat) (o : Host.Outcome State Fault Refusal) (v : Nat → Nat) =>
      leaves op x s r o w v noFlag noFlag noSticky
    let n := (if modeOf x.src2 = 5 then (sValue (self x s) x.src2).toNat else (fieldOf x.src2).toNat) % 128
    let sh := fun (op : Nat) (idx : Nat → Option Nat) => ArrayIssues op x s r ∧ unhurt op x s r w idx
    (ok 0x20 → put 0x20 (exec (.and x) s) (fun p => a 0x20 p &&& b 0x20 p)) ∧
    (ok 0x21 → put 0x21 (exec (.or x) s) (fun p => a 0x21 p ||| b 0x21 p)) ∧
    (ok 0x22 → put 0x22 (exec (.xor x) s) (fun p => a 0x22 p ^^^ b 0x22 p)) ∧
    (ok 0x23 → put 0x23 (exec (.andn x) s) (fun p => a 0x23 p &&& not' (b 0x23 p))) ∧
    (ok 0x24 → put 0x24 (exec (.nand x) s) (fun p => not' (a 0x24 p &&& b 0x24 p))) ∧
    (ok 0x25 → put 0x25 (exec (.nor x) s) (fun p => not' (a 0x25 p ||| b 0x25 p))) ∧
    (ok 0x26 → put 0x26 (exec (.xnor x) s) (fun p => not' (a 0x26 p ^^^ b 0x26 p))) ∧
    (ok 0x27 → put 0x27 (exec (.not x) s) (fun p => not' (a 0x27 p))) ∧
    (sh 0x30 (fun i => if n ≤ i then some (i - n) else none) → put 0x30 (exec (.shl x) s) (fun p => a 0x30 p * 2 ^ n % 2 ^ w)) ∧
    (sh 0x31 (fun i => if i + n < w then some (i + n) else none) → put 0x31 (exec (.shr x) s) (fun p => a 0x31 p / 2 ^ n)) ∧
    (sh 0x32 (fun i => if i + n < w then some (i + n) else none) → put 0x32 (exec (.sar x) s)
      (fun p => fieldOfInt w (sgnNat w (a 0x32 p) / (2 ^ n : Nat)))) ∧
    (sh 0x33 (fun i => some ((i + w - n % w) % w)) → put 0x33 (exec (.rol x) s)
      (fun p => (a 0x33 p * 2 ^ (n % w) + a 0x33 p / 2 ^ (w - n % w)) % 2 ^ w))

/-- R130, R137, R142: MOVE, SEXT and ZEXT copy; LDLAR sets LAR to the sum mod 2^14 and clears C; STLAR, STC and STX
deliver LAR, C and X; LDC and LDX set C and X. Says where these complete: MOVE, SEXT, ZEXT, LDLAR, STLAR, LDC, STC,
LDX, STX. -/
def Obligations.ArrayMoves : Prop :=
  ∀ (x : Issue) (s : State) (r : Rect),
    let w := widthOf x
    let n := (fieldOf x.src2).toNat
    let a := fun (op m p : Nat) => srcA op x s r m p
    let put := fun (op : Nat) (o : Host.Outcome State Fault Refusal) (v : Nat → Nat) =>
      leaves op x s r o w v noFlag noFlag noSticky
    let sh := fun (op m : Nat) => ArrayIssues op x s r ∧ unhurt op x s r w (fun i => if i < m then some i else none)
    let lar := fun (p : Nat) => srcA 0x38 x s r w p + srcB 0x38 x s r w p
    let keep := fun (o : Host.Outcome State Fault Refusal) (op : Nat) (f : Nat → Nat → Option Bool) =>
      ∃ t, o = .next t ∧ arrayDone op x s r t ∧ peAfter x s r t f
    (sh 0x60 w → put 0x60 (exec (.move x) s) (a 0x60 w)) ∧
    (sh 0x61 n → put 0x61 (exec (.sext x) s) (fun p => fieldOfInt w (sgnNat n (a 0x61 n p)))) ∧
    (sh 0x62 n → put 0x62 (exec (.zext x) s) (a 0x62 n)) ∧
    (ArrayIssues 0x38 x s r → keep (exec (.ldlar x) s) 0x38 (fun key p => if key = keyC then some false
      else if keyLar 0 ≤ key ∧ key < keyLar 14 then some ((lar p % 2 ^ 14).testBit (key - keyLar 0)) else none)) ∧
    (ArrayIssues 0x39 x s r → put 0x39 (exec (.stlar x) s) (larAt s.pe)) ∧
    (ArrayIssues 0x3A x s r → keep (exec (.ldc x) s) 0x3A (fun key p => if key = keyC then some ((a 0x3A 1 p).testBit 0) else none)) ∧
    (ArrayIssues 0x3B x s r → put 0x3B (exec (.stc x) s) (fun p => (peBit s.pe keyC p).toNat)) ∧
    (ArrayIssues 0x3C x s r → keep (exec (.ldx x) s) 0x3C (fun key p => if key = keyX then some ((a 0x3C 1 p).testBit 0) else none)) ∧
    (ArrayIssues 0x3D x s r → put 0x3D (exec (.stx x) s) (fun p => (peBit s.pe keyX p).toNat))

/-- R131 to R136, R172, R175 to R181: the FP40 instructions that commit from scratch leave the rounded result whatever the
overlap, OR its exceptions into the sticky flags, and clear C and X. -/
def Sys2Proof.Claims.arrayFloat : Prop :=
  ∀ (x : Issue) (s : State) (r : Rect),
    let w := widthOf x
    let c := fpCtlOf (self x s).fpctl
    let a := fun (op p : Nat) => BitVec.ofNat 40 (srcA op x s r 40 p)
    let b := fun (op p : Nat) => BitVec.ofNat 40 (srcB op x s r 40 p)
    let acc := fun (p : Nat) => BitVec.ofNat 40 (dstVal x s 40 p)
    let put := fun (op n : Nat) (o : Host.Outcome State Fault Refusal) (f : Nat → Nat × FFlags) =>
      leaves op x s r o n (fun p => (f p).1) zeroFlag zeroFlag (fun i p => (f p).2.getLsbD i)
    let early := fun (op : Nat) (o : Host.Outcome State Fault Refusal) (f : Nat → Word × FFlags) =>
      leavesEarly op x s r o 40 (fun p => (f p).1.toNat) (fun i p => (f p).2.getLsbD i)
    let word := fun (v : Word × FFlags) => (v.1.toNat, v.2)
    let toInt := fun (signed : Bool) (v : Word) =>
      let v := fpToInt c (if signed then -(2 ^ (w - 1) : Nat) else 0) (if signed then (2 ^ (w - 1) : Nat) - 1 else (2 ^ w : Nat) - 1) v
      (fieldOfInt w v.1, v.2)
    (ArrayIssues 0x40 x s r → early 0x40 (exec (.fadd x) s) (fun p => fpAdd c (a 0x40 p) (b 0x40 p))) ∧
    (ArrayIssues 0x41 x s r → early 0x41 (exec (.fsub x) s) (fun p => fpSub c (a 0x41 p) (b 0x41 p))) ∧
    (ArrayIssues 0x42 x s r → early 0x42 (exec (.fmul x) s) (fun p => fpMul c (a 0x42 p) (b 0x42 p))) ∧
    (ArrayIssues 0x43 x s r → put 0x43 40 (exec (.fdiv x) s) (fun p => word (fpDiv c (a 0x43 p) (b 0x43 p)))) ∧
    (ArrayIssues 0x44 x s r → put 0x44 40 (exec (.fsqrt x) s) (fun p => word (fpSqrt c (a 0x44 p)))) ∧
    (ArrayIssues 0x45 x s r → early 0x45 (exec (.macf x) s) (fun p => fpMac c (acc p) (a 0x45 p) (b 0x45 p))) ∧
    (ArrayIssues 0x50 x s r → early 0x50 (exec (.icvtf x) s) (fun p => intToFp c (sgnNat w (srcA 0x50 x s r w p)))) ∧
    (ArrayIssues 0x51 x s r → early 0x51 (exec (.ucvtf x) s) (fun p => intToFp c (srcA 0x51 x s r w p))) ∧
    (ArrayIssues 0x52 x s r → put 0x52 w (exec (.fcvti x) s) (fun p => toInt true (a 0x52 p))) ∧
    (ArrayIssues 0x53 x s r → put 0x53 w (exec (.fcvtu x) s) (fun p => toInt false (a 0x53 p))) ∧
    (ArrayIssues 0x54 x s r → put 0x54 40 (exec (.f32cvt x) s) (fun p => word (fpFrom32 c (srcA 0x54 x s r 32 p)))) ∧
    (ArrayIssues 0x55 x s r → put 0x55 32 (exec (.fcvt32 x) s) (fun p => fpTo32 c (a 0x55 p))) ∧
    (ArrayIssues 0x56 x s r → put 0x56 40 (exec (.f64cvt x) s) (fun p => word (fpFrom64 c (srcA 0x56 x s r 64 p)))) ∧
    (ArrayIssues 0x57 x s r → put 0x57 64 (exec (.fcvt64 x) s) (fun p => fpTo64 c (a 0x57 p))) ∧
    (ArrayIssues 0x58 x s r → put 0x58 40 (exec (.frint x) s) (fun p => word (fpRint c (a 0x58 p))))

/-- R133, R174, R466: sign changes, minima and maxima under R102's condition on the overlap, and the FP compares, raise IV
alone and clear C and X. -/
def Sys2Proof.Claims.arrayFloatDirect : Prop :=
  ∀ (x : Issue) (s : State) (r : Rect),
    let c := fpCtlOf (self x s).fpctl
    let a := fun (op p : Nat) => BitVec.ofNat 40 (srcA op x s r 40 p)
    let b := fun (op p : Nat) => BitVec.ofNat 40 (srcB op x s r 40 p)
    let ok := fun (op : Nat) => ArrayIssues op x s r ∧ unhurt op x s r 40 some
    let put := fun (op : Nat) (o : Host.Outcome State Fault Refusal) (f : Nat → Word × FFlags) =>
      leaves op x s r o 40 (fun p => (f p).1.toNat) zeroFlag zeroFlag (fun i p => decide (i = 0) && (f p).2.getLsbD 0)
    let cmp := fun (op : Nat) (o : Host.Outcome State Fault Refusal) (f : Nat → Bool × FFlags) =>
      leaves op x s r o 1 (fun p => (f p).1.toNat) zeroFlag zeroFlag (fun i p => decide (i = 0) && (f p).2.getLsbD 0)
    (ok 0x46 → put 0x46 (exec (.fneg x) s) (fun p => fpSign false c (a 0x46 p))) ∧
    (ok 0x47 → put 0x47 (exec (.fabs x) s) (fun p => fpSign true c (a 0x47 p))) ∧
    (ok 0x48 → put 0x48 (exec (.fmin x) s) (fun p => fpMinMax false c (a 0x48 p) (b 0x48 p))) ∧
    (ok 0x49 → put 0x49 (exec (.fmax x) s) (fun p => fpMinMax true c (a 0x49 p) (b 0x49 p))) ∧
    (ArrayIssues 0x4A x s r → cmp 0x4A (exec (.fcmpeq x) s) (fun p => fpCompare 0 c (a 0x4A p) (b 0x4A p))) ∧
    (ArrayIssues 0x4B x s r → cmp 0x4B (exec (.fcmplt x) s) (fun p => fpCompare 1 c (a 0x4B p) (b 0x4B p))) ∧
    (ArrayIssues 0x4C x s r → cmp 0x4C (exec (.fcmple x) s) (fun p => fpCompare 2 c (a 0x4C p) (b 0x4C p))) ∧
    (ArrayIssues 0x4D x s r → cmp 0x4D (exec (.fcmpun x) s) (fun p => fpCompare 3 c (a 0x4D p) (b 0x4D p)))

/-- R109, R138 to R141: the reductions over the enabled PEs of the group write no plane; their value is delivered to an
S register four issue slots later, GETG and TESTG capture G, STKOR ORs the sticky flags into BF, STKCLR clears them.
Says where these complete: GETG, TESTG, GETPE, GETCOUNT, GETSUM, GETSUMS, STKOR, STKCLR. Some of its clauses rest on
the model's own choices: log entry 35. -/
def Obligations.Reductions : Prop :=
  ∀ (x : Issue) (s : State) (r : Rect),
    let w := widthOf x
    let k := self x s
    let pes := (groupPes r).filter (peOn x s r)
    let val := fun (op : Nat) => pes.map (srcA op x s r w)
    let v2 := (sValue k x.src2).toNat
    let named := v2 / 256 * 256 + v2 % 256
    let got := fun (op : Nat) (o : Host.Outcome State Fault Refusal) (v : Option Word) (g : Option Bool) =>
      ∃ t, o = .next t ∧ t.pe = s.pe ∧ t.store = s.store ∧ t.regs = s.regs ∧
        t.courses = (releaseBanks op x r s).courses ∧
        ctx t x.bow x.ctx = { begun k with
          pc := k.pc + 1, gOut := g.toList,
          deliveries := v.toList.map (fun v => { reg := x.dst.extractLsb' 0 4, value := v, left := 4, spec := false }) } ∧
        (bow t x.bow).accum = v.getD (bow s x.bow).accum
    let orAll := fun (op : Nat) => (val op).foldl (fun m v => m ||| v) 0
    let any := fun (i : Nat) => pes.any (fun p => peBit s.pe (keySticky i) p)
    let m := (any 0).toNat * 64 + (any 1).toNat * 32 + (any 2).toNat * 128 + (any 3).toNat * 256 + (any 4).toNat * 512
    (ArrayIssues 0x70 x s r → got 0x70 (exec (.getg x) s) (some (BitVec.ofNat 40 (orAll 0x70))) (some (decide (orAll 0x70 ≠ 0)))) ∧
    (ArrayIssues 0x71 x s r → got 0x71 (exec (.testg x) s) none (some (decide (orAll 0x71 ≠ 0)))) ∧
    (ArrayIssues 0x72 x s r → got 0x72 (exec (.getpe x) s)
      (some (if peOn x s r named then BitVec.ofNat 40 (srcA 0x72 x s r w named) else 0)) none) ∧
    (ArrayIssues 0x73 x s r → got 0x73 (exec (.getcount x) s)
      (some (BitVec.ofNat 40 ((pes.filter (fun p => srcA 0x73 x s r 1 p = 1)).length))) none) ∧
    (ArrayIssues 0x74 x s r → got 0x74 (exec (.getsum x) s) (some (BitVec.ofNat 40 ((val 0x74).foldl (fun m v => m + v) 0))) none) ∧
    (ArrayIssues 0x75 x s r → got 0x75 (exec (.getsums x) s)
      (some (BitVec.ofInt 40 ((val 0x75).foldl (fun (m : Int) v => m + sgnNat w v) 0))) none) ∧
    (ArrayIssues 0x78 x s r → exec (.stkor x) s = .next (contextDone x s { begun k with bf := k.bf ||| (BitVec.ofNat 10 m : Bf) })) ∧
    (ArrayIssues 0x79 x s r → ∃ t, exec (.stkclr x) s = .next t ∧ arrayDone 0x79 x s r t ∧ peAfter x s r t (fun key _ =>
      if keySticky 0 ≤ key ∧ key ≤ keySticky 4 then some false else none))

/-! ### Bow events -/

namespace Sys2Proof.Claims

/-- The command completes with a next state of which `P` holds. -/
def Does (c : Instr) (s : State) (P : State → Prop) : Prop := ∃ t, exec c s = .next t ∧ P t

/-- The completion ring of a descriptor's submission ring, and a descriptor of a host ring whose completion has a place
there and for which no ABORT waits (R356, R357). -/
def ringOf (s : State) (d : Desc) : Fin 64 := (s.sq[Fin.ofNat 64 d.ring.toNat]).cq
def HasRoom (s : State) (d : Desc) : Prop :=
  d.startup = false ∧ (s.cq[ringOf s d]).held.length < 256 ∧ s.abortWaits = []

/-- The descriptor is accepted no longer, and this completion is the last in its ring. -/
def Posts (s t : State) (d : Desc) (c : Completion) : Prop :=
  (t.cq[ringOf s d]).held = (s.cq[ringOf s d]).held ++ [c] ∧ t.accepted = dropDesc d s.accepted

/-- The completion of a kernel: a status, the kernel's BF, and the flags DEADLINE_MISSED and LATE (R357). -/
def kernelCompletion (s : State) (j : Job) (st : Status) (detail : BitVec 24) (bf : Bf) : Completion :=
  let d := j.desc
  let missed := kHasDeadline d && kDeadline d < s.epoch.toNat
  { tag := descTag d, status := st, ring := d.ring.setWidth 8, type := 1, detail,
    cflags := BitVec.ofNat 8 (2 * j.late.toNat + 4 * missed.toNat + 8 * j.testYield.toNat + 16 * j.patchWait.toNat),
    extra := if j.testYield then j.added else 0, result := bf.setWidth 64, irq := descIrq d }

/-- The memories of the courses, the store and the host are as they were. -/
def MemoryKept (s t : State) : Prop := t.pe = s.pe ∧ t.store = s.store ∧ t.host = s.host

/-- A plane after the undo entries of a window have been replayed newest first (R224). -/
def undone (s : State) (r : Rect) (undo : List (Nat × Plane)) (key : Nat) : Plane :=
  undo.foldl (fun p e => if e.1 = key then blend (groupMask r) p e.2 else p) (cget zeroes s.pe key)

/-- No halt, be it of a microcode breakpoint, and no abort waits for the bow's next instruction boundary. -/
def Undisturbed (s : State) (b : Fin 16) (c : Ctx) : Prop :=
  (ctx s b c).aborting = false ∧ (reg s 0x90004).getLsbD b.val = false ∧ (bow s b).microHit = none

end Sys2Proof.Claims

/-- R104, R223, R224: G reaches BF.G; the capture that an open window waits for closes it: rightly, and the stores held
back reach the data memory; wrongly, and the checkpoint, the data memory and the planes are as at the branch, which
goes the other way. Says where these complete: G_DELIVERY. -/
def Obligations.GReachesItsContext : Prop :=
  ∀ (b : Fin 16) (c : Ctx) (extra waited : Nat) (s : State) (g : Bool) (rest : List Bool),
    let k := ctx s b c
    k.gOut = g :: rest → Memory.wf s = true →
    ((bow s b).window = none →
      Does (.gDelivery b c extra waited) s (fun t => ctx t b c = { k with bf := putBf k.bf bfG g, gOut := rest } ∧
        (bow t b).dmem = (bow s b).dmem ∧ t.regs = (countUp s (bowReg b 0x0D4) 31 0 waited).regs ∧ MemoryKept s t)) ∧
    (∀ win, (bow s b).window = some win → win.ctx = c → win.need ≤ 1 → (g == win.onSet) = win.predicted →
      win.latent = none → Undisturbed s b c →
      Does (.gDelivery b c extra waited) s (fun t => (bow t b).window = none ∧
        (ctx t b c).bf = putBf k.bf bfG g ∧ (ctx t b c).s = k.s ∧ (ctx t b c).a = k.a ∧ (ctx t b c).pc = k.pc ∧
        (bow t b).dmem = win.sbuf.foldr (fun e m => cset zeroes m e.1.toNat e.2) (bow s b).dmem ∧ MemoryKept s t)) ∧
    (∀ win r, (bow s b).window = some win → win.ctx = c → win.need ≤ 1 → (g == win.onSet) ≠ win.predicted →
      (bow s b).group = some r → s.peErr = [] → Undisturbed s b c →
      Does (.gDelivery b c extra waited) s (fun t => (bow t b).window = none ∧ (ctx t b c).s = win.ck.s ∧
        (ctx t b c).a = win.ck.a ∧ (ctx t b c).bf = putBf win.ck.bf bfG g ∧ (ctx t b c).lk = win.ck.lk ∧
        (ctx t b c).rc = win.ck.rc ∧ (ctx t b c).rep = win.ck.rep ∧ (ctx t b c).gOut = [] ∧
        (ctx t b c).pc = (if g == win.onSet then win.target else win.brPc + 1) ∧ (bow t b).accum = win.ck.accum ∧
        (bow t b).dmem = (bow s b).dmem ∧ (∀ key, cget zeroes t.pe key = undone s r win.undo key) ∧
        t.store = s.store ∧ t.host = s.host))

/-- R62, R64, R65, R109, R158: a GETx value reaches its register when its slot comes; an instruction whose line is
missing asks for it and stalls; a line that was asked for enters the instruction store as the most recently used,
with the sixteen words of the Shared Store, or marked invalid where it reaches the secure partition; a context that
waits for a phase goes on once its target is reached. Says where these complete: GETX_DELIVERY, ISTORE_LINE_FILL,
WAITPH_RELEASE. Some of its clauses rest on the model's own choices: log entry 35. -/
def Obligations.BowDeliveries : Prop :=
  ∀ (b : Fin 16) (c : Ctx) (s : State),
    let k := ctx s b c
    (∀ v rest, k.deliveries = v :: rest → v.left ≤ 1 → (∀ e ∈ rest, 1 < e.left) → (bow s b).window = none →
      exec (.getxDelivery b c) s = .next (setCtx s b c { k with s := k.s.set v.reg.toNat v.value v.reg.isLt, deliveries := rest })) ∧
    (∀ (image : BitVec 21) (line : BitVec 10) (q : LineAsk), (bow s b).powered = true → q ∈ (bow s b).asked → q.base = image →
      q.num = line → (∀ q ∈ (bow s b).asked, q.base = image → q.num = line → q.sent = false) → 4 ≤ line.toNat →
      let first := image.toNat + 16 * line.toNat - 64
      let filled := fun (ok : Bool) (code : List IWord) => Does (.istoreLineFill b image line [] [] []) s (fun t =>
        (bow t b).lines.head? = some { base := image, num := line, ok, pinned := (bow s b).pins.contains image, code } ∧
        (∀ q ∈ (bow t b).asked, q.base ≠ image ∨ q.num ≠ line) ∧ t.regs = s.regs ∧
        (bow t b).dmem = (bow s b).dmem ∧ (bow t b).n = (bow s b).n ∧ (bow t b).u = (bow s b).u ∧ MemoryKept s t)
      (first + 16 ≤ 0x1F0000 → storeServes s = true → s.storeErr = [] →
        filled true ((List.range 8).map (fun i => storeWord s (first + 2 * i + 1) ++ storeWord s (first + 2 * i)))) ∧
      (0x1F0000 < first + 16 → filled false [])) ∧
    (∀ (x : Issue) (j : Job), Runs x s → (ctx s x.bow x.ctx).job = some j →
      lineMissing (bow s x.bow) (ctx s x.bow x.ctx) = true → (bow s x.bow).asked = [] →
      Does (.nop x) s (fun t => ctx t x.bow x.ctx = { ctx s x.bow x.ctx with run := .stalled } ∧
        (bow t x.bow).asked.head? = some { base := kImage j.desc, num := (ctx s x.bow x.ctx).pc.extractLsb' 3 10, prefetch := false } ∧
        t.regs = (countUp s (bowReg x.bow 0x080) 31 0 1).regs ∧ MemoryKept s t)) ∧
    (∀ sel target, k.wait = some (.phase sel target) → k.run = .stalled → k.stepping = false → k.rep = none →
      reached (refValue s sel.toNat) target = true →
      exec (.waitphRelease b c) s = .next (setCtx s b c { k with run := .running, wait := none, pc := k.pc + 1 }))

namespace Sys2Proof.Claims

/-- The context at the entry of a kernel (R82): PC at ENTRY, S0 to S7 the parameters, S8 to S15 and A0 to A6 zero, A7 the
stack pointer, flags and trap state clear. -/
def AtEntry (k : Context) (j : Job) : Prop :=
  let d := j.desc
  k.run = .running ∧ k.job = some j ∧ k.pc = BitVec.ofNat 13 (dle d 0x0C 2) ∧
  (∀ i : Fin 8, k.s[i.val] = BitVec.ofNat 40 (dle d (0x40 + 8 * i.val) 8)) ∧ (∀ i : Fin 8, k.s[i.val + 8] = 0) ∧
  (∀ i : Fin 7, k.a[i.val] = 0) ∧ k.a[7] = BitVec.ofNat 16 (dle d 0x14 2) ∧ k.bf = 0 ∧ k.lk = 0 ∧ k.rc = 0 ∧
  k.fpctl = BitVec.ofNat 4 (dle d 0x13 1) ∧ k.stackLo = BitVec.ofNat 14 (dle d 0x16 2) ∧ k.th = false ∧ k.rep = none ∧
  k.lastStatus = 0 ∧ k.micro = none

/-- The kernel takes the bow's group as it is, and its image is not to be pinned now. -/
def PlainUrgent (s : State) (d : Desc) : Prop := kUrgent d = true ∧ kernelPins d = false ∧ takesGroup s d = true

/-- Every other bow's queue is too short to steal from (R86). -/
def OnlyVictim (s : State) (v : Fin 16) : Prop := ∀ i, i ≠ v → (bow s i).queue.length < 2

end Sys2Proof.Claims

/-- R72, R74, R82, R83, R85: the head of a queue starts in N with its parameters; an urgent kernel enters U at once, the
28 latch items of every PE of the group being saved; a waiting launch takes the bow from N; a kernel that has ended posts
its completion; a deadline kernel that has not started completes with TIMEOUT. -/
def Sys2Proof.Claims.kernelsStartAndEnd : Prop :=
  ∀ (b : Fin 16) (s : State) (j : Job) (rest : List Job), Memory.wf s = true →
    let w := bow s b
    let d := j.desc
    let unexpired := ∀ q ∈ w.queue ++ w.launches, expired s q.desc = false
    let freeBow := w.powered = true ∧ w.u.job = none ∧ haltedBow s b = false ∧ s.brown.hold = false ∧ w.swapEnd = none
    let saved := fun (t : State) => ∀ r, w.group = some r → ∀ i, i < 28 →
      cget zeroes t.pe (16384 + i + latchOffset) =
        blend (groupMask r) (cget zeroes s.pe (16384 + i + latchOffset)) (cget zeroes s.pe (16384 + i))
    (w.queue = j :: rest → unexpired → freeBow → w.n.job = none → w.launches = [] → s.sched = [] → s.brown.held = [] →
      shapeIs s b (kWidth d) (kHeight d) = true → s.mode = .idle → regBits s 0x70000 8 5 = 0 →
      Does (.kernelStart b) s (fun t => AtEntry (bow t b).n j ∧ (bow t b).queue = rest ∧ (bow t b).group = w.group ∧
        (bow t b).dmem = w.dmem ∧ t.mode = .run ∧ MemoryKept s t)) ∧
    (PlainUrgent s d → kBow d = b → j = newJob d false → freeBow → w.n.job = none → w.launches = [] → w.armed = none →
      Does (.urgentLaunch d) s (fun t => AtEntry (bow t b).u j ∧ (bow t b).n = w.n ∧ (bow t b).launches = [] ∧
        saved t ∧ t.store = s.store)) ∧
    (∀ ac, w.launches = j :: rest → unexpired → freeBow → w.n.job.isSome = true → atBoundary w = true → w.n.deliveries = [] →
      Does (.preemption b ac) s (fun t => AtEntry (bow t b).u j ∧ (bow t b).n = { w.n with run := .preempted } ∧
        (bow t b).launches = rest ∧ saved t ∧ regBits t (bowReg b 0x08C) 31 0 = min (regBits s (bowReg b 0x08C) 31 0 + 1) (2 ^ 32 - 1) ∧
        regBits t (bowReg b 0x090) 15 0 = max (regBits s (bowReg b 0x090) 15 0) (min ac 65535))) ∧
    (∀ c bf cause, w.ended = [{ ctx := c, job := j, bf, cause }] → (ctx s b c).wait = none → HasRoom s d →
      Does (.kernelCompletion b c) s (fun t => (bow t b).ended = [] ∧ MemoryKept s t ∧
        Posts s t d (match j.abortLate, cause with
          | true, _ => kernelCompletion s j stLateAbort 0 bf
          | false, none => kernelCompletion s j stOK 0 bf
          | false, some k => kernelCompletion s j (if k = 8 then stEccUncorrected else if k = 4 ∨ k = 5 then stBadAddress else stInternal)
              (k.setWidth 24) bf))) ∧
    (w.queue = [j] → w.launches = [] → s.sched = [] → s.brown.held = [] → kHasDeadline d = true → kDeadline d ≤ s.epoch.toNat → HasRoom s d →
      Does (.deadlineExpiry b) s (fun t => (bow t b).queue = [] ∧ (bow t b).n = w.n ∧ MemoryKept s t ∧
        Posts s t d (kernelCompletion s j stTimeout 0 0)))

/-- R86: an idle bow takes the tail of the only queue long enough, an idle mover the tail of the only peer queue with two
transfers waiting, where that tail may be taken. -/
def Sys2Proof.Claims.stealing : Prop :=
  ∀ (s : State),
    (∀ (b v : Fin 16) (q : List Job) (j : Job), b ≠ v → idleForSteal s b = true → (bow s v).queue = q ++ [j] → q ≠ [] →
      OnlyVictim s v → stealable j = true → canForm s b j.desc = true →
      Does (.stealAttempt b) s (fun t => (bow t v).queue = q ∧ (bow t b).queue = [j] ∧
        t.regs = (countUp (countUp s (bowReg b 0x084) 31 0 1) (bowReg v 0x088) 31 0 1).regs ∧
        (bow t b).n = (bow s b).n ∧ (bow t v).n = (bow s v).n ∧ MemoryKept s t)) ∧
    (∀ (m v : Fin 8) (q : List Desc) (p d : Desc), m ≠ v → s.movers[m] = [] → s.movers[v] = q ++ [p, d] → q ≠ [] →
      descChain p = false → descChain d = false → (∀ i : Fin 8, i ≠ v → (s.movers[i]).length < 3) →
      Does (.moverSteal m) s (fun t => t.movers[v] = q ++ [p] ∧ t.movers[m] = [d] ∧ t.regs = s.regs ∧ MemoryKept s t))

/-- R71, R76, R78, R208, R212: a bow that nothing uses is switched off and loses its data memory and contexts; one that
is needed comes up with data memory zero and a pending patch set in force; the clock of a group changes at a
preemption point, or is deferred while an urgent launch waits, runs or is predicted. Says where these complete:
BOW_POWER_DOWN, BOW_POWER_UP, CLOCK_STEP. Some of its clauses rest on the model's own choices: log entries 48 and
83. -/
def Obligations.BowDomains : Prop :=
  ∀ (b : Fin 16) (s : State), Memory.wf s = true →
    let w := bow s b
    (w.powered = true → bowUnused s b = true →
      Does (.bowPowerDown b) s (fun t => (bow t b).powered = false ∧ (bow t b).dmem = [] ∧ (bow t b).lines = [] ∧
        (bow t b).n = Context.reset ∧ (bow t b).u = Context.reset ∧ (bow t b).trapTable = w.trapTable ∧
        (bow t b).patch = w.patch ∧ domainOn t (68 + b.val) = false ∧ MemoryKept s t)) ∧
    (∀ r, w.powered = false → w.group = some r → bowsMayRun s = true → w.launches = [] →
      Does (.bowPowerUp b) s (fun t => (bow t b).powered = true ∧ (bow t b).dmem = [] ∧ (w.pins = [] → (bow t b).lines = []) ∧
        (bow t b).patch = w.pending.getD w.patch ∧ (bow t b).pending = none ∧ (bow t b).n.history = [] ∧
        (bow t b).group = some r ∧ domainOn t (68 + b.val) = true ∧ MemoryKept s t)) ∧
    (∀ (clk : BitVec 5) r, w.group = some r → 6 ≤ clk.toNat → clk.toNat ≤ w.clockSet.toNat → clk.toNat ≤ 24 →
      (urgentBusy w = false → launchPredicted s b = false → atBoundary w = true →
        exec (.clockStep b clk) s = .next (setBow s b { w with clock := clk, clockNext := none })) ∧
      (urgentBusy w = true ∨ launchPredicted s b = true ∨ atBoundary w = false →
        exec (.clockStep b clk) s = .next (setBow s b { w with clockNext := some clk })))

namespace Sys2Proof.Claims

/-- Opcodes and instructions whose routines compute in micro-scratch (R205). -/
def scratchRows : List (Nat × (Issue → Instr)) :=
  [(0x18, .muli), (0x19, .muliu), (0x1A, .maci), (0x1C, .divi), (0x1D, .diviu), (0x40, .fadd), (0x41, .fsub), (0x42, .fmul),
   (0x43, .fdiv), (0x44, .fsqrt), (0x45, .macf), (0x50, .icvtf), (0x51, .ucvtf), (0x52, .fcvti), (0x53, .fcvtu),
   (0x54, .f32cvt), (0x55, .fcvt32), (0x56, .f64cvt), (0x57, .fcvt64), (0x58, .frint)]

end Sys2Proof.Claims

/-- R72, R189, R199, R202: a routine that computes in micro-scratch, found at a yield point by a pending preemption, stops
there with its µPC and its counters kept, the PC at its instruction, and no plane, flag or register changed; going on, it
ends as if it had never stopped. -/
def Sys2Proof.Claims.routineStops : Prop :=
  ∀ p ∈ scratchRows, ∀ (x : Issue) (s : State) (r : Rect) (u : BitVec 13) (bc lc : BitVec 8),
    slotBegun s x.bow x.ctx = s → ArrayIssues p.1 x s r → x.stop = none → stopPending s x.bow x.ctx = true →
    ∃ h, let stopped := setCtx s x.bow x.ctx { ctx s x.bow x.ctx with micro := some { upc := u, bc, lc, bad := false, held := some h } }
      exec (p.2 { x with stop := some (u, bc, lc) }) s = .next stopped ∧ exec (p.2 x) stopped = exec (p.2 x) s

/-! ### Courses -/

namespace Sys2Proof.Claims

/-- Reserved bits of a write of CRS_CP_CTRL are recorded (R5, R52). -/
def warned (s : State) (c : Fin 64) (n : Fin 4) (v : Reg32) : State :=
  if 2 ^ 22 ≤ v.toNat then regWarnAt s (BitVec.ofNat 16 (0x0100 + c.val)) (0x100 + 0x20 * n.val) else s

/-- The control register of a channel as a write of CRS_CP_CTRL leaves it (R57). -/
def withCtrl (s : State) (c : Fin 64) (n : Fin 4) (v : Reg32) : State :=
  warned (setReg s (cpReg c n 0) (v &&& 0x003FFFFC)) c n v

/-- The value of slot j of a channel, and the position of its PE in a plane. -/
def slotOf (s : State) (c : Fin 64) (n : Fin 4) (j : Nat) : Word := (chan s c n).bank.getD j 0
def peOfSlot (s : State) (c : Fin 64) (n : Fin 4) (j : Nat) : Nat := localPe c (cpCtl s c n).column (cpFirst s c n + j)

/-- The plane phase may make its next access: the course is not running ahead, and no bit error lies in the planes. -/
def PlaneTurn (s : State) (c : Fin 64) (n : Fin 4) : Prop :=
  (chan s c n).st = 2 ∧ courseSpeculative s c = false ∧ (chan s c n).planes < (cpCtl s c n).width ∧
  (chan s c n).bad = none ∧ s.peErr = [] ∧ cpFirst s c n + cpCount s c n ≤ 1024

end Sys2Proof.Claims

/-- R5, R51, R57: a START on an idle channel whose registers pass the checks begins a transfer; on one that is moving it
changes nothing but is answered; an ABORT stops the transfer, and the channel's status is ABORTED, releases a READY
bank, and on an idle channel writes the register alone; reserved bits that it sets are recorded. Says where these
complete: CP_START, CP_ABORT. Some of its clauses rest on the model's own choices: log entry 41. -/
def Obligations.CoursePortCommands : Prop :=
  ∀ (c : Fin 64) (n : Fin 4) (v : Reg32) (s : State), Memory.wf s = true → (course s c).ready = true →
    let k := chan s c n
    let s' := withCtrl s c n (v ||| 1)
    (k.st = 0 → v.getLsbD 1 = false → startBad s' c n = none →
      ((cpCtl s' c n).outbound = true ∨ (cpCtl s' c n).source = 0) →
      exec (.cpStart c n v none) s = .next (setChan s' c n { Chan.reset with
        st := if (cpCtl s' c n).outbound then 2 else 1, gen := k.gen + 1,
        sync := !(cpCtl s' c n).cont && ((cpCtl s' c n).format == 1 || (cpCtl s' c n).format == 2) })) ∧
    (k.st = 0 → v.getLsbD 1 = false → startBad s' c n = none → (cpCtl s' c n).outbound = false →
      (cpCtl s' c n).source = 1 → Does (.cpStart c n v none) s (fun t => (chan t c n).st = 1 ∧ (chan t c n).bank = [] ∧
        (chan t c n).waiting = min 32 (cpCount s' c n) ∧ t.pe = s.pe ∧ t.store = s.store)) ∧
    (∀ st, k.st = 0 → v.getLsbD 1 = false → startBad s' c n = some st →
      exec (.cpStart c n v none) s = .next (setRegBits s' (cpReg c n 0x10) 9 2 st.toNat)) ∧
    (k.st ≠ 0 → v.getLsbD 1 = false → exec (.cpStart c n v none) s = .next s) ∧
    (k.st = 0 → exec (.cpAbort c n v none) s = .next (withCtrl s c n (v ||| 2))) ∧
    ((k.st = 1 ∨ k.st = 2) → k.owner = none → exec (.cpAbort c n v none) s = .next (setRegBits
      (setChan (warned s c n v) c n { Chan.reset with gen := k.gen, consumed := k.consumed }) (cpReg c n 0x10) 9 2 0x02)) ∧
    (k.st = 3 → exec (.cpAbort c n v none) s = .next (setChan (warned s c n v) c n { k with st := 0, bank := [] }))

namespace Sys2Proof.Claims

/-- The packet is on its way, `rest` being the others, and arrives in this device at the open NI `np` with a legal form: no
earlier packet of its stream precedes it, no failed link holds it, its port has room, and the host's link takes it (R246,
R251, R255). -/
structure Arrives (t : Nat) (p : Packet) (s : State) (rest : List Sent) (np : Nat × Nat) : Prop where
  sent  : takeSent (mkSent t p) s.flight = some rest
  here  : p.ddev = ownDev s
  port  : portOf s p.dst (match sourcePort s p with
    | some q => q.1
    | none => 0) = some np
  form  : formOk t p = true
  plain : clsOf p.dst ≠ 0xA
  first : isBehind s (mkSent t p) s.flight = false
  free  : linkHolds s (mkSent t p) = false
  room  : portRoom s (mkSent t p) = true
  host  : waitsForHost s (mkSent t p) = false
  isOpen : niState s np = 0

/-- The response of a request can leave its NI (R255). -/
def CanAnswer (s : State) (p : Packet) : Prop :=
  let r := respOf s p stOK []
  (sourcePort s r).isSome = true ∧ (∀ np, sourcePort s r = some np → sourceBad s r np = false) ∧ isHeld s r = false

/-- The request has left the network, and this response is on its way. -/
def Answered (s t : State) (rest : List Sent) (p : Packet) (st : Status) (data : List Word) : Prop :=
  let r := respOf s p st data
  t.flight = rest ++ [{ mkSent ptResp r with via := viaOf s r }] ∧ t.heldBack = s.heldBack

/-- An inbound CP_PUSH transfer of the channel waits for words. -/
def Filling (s : State) (c : Fin 64) (n : Fin 4) : Prop :=
  (chan s c n).st = 1 ∧ (cpCtl s c n).outbound = false ∧ (cpCtl s c n).source = 0 ∧
  (chan s c n).bank.length < cpCount s c n

end Sys2Proof.Claims

/-- R44, R45, R47: words pushed to a channel fill its slots in order; an S24 word in sequence fills one slot, one that
comes d words late leaves d gaps and then fills its slot, one from behind is dropped and counted, and a marked word is a
gap; words that no transfer of the channel waits for are discarded and counted. -/
def Sys2Proof.Claims.coursePortWords : Prop :=
  ∀ (c : Fin 64) (p : Packet) (rest : List Sent) (np : Nat × Nat) (s : State), Memory.wf s = true →
    Arrives ptCpPush p s rest np → p.dst = ident 0 c.val →
    let n := Fin.ofNat 4 p.arg.toNat
    let fills := Filling s c n
    let k := cpCtl s c n
    let bank := (chan s c n).bank
    let left := cpCount s c n - bank.length
    let bankOf := fun (t : State) => (chan t c n).bank
    (∃ t, exec (.cpPush p) s = .next t ∧ t.flight = rest ∧ t.pe = s.pe ∧ t.store = s.store) ∧
    (¬ fills → Does (.cpPush p) s (fun t => t.flight = rest ∧ t.pe = s.pe ∧ bankOf t = bank ∧
      regBits t (cpReg c n 0x10) 31 22 = min (regBits s (cpReg c n 0x10) 31 22 + p.data.length) 1023)) ∧
    (fills → k.format = 0 → p.data.length < left → Does (.cpPush p) s (fun t => t.flight = rest ∧ t.pe = s.pe ∧ t.store = s.store ∧
      bankOf t = bank ++ p.data.map (fun w => BitVec.ofNat 40 (w.toNat % 2 ^ k.width)) ∧ (chan t c n).st = 1)) ∧
    (fills → k.format ≠ 0 → (chan s c n).sync = false → 1 < left → ∀ w : Word, p.data = [w] →
      let d := (w.extractLsb' 24 8).toNat + 256 - cpExpected s c n
      Does (.cpPush p) s (fun t => t.flight = rest ∧ t.pe = s.pe ∧
        (if w.extractLsb' 32 7 ≠ 0 then bankOf t = bank ++ [0x7FC0000000] ∧ cpExpected t c n = (cpExpected s c n + 1) % 256
         else if d % 256 = 0 then bankOf t = bank ++ [slotValue k w] ∧ cpExpected t c n = (cpExpected s c n + 1) % 256
         else if 128 ≤ d % 256 then bankOf t = bank ∧ cpExpected t c n = cpExpected s c n
         else if d % 256 < left then
           bankOf t = bank ++ List.replicate (d % 256) 0x7FC0000000 ++ [slotValue k w] ∧
           cpExpected t c n = ((w.extractLsb' 24 8).toNat + 1) % 256
         else bankOf t = bank ++ List.replicate left 0x7FC0000000))) ∧
    (fills → k.format ≠ 0 → (chan s c n).sync = true → ∀ w : Word, p.data = [w] → w.extractLsb' 32 7 = 0 →
      Does (.cpPush p) s (fun t => t.flight = rest ∧ t.pe = s.pe ∧ bankOf t = bank ++ [slotValue k w] ∧
        cpExpected t c n = ((w.extractLsb' 24 8).toNat + 1) % 256 ∧ (chan t c n).sync = false))

/-- R46, R49, R50: each plane access of a transfer writes the bit of every slot to its PE and leaves every other PE, or
reads it from there, and after the last one its words leave; a transfer that has done all its work ends with its status, which
its owner receives, a PORT bank becoming READY with status OK. -/
def Sys2Proof.Claims.coursePortPlanes : Prop :=
  ∀ (c : Fin 64) (n : Fin 4) (s : State), Memory.wf s = true →
    let k := chan s c n
    let a := cpBase s c n + k.planes
    let old := cget zeroes s.pe a
    (PlaneTurn s c n → (cpCtl s c n).outbound = false → k.bank.length = cpCount s c n →
      Does (.cpPlaneWrite c n) s (fun t =>
        (∀ j, j < cpCount s c n → (cget zeroes t.pe a).getLsbD (peOfSlot s c n j) = (slotOf s c n j).getLsbD k.planes) ∧
        (∀ q, (∀ j, j < cpCount s c n → peOfSlot s c n j ≠ q) → (cget zeroes t.pe a).getLsbD q = old.getLsbD q) ∧
        (∀ key, key ≠ a → cget zeroes t.pe key = cget zeroes s.pe key) ∧ (chan t c n).planes = k.planes + 1 ∧
        t.store = s.store)) ∧
    (PlaneTurn s c n → (cpCtl s c n).outbound = true →
      (k.planes = 0 ∨ k.bank.length = cpCount s c n) →
      Does (.cpPlaneWrite c n) s (fun t => t.pe = s.pe ∧ t.store = s.store ∧ (chan t c n).planes = k.planes + 1 ∧
        (chan t c n).st = (if k.planes + 1 < (cpCtl s c n).width then 2 else 1) ∧
        ∀ j, j < cpCount s c n → slotOf t c n j = (if k.planes = 0 then 0 else slotOf s c n j) |||
          (if old.getLsbD (peOfSlot s c n j) then BitVec.ofNat 40 (2 ^ k.planes) else 0))) ∧
    (transferDone s c n = true →
      let st := k.bad.getD stOK
      Does (.cpCompletion c n) s (fun t => regBits t (cpReg c n 0x10) 9 2 = st.toNat ∧ t.pe = s.pe ∧ t.store = s.store ∧
        (chan t c n).st = (if (cpCtl s c n).outbound = false ∧ (cpCtl s c n).port = true ∧ st = stOK then 3 else 0) ∧
        (k.owner = none → t.flight = s.flight) ∧
        (∀ q, k.owner = some q → CanAnswer s q → Answered s t s.flight q st [])))

/-- R32, R34 to R36: the scrubber removes the single-bit errors of one plane and goes on to the next; FAST asks for a
pass over every plane, which is suspended while the bow of an attached course executes and clears FAST at its end;
the oldest write-back of the queue makes its plane sound; the memory clear makes every plane of the course 0 and
leaves those of the others. Says where these complete: SCRUB_PLANE, SCRUB_FAST_REQUEST, ECC_WRITEBACK,
HW_MEMORY_CLEAR. Some of its clauses rest on the model's own choices: log entry 133. -/
def Obligations.CourseMemory : Prop :=
  ∀ (c : Fin 64) (s : State), Memory.wf s = true →
    let a := regBits s (crsReg c 0x54) 13 0
    let left := if (course s c).fastLeft = 0 then 16384 else (course s c).fastLeft
    let fast := (reg s (crsReg c 0x50)).getLsbD 1
    let scrubbed := fun (t : State) => t.pe = s.pe ∧ regBits t (crsReg c 0x54) 13 0 = (a + 1) % 16384 ∧
      t.peErr = s.peErr.filter (fun e => !(e.course == c && e.plane.toNat == a && singleBit e))
    ((course s c).ready = true → (reg s (crsReg c 0x50)).getLsbD 0 = true →
      (fast = false → Does (.scrubPlane c) s (fun t => scrubbed t ∧ (a = 16383 → (reg t (crsReg c 0x50)).getLsbD 2 = true))) ∧
      (fast = true → bowExecutes s c = true → exec (.scrubPlane c) s = .next s) ∧
      (fast = true → bowExecutes s c = false → Does (.scrubPlane c) s (fun t => scrubbed t ∧
        (course t c).fastLeft = left - 1 ∧ (reg t (crsReg c 0x50)).getLsbD 1 = decide (left ≠ 1) ∧
        (left = 1 → (reg t (crsReg c 0x50)).getLsbD 2 = true)))) ∧
    ((course s c).ready = true → exec (.scrubFastRequest c) s = .next
      (setCourse (setRegBits s (crsReg c 0x50) 1 1 1) c { course s c with fastLeft := left })) ∧
    (∀ e rest, (course s c).eccQueue = e :: rest → Does (.eccWriteback c) s (fun t =>
      (course t c).eccQueue = rest ∧ t.pe = s.pe ∧ t.regs = s.regs ∧
      t.peErr = s.peErr.filter (fun x => !(x.course == c && x.group == e.1 && x.plane == e.2 && singleBit x)))) ∧
    ((course s c).ready = false → s.mode ≠ .standby → s.mode ≠ .sleep → s.mode ≠ .sentinel → Does (.hwMemoryClear c) s (fun t => (course t c).ready = true ∧
      (∀ key, cget zeroes t.pe key = cget zeroes s.pe key &&& ~~~(courseMask c)) ∧
      (∀ x ∈ t.peErr, x.course ≠ c) ∧ t.store = s.store))

/-! ### Packets -/

namespace Sys2Proof.Claims

/-- The word at an address that holds a lane of one of two words in each lane (R268). -/
def mixed (old new : Word) (m : BitVec 5) : Word := mergeLanes old new m

/-- The requests of the store's words: the range is the requester's (R255, R275), and no word holds a bit error. -/
def StoreServes (t : Nat) (p : Packet) (s : State) : Prop :=
  clsOf p.dst = 2 ∧ storeRange t s p = true ∧ s.storeErr = []

/-- Of all words of the store, only the one at `a` has changed, to `v`. -/
def OneWord (s t : State) (a : Nat) (v : Word) : Prop :=
  ∀ x, storeWord t x = if x = a then v else storeWord s x

end Sys2Proof.Claims

/-- R245, R260, R264, R268, R273: RD answers with the words from ADDR on, or where the other port writes the word with
UNDEF_READ and some mixture by lane of the old and the new word; WR replaces the enabled lanes of the words and nothing
else; FETCH_ADD adds, SWAP replaces, and both answer with the old word. -/
def Sys2Proof.Claims.storePackets : Prop :=
  ∀ (p : Packet) (rest : List Sent) (np : Nat × Nat) (s : State), Memory.wf s = true → CanAnswer s p →
    let a := p.addr.toNat
    let v := p.data.headD 0
    let p0 := atomicPacket 0 p
    let p1 := atomicPacket 1 p
    (Arrives ptRd p s rest np → StoreServes ptRd p s → Does (.rd p []) s (fun t => t.store = s.store ∧ t.shadow = s.shadow ∧
      Answered s t rest p stOK ((List.range p.words.toNat).map (fun i => storeWord s (a + i))))) ∧
    (∀ l d, Arrives ptRd p s rest np → StoreServes ptRd p s → p.words = 1 →
      Does (.rd p [(a, .write l d)]) s (fun t => t.store = s.store ∧ t.shadow = s.shadow ∧
        ∃ m, Answered s t rest p stUndefRead [mixed (storeWord s a) (mergeLanes (storeWord s a) d l) m])) ∧
    (Arrives ptWr p s rest np → StoreServes ptWr p s → p.lanes ≠ 0 → Does (.wr p []) s (fun t =>
      (p.arg ≠ 1 → t.flight = rest) ∧ (p.arg = 1 → Answered s t rest p stOK []) ∧
      ∀ x, storeWord t x = if a ≤ x ∧ x < a + p.words.toNat
        then mergeLanes (storeWord s x) (p.data.getD (x - a) 0) p.lanes else storeWord s x)) ∧
    (Arrives ptAtomic p0 s rest np → StoreServes ptAtomic p0 s → p.lanes = 0b11111 → Does (.fetchAdd p .none) s (fun t =>
      Answered s t rest p stOK [storeWord s a] ∧ OneWord s t a (storeWord s a + v))) ∧
    (Arrives ptAtomic p1 s rest np → StoreServes ptAtomic p1 s → p.lanes = 0b11111 → Does (.swap p .none) s (fun t =>
      Answered s t rest p stOK [storeWord s a] ∧ OneWord s t a v))

/-- R267, R269: where both ports write a word in one cycle, the N port's write or atomic operation loses while the D port
has priority: the word stays as it is and the answer is COLLIDED. -/
def Sys2Proof.Claims.storeCollisions : Prop :=
  ∀ (p : Packet) (rest : List Sent) (np : Nat × Nat) (s : State) (m : Meet), Memory.wf s = true → CanAnswer s p →
    meetsWrite m = true → prioD s = true → p.lanes = 0b11111 → p.words = 1 →
    let a := p.addr.toNat
    let p0 := atomicPacket 0 p
    let p1 := atomicPacket 1 p
    (Arrives ptWr p s rest np → StoreServes ptWr p s → p.arg = 1 → Does (.wr p [(a, m)]) s (fun t =>
      t.store = s.store ∧ t.shadow = s.shadow ∧ Answered s t rest p stCollided [])) ∧
    (Arrives ptAtomic p0 s rest np → StoreServes ptAtomic p0 s → Does (.fetchAdd p m) s (fun t =>
      t.store = s.store ∧ t.shadow = s.shadow ∧ Answered s t rest p stCollided [])) ∧
    (Arrives ptAtomic p1 s rest np → StoreServes ptAtomic p1 s → Does (.swap p m) s (fun t =>
      t.store = s.store ∧ t.shadow = s.shadow ∧ Answered s t rest p stCollided []))

namespace Sys2Proof.Claims

/-- The register of a window's head or tail, and what an accepted advance by n makes of it: the index wraps at LENGTH and
each wrap flips the lap bit (R272, R274). -/
def ringReg (w : Fin 16) (tail : Bool) : Nat := winReg w (if tail then 0x14 else 0x10)
def advanced (s : State) (w : Fin 16) (tail : Bool) (n : Nat) : Nat × Nat :=
  let v := reg s (ringReg w tail)
  ((bitsOf v.toNat 20 0 + n) % winLen s w, (bitsOf v.toNat 21 21 + (bitsOf v.toNat 20 0 + n) / winLen s w) % 2)

/-- The advance would overrun the occupancy of the window (R274). -/
def overruns (s : State) (w : Fin 16) (tail : Bool) (n : Nat) : Prop :=
  if tail then winLen s w < winUsed s w + n else winUsed s w < n

end Sys2Proof.Claims

/-- R272, R274: RING_ADVANCE moves the head or the tail of a window unless that overruns its occupancy, and answers with
the index before and whether it was refused. Says where these complete: RING_ADVANCE. Some of its clauses rest on
the model's own choices: log entry 26. -/
def Obligations.RingAdvances : Prop :=
  ∀ (p : Packet) (rest : List Sent) (np : Nat × Nat) (s : State) (w : Fin 16) (tail : Bool), Memory.wf s = true →
    CanAnswer s p → Arrives ptAtomic (atomicPacket 2 p) s rest np → clsOf p.dst = 2 → p.lanes = 0b11111 →
    p.addr = BitVec.ofNat 21 (w.val + 16 * tail.toNat) → winOn s w = true → 1 ≤ winLen s w →
    (p.data.headD 0).toNat < 2 ^ 21 →
    let n := (p.data.headD 0).toNat
    let old := bitsOf (reg s (ringReg w tail)).toNat 21 0
    (¬ overruns s w tail n → Does (.ringAdvance p) s (fun t => t.store = s.store ∧ Answered s t rest p stOK [BitVec.ofNat 40 old] ∧
      regBits t (ringReg w tail) 20 0 = (advanced s w tail n).1 ∧ regBits t (ringReg w tail) 21 21 = (advanced s w tail n).2 ∧
      reg t (ringReg w (!tail)) = reg s (ringReg w (!tail)))) ∧
    (overruns s w tail n → Does (.ringAdvance p) s (fun t => t.store = s.store ∧
      Answered s t rest p stOK [BitVec.ofNat 40 (old + 2 ^ 39)] ∧
      reg t (ringReg w tail) = reg s (ringReg w tail) ∧ reg t (ringReg w (!tail)) = reg s (ringReg w (!tail))))

/-- R47, R245, R255, R264, R293: REG_RD answers with the register of its target; a REG_WR of a course's 32-bit RW register writes
it; HOST_RD answers with the host's words, or TIMEOUT; HOST_WR writes host memory; NOTIFY leaves the network, and at
a logical course or the store, which serve none, is counted as BAD_DESCRIPTOR. -/
def Sys2Proof.Claims.registerAndHostPackets : Prop :=
  ∀ (p : Packet) (rest : List Sent) (np : Nat × Nat) (s : State) (c : Fin 64), Memory.wf s = true →
    let o := p.addr.toNat
    (∀ fs, Arrives ptRegRd p s rest np → CanAnswer s p → p.dst = ident 0 c.val → o < 0x400 → regLayout (crsReg c o) = some fs →
      Does (.regRd p) s (fun t => t.store = s.store ∧ t.pe = s.pe ∧ Answered s t rest p stOK
        [(regView s (crsReg c o) &&& ~~~(BitVec.ofNat 32 (maskOf [.wo] fs))).setWidth 40])) ∧
    (∀ fs, Arrives ptRegRd p s rest np → CanAnswer s p → clsOf p.dst = 2 → o < 0x300 → regLayout (0x30000 + o) = some fs →
      o ≠ 0x90 → Does (.regRd p) s (fun t => t.store = s.store ∧ Answered s t rest p stOK
        [(reg s (0x30000 + o) &&& ~~~(BitVec.ofNat 32 (maskOf [.wo] fs))).setWidth 40])) ∧
    (Arrives ptRegWr p s rest np → p.arg = 0 → wholeReg p = true → p.dst = ident 0 c.val → o < 0x100 → regLayout (crsReg c o) = rw32 →
      Does (.regWr p) s (fun t => t.flight = rest ∧ t.pe = s.pe ∧
        t.regs = (setReg (ejected s (mkSent ptRegWr p)) (crsReg c o) ((p.data.headD 0).setWidth 32)).regs)) ∧
    (∀ ws, Arrives ptHostRd p s rest np → CanAnswer s p → clsOf p.dst = 4 → ws.length = p.words.toNat →
      Does (.hostRd p (some ws)) s (fun t => t.store = s.store ∧ t.host = s.host ∧ Answered s t rest p stOK ws)) ∧
    (Arrives ptHostRd p s rest np → CanAnswer s p → clsOf p.dst = 4 → Does (.hostRd p none) s (fun t =>
      Answered s t rest p stTimeout [] ∧ (reg t 0x1008).getLsbD 3 = true ∧ t.host = s.host)) ∧
    (Arrives ptHostWr p s rest np → clsOf p.dst = 4 → p.arg = 0 → p.lanes = 0b11111 → Does (.hostWr p) s (fun t => t.flight = rest ∧
      (∀ i j, i < p.words.toNat → j < 8 → cget zeroes t.host (p.host.toNat + 8 * i + j) =
        BitVec.ofNat 8 ((p.data.getD i 0).toNat / 2 ^ (8 * j))) ∧
      (∀ x, (x < p.host.toNat ∨ p.host.toNat + 8 * p.words.toNat ≤ x) → cget zeroes t.host x = cget zeroes s.host x))) ∧
    (Arrives ptNotify p s rest np → clsOf p.dst ≠ 0 → clsOf p.dst ≠ 2 → clsOf p.dst ≠ 3 →
      exec (.notify p) s = .next { ejected s (mkSent ptNotify p) with flight := rest }) ∧
    (Arrives ptNotify p s rest np → (clsOf p.dst = 0 ∨ clsOf p.dst = 2) → Does (.notify p) s (fun t => t.flight = rest ∧
      MemoryKept s t ∧ regBits t (niReg np 8) 15 0 = min (regBits s (niReg np 8) 15 0 + 1) 65535 ∧
      regBits t (niReg np 8) 23 16 = 0x10))

/-- R156, R157, R257: a response reaches its bow: a load's word goes to its destination and BF.V shows whether the status
is OK; another status gives zero and stands in LASTSTATUS; an acknowledgement other than OK is kept. -/
def Sys2Proof.Claims.responsesReachBows : Prop :=
  ∀ (p : Packet) (rest : List Sent) (np : Nat × Nat) (s : State) (b : Fin 16) (ask : Ask) (nc : Nat), Memory.wf s = true →
    Arrives ptResp p s rest np → p.dst = ident 1 b.val → (bow s b).window = none →
    let c : Ctx := if p.tag.getLsbD 7 then .u else .n
    let k := ctx s b c
    let st := respStatus p
    k.asks = [ask] → ask.tag = p.tag →
    (∀ dst pc word, ask.kind = .load dst pc word → modeOf dst = 5 → st ≠ stEccUncorrected →
      Does (.resp p nc) s (fun t => t.flight = rest ∧ MemoryKept s t ∧ (bow t b).dmem = (bow s b).dmem ∧
        ctx t b c = { k with
          asks := []
          s := k.s.set (dst.extractLsb' 0 4).toNat (if st = stOK ∨ st = stUndefRead then p.data.headD 0 else 0)
            (dst.extractLsb' 0 4).isLt
          bf := putBf k.bf bfV (decide (st ≠ stOK)), lastStatus := if st = stOK then k.lastStatus else st })) ∧
    (∀ dst pc word, ask.kind = .load dst pc word → isMem dst = true → st ≠ stEccUncorrected →
      Does (.resp p nc) s (fun t => t.flight = rest ∧ MemoryKept s t ∧ (ctx t b c).s = k.s ∧
        (bow t b).dmem = cset zeroes (bow s b).dmem (fieldOf dst).toNat
          (if st = stOK ∨ st = stUndefRead then p.data.headD 0 else 0))) ∧
    (ask.kind = .post → k.ackBad = none → Does (.resp p nc) s (fun t => t.flight = rest ∧ MemoryKept s t ∧
      ctx t b c = { k with asks := [], ackBad := if st = stOK then none else some st })) ∧
    (∀ dst pc word, ask.kind = .load dst pc word → st = stEccUncorrected → k.run = .running → k.th = false →
      k.deliveries = [] → Does (.resp p nc) s (fun t => (ctx t b c).th = true ∧ (ctx t b c).trapPc = pc ∧
        (ctx t b c).trapWord = word ∧ (ctx t b c).trapCause = 8 ∧ (ctx t b c).pc = 16 ∧ (ctx t b c).lastStatus = st ∧
        MemoryKept s t))

/-- R254, R255: a request that arrives is checked in order: an illegal form is answered with BAD_DESCRIPTOR, an address
out of range with BAD_ADDRESS, a closed NI with DOMAIN_OFF; each is counted at the NI, and nothing is read or
written. Some of its clauses rest on the model's own choices: log entries 25, 61 and 76. -/
def Obligations.ArrivalChecks : Prop :=
  ∀ (p : Packet) (rest : List Sent) (np : Nat × Nat) (s : State) (meets : List (Nat × Meet)), Memory.wf s = true →
    takeSent (mkSent ptRd p) s.flight = some rest → p.ddev = ownDev s → clsOf p.dst = 2 →
    portOf s p.dst (match sourcePort s p with
      | some q => q.1
      | none => 0) = some np → isBehind s (mkSent ptRd p) s.flight = false → linkHolds s (mkSent ptRd p) = false →
    CanAnswer s p →
    let failed := fun (st : Status) => Does (.rd p meets) s (fun t => Answered s t rest p st [] ∧ MemoryKept s t ∧
      regBits t (niReg np 8) 15 0 = min (regBits s (niReg np 8) 15 0 + 1) 65535 ∧
      regBits t (niReg np 8) 23 16 = st.toNat)
    (formOk ptRd p = false → failed stBadDescriptor) ∧
    (formOk ptRd p = true → storeRange ptRd s p = false → failed stBadAddress) ∧
    (formOk ptRd p = true → storeRange ptRd s p = true → niState s np ≠ 0 → failed stDomainOff)

/-! ### The D ports and the store's own events -/

namespace Sys2Proof.Claims

/-- The connection's quadrant runs, the store is powered and cleared, and no word holds a bit error (R265, R277, R294). -/
def DServes (a : DAccess) (s : State) : Prop :=
  quadState s a.port = 2 ∧ storeIsOn s = true ∧ (reg s 0x30004).getLsbD 0 = false ∧ s.storeErr = []

/-- The result of an access appears at its connection. -/
def dResult (a : DAccess) (t : State) : DResult := t.dresult[a.port]

/-- The words of the store are as they were. -/
def StoreKept (s t : State) : Prop := t.store = s.store ∧ t.shadow = s.shadow

/-- The window that an access names is enabled, and its offset lies in it (R271). -/
def inWindow (a : DAccess) (s : State) : Prop := winOn s (dWin a) = true ∧ dOff a < winLen s (dWin a)

/-- The D port's write wins or meets none: no meeting, a read, or a write of a port without priority (R267). -/
def Wins (a : DAccess) (s : State) : Prop := meetsWrite a.meet = false ∨ prioD s = true

end Sys2Proof.Claims

/-- R265, R267, R269, R271, R273, R274: an access of a D port reads, writes, adds, swaps or advances as a packet does,
by address or by window offset from the head or the tail, and its result appears at its connection; one that loses a
meeting changes nothing and reads COLLIDED with BUSY, and a read that meets a write delivers some mixture by lane;
OP 7 reads BAD_DESCRIPTOR. Says where these complete: DP_READ, DP_WRITE, DP_FETCH_ADD, DP_SWAP, DP_RING_ADVANCE,
DP_WREAD, DP_WWRITE. Some of its clauses rest on the model's own choices: log entries 17, 18, 75 and 82. -/
def Obligations.StorePorts : Prop :=
  ∀ (a : DAccess) (s : State), Memory.wf s = true → DServes a s →
    (a.op7 = true → ∀ c ∈ [Instr.dpRead a, .dpWrite a, .dpFetchAdd a, .dpSwap a, .dpRingAdvance a, .dpWread a, .dpWwrite a],
      Does c s (fun t => StoreKept s t ∧ t.regs = s.regs ∧ (dResult a t).rvalid = true ∧ (dResult a t).status = 0x10)) ∧
    (a.op7 = false →
    let x := a.addr.toNat
    let head := headElem s (dWin a) (dOff a)
    let tail := tailElem s (dWin a) (dOff a)
    let reads := fun (c : Instr) (y : Nat) => meetsWrite a.meet = false → Does c s (fun t => StoreKept s t ∧
      dResult a t = { rvalid := true, rdata := storeWord s y, status := stOK, busy := false })
    let writes := fun (c : Instr) (y : Nat) => Wins a s → a.lanes ≠ 0 → Does c s (fun t =>
      OneWord s t y (mergeLanes (storeWord s y) a.wdata a.lanes) ∧ (dResult a t).rvalid = true ∧
      (dResult a t).status = stOK ∧ (dResult a t).busy = (yields s true && a.meet == .read))
    let swaps := fun (c : Instr) (v : Word) => Wins a s → a.lanes = 0b11111 → Does c s (fun t =>
      OneWord s t x v ∧ dResult a t = { rvalid := true, rdata := storeWord s x, status := stOK,
                                        busy := yields s true && a.meet == .read })
    let loses := fun (c : Instr) => meetsWrite a.meet = true → prioD s = false → a.lanes = 0b11111 → Does c s (fun t =>
      StoreKept s t ∧ (dResult a t).status = stCollided ∧ (dResult a t).busy = true ∧ t.pins.storeBusy = true)
    let undef := fun (c : Instr) (y : Nat) => ∀ l d, a.meet = .write l d → Does c s (fun t => StoreKept s t ∧
      ∃ m, dResult a t = { rvalid := true, rdata := mixed (storeWord s y) (mergeLanes (storeWord s y) d l) m,
                           status := stUndefRead, busy := yields s true })
    (x < secureBase → reads (.dpRead a) x) ∧ (inWindow a s → reads (.dpWread a) head) ∧
    (x < secureBase → writes (.dpWrite a) x) ∧ (inWindow a s → writes (.dpWwrite a) tail) ∧
    (x < secureBase → swaps (.dpFetchAdd a) (storeWord s x + a.wdata)) ∧ (x < secureBase → swaps (.dpSwap a) a.wdata) ∧
    (x < secureBase → undef (.dpRead a) x) ∧ (inWindow a s → undef (.dpWread a) head) ∧
    (inWindow a s → loses (.dpWwrite a)) ∧ (x < secureBase → loses (.dpWrite a)) ∧ (x < secureBase → loses (.dpFetchAdd a)) ∧ (x < secureBase → loses (.dpSwap a)) ∧
    (∀ w top, a.lanes = 0b11111 → a.addr = BitVec.ofNat 21 (w.val + 16 * top.toNat) → winOn s w = true →
      1 ≤ winLen s w → a.wdata.toNat < 2 ^ 21 → ¬ overruns s w top a.wdata.toNat →
      Does (.dpRingAdvance a) s (fun t => StoreKept s t ∧
        dResult a t = { rvalid := true, rdata := BitVec.ofNat 40 (bitsOf (reg s (ringReg w top)).toNat 21 0),
                        status := stOK, busy := false } ∧
        regBits t (ringReg w top) 20 0 = (advanced s w top a.wdata.toNat).1 ∧
        regBits t (ringReg w top) 21 21 = (advanced s w top a.wdata.toNat).2)))

namespace Sys2Proof.Claims

/-- Every word of the store reads as before. -/
def SameWords (s t : State) : Prop := ∀ a, storeWord t a = storeWord s a

/-- The shadow holds one block: its keys lie below 4096. -/
def ShadowFits (s : State) : Prop := ∀ e ∈ s.shadow, e.1 < 4096

end Sys2Proof.Claims

/-- R278: a lease of a block goes from COPY over REDIRECT to RESTORE and ends, and at each of these steps every word of
the store reads as before; a faulty block stays redirected. Says where these complete: STORE_LEASE_START,
STORE_LEASE_COPY_DONE, STORE_LEASE_TEST_DONE, STORE_LEASE_RESTORE_DONE. Some of its clauses rest on the model's own
choices: log entries 3 and 81. -/
def Obligations.LeasesAreTransparent : Prop :=
  ∀ (s : State) (b : BitVec 9) (m : BitVec 8), Memory.wf s = true → ShadowFits s →
    let at' := fun (t : State) (st : LeaseState) (kept : Bool) => t.lease.st = st ∧ t.lease.retained = kept ∧ SameWords s t
    (s.lease.st = .none → b.toNat < 496 → s.policy.storeTest = true → storeIsOn s = true →
      Does (.storeLeaseStart b) s (fun t => at' t .copy false ∧ t.lease.block = b)) ∧
    (s.lease.st = .copy → Does .storeLeaseCopyDone s (fun t => at' t .redirect s.lease.retained ∧ t.lease.block = s.lease.block)) ∧
    (s.lease.st = .redirect → s.lease.retained = false →
      Does (.storeLeaseTestDone { fault := false, margin := m }) s (fun t => at' t .restore false ∧ t.lease.block = s.lease.block)) ∧
    (s.lease.st = .redirect → s.lease.retained = false →
      Does (.storeLeaseTestDone { fault := true, margin := m }) s (fun t => at' t .redirect true ∧ t.lease.block = s.lease.block)) ∧
    (s.lease.st = .restore → Does .storeLeaseRestoreDone s (fun t => at' t .none s.lease.retained))

/-- R263, R271, R277: the scrubber corrects a single-bit error of its row and goes on; FAST asks for a pass
of 65,536 rows, whose end clears it; a store that
is switched on reads zero everywhere, shows CLEARING until the clear has ended, and serves from then on; a window whose geometry fits is enabled, one that does not fit is not. -/
def Sys2Proof.Claims.storeEvents : Prop :=
  ∀ (s : State), Memory.wf s = true →
    let done := fun (t : State) => (reg t 0x30000).getLsbD 3 = true
    ((reg s 0x30000).getLsbD 1 = true → storeIsOn s = true → s.storeErr = [] → Does .storeScrub s (fun t =>
      t.scrubRow = s.scrubRow + 1 ∧ SameWords s t ∧ (s.scrubRow = 65535 → done t))) ∧
    (∀ e, (reg s 0x30000).getLsbD 1 = true → storeIsOn s = true → s.storeErr = [e] → e.multi = false →
      e.addr.toNat / 32 = s.scrubRow.toNat → s.lease.st = .none → Does .storeScrub s (fun t =>
        t.storeErr = [] ∧ t.scrubRow = s.scrubRow + 1 ∧ SameWords s t ∧
        regBits t 0x30010 31 0 = min (regBits s 0x30010 31 0 + 1) (2 ^ 32 - 1))) ∧
    (let left := if s.scrubLeft = 0 then 65536 else s.scrubLeft
     (reg s 0x30000).getLsbD 1 = true → (reg s 0x30000).getLsbD 2 = true → storeIsOn s = true → s.storeErr = [] →
      Does .storeScrub s (fun t => t.scrubLeft = left - 1 ∧ (reg t 0x30000).getLsbD 2 = decide (left ≠ 1))) ∧
    Does .storeScrubFast s (fun t => t.regs = (setRegBits s 0x30000 2 2 1).regs ∧ SameWords s t) ∧
    (s.mode = .idle → storeIsOn s = false → Does .storeClear s (fun t => storeIsOn t = true ∧ (∀ a, storeWord t a = 0) ∧
      t.storeErr = [] ∧ t.lease.st = .none ∧ t.pe = s.pe ∧ (reg t 0x30004).getLsbD 0 = true ∧
      storeServes t = false ∧ t.clearEnd = some (s.epoch + clearTicks))) ∧
    (∀ e, s.clearEnd = some e →
      (s.epoch < e → endClear s = s) ∧
      (e ≤ s.epoch → (reg (endClear s) 0x30004).getLsbD 0 = false ∧ (endClear s).clearEnd = none ∧ SameWords s (endClear s))) ∧
    (∀ w v, v.toNat = 1 → winFits s w = true → exec (.windowEnable w v) s = .next (setReg s (winReg w 0x0C) 1)) ∧
    (∀ w v, v.toNat = 1 → winFits s w = false → winOn s w = false → Does (.windowEnable w v) s (fun t =>
      t.regs = s.regs ∧ SameWords s t)) ∧
    (∀ w v, v.toNat = 0 → exec (.windowEnable w v) s = .next (setReg s (winReg w 0x0C) 0))

/-! ### Network events -/

namespace Sys2Proof.Claims

/-- A MARKER of either class. -/
def markerOn (second : Bool) (x : Packet) : Sent := { mkSent ptMarker x with via := if second then .second else .inside }

/-- The last MARKER of an identity's move stands alone in the network, on either class, and reaches the old port, no window
being open (R253, R408). -/
def LastMarker (s : State) (x : Packet) (c : Fin 64) (p : Fin 68) : Prop :=
  s.idMove = some (c, p) ∧ x.dst = ident 0 c.val ∧ x.ddev = ownDev s ∧
  (∃ second, s.flight = [markerOn second x] ∧ linkHolds s (markerOn second x) = false) ∧ courseSpeculative s c = false

end Sys2Proof.Claims

/-- R11, R243, R246, R253 to R255, R395: a flit that fails its check is counted and its link waits for the replay; a link
whose replays fail shows in its router, in the Logbook and on FAULT_N; an
identity move holds the NIs and sends its markers, the last of which switches the translation; a domain closes its NIs, loses its contents where it may be switched off, and opens again. -/
def Sys2Proof.Claims.networkEvents : Prop :=
  ∀ (s : State), Memory.wf s = true →
    (∀ (r : Fin 36) (l : Fin 4) (flit : BitVec 88) (n : Nat), flitSound flit = true →
      exec (.flitEccError r l ⟨flit, n⟩) s = .next s) ∧
    (∀ (r : Fin 36) (l : Fin 4) (flit : BitVec 88) (n : Nat), flitSound flit = false →
      Does (.flitEccError r l ⟨flit, n⟩) s (fun t => t.flight = s.flight ∧ MemoryKept s t ∧
        t.regs = (countUp s (0x20000 + r.val * 0x80 + 0x14) (8 * l.val + 7) (8 * l.val) 1).regs ∧
        mismatches t.torus (r.val, l.val) = mismatches s.torus (r.val, l.val) + 1 ∧
        ((r.val, l.val), s.torus.nc + 4 + min n 8) ∈ t.torus.holds)) ∧
    (∀ (r : Fin 36) (l : Fin 4), replaysFailed s r l = true → Does (.linkFailed r l) s (fun t =>
      (reg t (0x20000 + r.val * 0x80)).getLsbD 18 = true ∧ (r.val, l.val) ∈ t.torus.failed ∧
      FaultRow.link ∈ t.faults ∧ t.pins.faultN = false ∧ (reg t 0x70004).getLsbD 3 = true ∧ MemoryKept s t)) ∧
    (∀ (c : Fin 64) (p : Fin 68), mayMove s c p = true → Does (.identityMove c p) s (fun t => t.idMove = some (c, p) ∧
      t.lmap = s.lmap ∧ (reg t 0x23800).getLsbD 1 = true ∧ t.flight.length = s.flight.length + 2 * usedPorts.length ∧
      MemoryKept s t)) ∧
    (∀ (c : Fin 64) (p : Fin 68) (m : Packet) (rest : List Sent), s.idMove = some (c, p) → m.dst = ident 0 c.val →
      m.ddev = ownDev s →
      (s.flight = mkSent ptMarker m :: rest → linkHolds s (mkSent ptMarker m) = false →
        (∃ x ∈ rest, x.type.toNat = 9 ∧ x.pkt.dst = m.dst) →
        exec (.marker m) s = .next { ejected s (mkSent ptMarker m) with flight := rest }) ∧
      (LastMarker s m c p → s.heldBack = [] → s.migration = none →
        Does (.marker m) s (fun t => t.lmap = s.lmap.set c p ∧ t.pcourse[p] = .active ∧ t.idMove = none ∧ t.flight = [] ∧
          (reg t 0x23800).getLsbD 1 = false ∧ MemoryKept s t))) ∧
    (∀ (d : Fin 96) (np : Nat × Nat), d ≠ 95 → np ∈ closingPorts d.val → niState s np = 0 →
      Does (.domainClose d) s (fun t => niState t np = 1 ∧ t.flight = s.flight ∧ MemoryKept s t)) ∧
    (∀ (b : Fin 16), niState s (2 * b.val + 1, 2) = 1 → Does (.closeTimeout ⟨68 + b.val, by omega⟩) s (fun t =>
      niState t (2 * b.val + 1, 2) = 2 ∧ t.store = s.store ∧
      (bowUnused s b = true → (bow t b).powered = false ∧ (bow t b).dmem = [] ∧ domainOn t (68 + b.val) = false) ∧
      (bowUnused s b = false → bow t b = bow s b ∧ domainOn t (68 + b.val) = domainOn s (68 + b.val)))) ∧
    (∀ (n : Fin 36) (p : Fin 4), niUsed n.val p.val = true → niState s (n.val, p.val) = 2 → clientReady s (n.val, p.val) = true →
      exec (.niOpen n p) s = .next (setRegBits s (niReg (n.val, p.val) 0) 1 0 0)) ∧
    (∀ (b : Fin 16), domainOn s (68 + b.val) = true → bowUnused s b = true →
      Does (.domainPowerDown ⟨68 + b.val, by omega⟩) s (fun t => (bow t b).powered = false ∧ (bow t b).dmem = [] ∧
        niState t (2 * b.val + 1, 2) = 2 ∧ domainOn t (68 + b.val) = false ∧ MemoryKept s t))

/-! ### Admin commands for groups, patch sets, the network and the scheduler -/

namespace Sys2Proof.Claims

/-- The admin command has been accepted and its turn has come: no mode refuses it, host memory that it reads or writes is
there, and its completion has a place (R340, R355, R363). -/
structure InTurn (code : Nat) (d : Desc) (s : State) : Prop where
  type : descType d = 3
  code : descCode d = code
  queued : s.adminQ.contains d = true
  turn : atTurn s d = true
  gate : gateBad s d = none
  master : awaitsMaster s d = false
  pass : s.bootPass = none
  room : HasRoom s d

/-- The command has completed with this status and result. -/
def Completes (s t : State) (d : Desc) (st : Status) (result : BitVec 64) : Prop :=
  Posts s t d (completionOf d st 0 result) ∧ t.adminQ = dropDesc d s.adminQ

/-- It goes on without a completion yet. -/
def GoesOn (s t : State) (d : Desc) : Prop :=
  t.cq = s.cq ∧ t.accepted = s.accepted ∧ t.adminQ = dropDesc d s.adminQ

/-- Steps of the shorter way round a ring of six, the direction up where it is no longer, and the place after `k` of them
(R247). -/
def ringDist (a b : Nat) : Nat := min ((b + 6 - a) % 6) ((a + 6 - b) % 6)
def goesUp (a b : Nat) : Bool := decide ((b + 6 - a) % 6 ≤ 3)
def ringAt (a b k : Nat) : Nat := if goesUp a b then (a + k) % 6 else (a + 6 - k) % 6

/-- The dateline of a ring, the link between its places 5 and 0, has been crossed after `k` steps from `a`. -/
def crossed (a b k : Nat) : Bool := if goesUp a b then decide (6 ≤ a + k) else decide (a < k)

/-- The hop at index `i` of the way from port `p` of router `a` to port `q` of router `b` on a class: X before Y, the high VC
of the class behind the dateline of the ring travelled in (R247). -/
def hopOf (a b p q i low : Nat) : Hop :=
  let dx := ringDist (a % 6) (b % 6)
  let dy := ringDist (a / 6) (b / 6)
  let kx := min i dx
  let ky := i - dx
  { router := 6 * ringAt (a / 6) (b / 6) ky + ringAt (a % 6) (b % 6) kx
    inp := if i = 0 then 4 + p else if i ≤ dx then (if goesUp (a % 6) (b % 6) then 1 else 0) else
      if goesUp (a / 6) (b / 6) then 3 else 2
    vc := low + (if i = 0 then 0 else if i ≤ dx then (crossed (a % 6) (b % 6) kx).toNat else (crossed (a / 6) (b / 6) ky).toNat)
    out := if i < dx then (if goesUp (a % 6) (b % 6) then 0 else 1) else if i < dx + dy then
      (if goesUp (a / 6) (b / 6) then 2 else 3) else 4 + q }

end Sys2Proof.Claims

/-- R247: the way of a packet is the shorter one in X and then in Y, on the low VC of its class up to the dateline of a ring
and on the high one behind it. -/
def Sys2Proof.Claims.packetWays : Prop :=
  ∀ (a b : Fin 36) (p q : Fin 4) (resp : Bool),
    route (a.val, p.val) (b.val, q.val) resp =
      (List.range (ringDist (a.val % 6) (b.val % 6) + ringDist (a.val / 6) (b.val / 6) + 1)).map
        (fun i => hopOf a.val b.val p.val q.val i (if resp then 2 else 0))

/-- R256: NOC_RECONFIG quiesces its router and goes on; APPLY, once the router has drained, writes the new settings and
completes it; its time limit completes it with TIMEOUT and the old settings. -/
def Sys2Proof.Claims.reconfiguration : Prop :=
  ∀ (d : Desc) (s : State), Memory.wf s = true →
    let r := reconfigRouter d
    let o := 0x20000 + r.val * 0x80
    (InTurn 0x0011 d s → clearsUsed r.val (dle d 0x09 1) = false → s.reconfig = none → Does (.nocReconfig d) s (fun t =>
      t.reconfig = some { desc := d } ∧ regBits t o 17 16 = 1 ∧ regBits t o 15 0 = regBits s o 15 0 ∧
      (reg t 0x23800).getLsbD 0 = true ∧ GoesOn s t d ∧ MemoryKept s t)) ∧
    (s.reconfig = some { desc := d } → drained s.torus r.val = false → exec .reconfigApply s = .next s) ∧
    (s.reconfig = some { desc := d } → drained s.torus r.val = true → HasRoom s d → dle d 0x09 1 < 16 → dle d 0x0A 2 < 4096 →
      Does .reconfigApply s (fun t => t.reconfig = none ∧
      regBits t o 3 0 = dle d 0x09 1 ∧ regBits t o 15 4 = dle d 0x0A 2 ∧ reg t (o + 4) = BitVec.ofNat 32 (dle d 0x0C 4) ∧
      regBits t o 17 16 = 3 ∧ Posts s t d (completionOf d stOK 0 0) ∧ MemoryKept s t)) ∧
    (s.reconfig = some { desc := d } → HasRoom s d → Does .reconfigTimeout s (fun t => t.reconfig = none ∧
      regBits t o 15 0 = regBits s o 15 0 ∧ reg t (o + 4) = reg s (o + 4) ∧ regBits t o 17 16 = 0 ∧
      Posts s t d (completionOf d stTimeout 0 0) ∧ MemoryKept s t))

/-- R76 to R79, R341: CAPO_ASSIGN forms the held group of its rectangle, whose courses the bow then owns, and the others
of the bow leave; CAPO_RELEASE keeps the group as an ordinary one; CAPO_CLOCK changes the setting; SETUP_UNLOCK
clears SETUP_LOCK. Says where these complete: CAPO_ASSIGN, CAPO_RELEASE, CAPO_CLOCK, SETUP_UNLOCK. Some of its
clauses rest on the model's own choices: log entries 44, 45, 55, 117 and 120. -/
def Obligations.GroupCommands : Prop :=
  ∀ (d : Desc) (s : State), Memory.wf s = true →
    let b := capoBow d
    let r := capoRect d
    (InTurn 0x0001 d s → (rectCourses r).all (courseOpen s b true) = true → bowBusy (bow s b) = false →
      (bow s b).armed = none → reshapeHeld s b = false → Does (.capoAssign d) s (fun t => (bow t b).group = some r ∧
        (bow t b).held = true ∧ (∀ c ∈ rectCourses r, (course t c).owner = some b) ∧
        (∀ c, inRect r c = false → (course s c).owner = some b → (course t c).owner = none) ∧
        (∀ c q, inRect r c = false → q ≠ b → (course s c).owner = some q → (course t c).owner = some q) ∧
        Completes s t d stOK 0 ∧ t.store = s.store)) ∧
    (InTurn 0x0002 d s → (bow s b).held = true → (bow s b).group.isSome = true → bowBusy (bow s b) = false →
      Does (.capoRelease d) s (fun t => bow t b = { bow s b with held := false } ∧ t.courses = s.courses ∧
        Completes s t d stOK 0 ∧ MemoryKept s t)) ∧
    (InTurn 0x0003 d s → Does (.capoClock d) s (fun t => (bow t b).clockSet = BitVec.ofNat 5 (dle d 0x09 1) ∧
      (bow t b).n = (bow s b).n ∧ t.courses = s.courses ∧ Completes s t d stOK 0 ∧ MemoryKept s t)) ∧
    (InTurn 0x0009 d s → Does (.setupUnlock d) s (fun t => t.regs = (setRegBits s 0x1000 31 31 0).regs ∧
      (reg t 0x1000).getLsbD 31 = false ∧ Completes s t d stOK 0 ∧ MemoryKept s t))

/-- R208, R210, R212, R213: a sound patch image becomes pending in every bow named and in no other, unless a load runs; a
pending set is swapped in at a kernel boundary, as is one that a bad word asks to rewrite, and the swap holds the bow, the last swap completing the command; at its time limit the command completes with TIMEOUT. -/
def Sys2Proof.Claims.patchSets : Prop :=
  ∀ (d : Desc) (read : PatchImage) (s : State), Memory.wf s = true →
    let named := maskBows (patchMask d)
    let img := patchSource s d read
    let found := sourceFault s d 0x08 0x10 (dle d 0x0C 4)
    let live := named.map (fun b => (bow s b).patch.version.toNat)
    (InTurn 0x0010 d s → s.patchLoad = none → found = none → patchCheck img live = none →
      (∃ b ∈ named, (bow s b).powered = true) → Does (.patchLoad d read) s (fun t =>
        (∀ b ∈ named, bow t b = { bow s b with pending := some (patchSetOf img) }) ∧ (∀ b, b ∉ named → bow t b = bow s b) ∧
        t.patchLoad.isSome = true ∧ GoesOn s t d ∧ MemoryKept s t)) ∧
    (∀ st, InTurn 0x0010 d s → s.patchLoad = none → found = some st → Does (.patchLoad d read) s (fun t => t.bows = s.bows ∧
      t.patchLoad = none ∧ Posts s t d (completionOf d st 0 0))) ∧
    (∀ st detail, InTurn 0x0010 d s → s.patchLoad = none → found = none → patchCheck img live = some (st, detail) →
      Does (.patchLoad d read) s (fun t => t.bows = s.bows ∧ t.patchLoad = none ∧
        Posts s t d (completionOf d st (BitVec.ofNat 24 detail) 0))) ∧
    (InTurn 0x0010 d s → s.patchLoad.isSome = true → found = none →
      Does (.patchLoad d read) s (fun t => t.bows = s.bows ∧ t.patchLoad = s.patchLoad ∧
        Posts s t d (match patchCheck img live with
          | some (st, detail) => if st = stBadDescriptor then completionOf d st (BitVec.ofNat 24 detail) 0
              else completionOf d stNoResource 0 0
          | none => completionOf d stNoResource 0 0))) ∧
    (∀ b, (bow s b).pending = none → (bow s b).rewrite = true → (bow s b).powered = true → swapBoundary s b = true →
      Does (.patchSwap b) s (fun t => bow t b = { bow s b with
        patchErr := [], rewrite := false, swapEnd := some (s.epoch + BitVec.ofNat 64 (swapTicks (bow s b).patch)) } ∧
        t.patchLoad = s.patchLoad ∧ MemoryKept s t)) ∧
    (∀ b p l, (bow s b).pending = some p → (bow s b).powered = true → swapBoundary s b = true → s.patchLoad = some l →
      l.left = BitVec.ofNat 16 (2 ^ b.val) → HasRoom s l.desc → Does (.patchSwap b) s (fun t =>
        bow t b = { bow s b with
          patch := p, pending := none, patchErr := [], rewrite := false
          swapEnd := some (s.epoch + BitVec.ofNat 64 (swapTicks p)) } ∧ t.patchLoad = none ∧
        Posts s t l.desc (completionOf l.desc stOK 0 0) ∧ MemoryKept s t)) ∧
    (∀ l, s.patchLoad = some l → HasRoom s l.desc → Does .patchLoadTimeout s (fun t => t.patchLoad = none ∧
      t.bows = s.bows ∧ Posts s t l.desc (completionOf l.desc stTimeout 0 0) ∧ MemoryKept s t))

namespace Sys2Proof.Claims

/-- The only entry of the scheduler is due, fires once, and no mode holds it back. -/
def Due (s : State) (e : SchedEntry) (action : Nat) : Prop :=
  s.sched = [e] ∧ entryDue s e = true ∧ e.action.toNat = action ∧ e.kernel = false ∧ e.late = false ∧ (s.mode = .idle ∨ s.mode = .run)

end Sys2Proof.Claims

/-- R321 to R325: TB_SCHED_ARM adds an entry with the next arming number, which is its RESULT; TB_SCHED_CANCEL removes one
that is not due; a due entry fires: an event line is set, cleared or pulsed, a latch takes the epoch and the references, a
POST completion is queued, and a repeating entry is armed again INCR further. -/
def Sys2Proof.Claims.scheduler : Prop :=
  ∀ (d : Desc) (s : State) (e : SchedEntry), Memory.wf s = true →
    let line := Fin.ofNat 16 (e.arg.toNat % 16)
    let bit : BitVec 16 := BitVec.ofNat 16 (2 ^ line.val)
    let late := reached (refValue s (BitVec.ofNat 4 (dle d 0x08 1)).toNat) (BitVec.ofNat 40 (dle d 0x10 8))
    (InTurn 0x0020 d s → s.sched.length < 256 → Does (.tbSchedArm d) s (fun t =>
      t.sched = s.sched ++ [{ armedBy d with armNo := s.nextArm, late }] ∧ t.nextArm = s.nextArm + 1 ∧
      Completes s t d stOK (s.nextArm.setWidth 64) ∧ MemoryKept s t)) ∧
    (InTurn 0x0021 d s → s.sched = [e] → e.armNo = BitVec.ofNat 32 (dle d 0x08 4) → entryDue s e = false → e.kernel = false →
      Does (.tbSchedCancel d) s (fun t => t.sched = [] ∧ Completes s t d stOK 0 ∧ t.regs = s.regs)) ∧
    (InTurn 0x0021 d s → (∀ x ∈ s.sched, x.armNo ≠ BitVec.ofNat 32 (dle d 0x08 4)) →
      Does (.tbSchedCancel d) s (fun t => t.sched = s.sched ∧ Completes s t d stLateAbort 0 ∧ t.regs = s.regs)) ∧
    (Due s e 1 → e.incr = 0 → Does .schedFire s (fun t => t.sched = [] ∧ t.ev = s.ev ||| bit ∧
      t.pulse[line] = BitVec.ofNat 8 (e.arg.toNat / 16) ∧ t.regs = s.regs)) ∧
    (Due s e 2 → e.incr ≠ 0 → e.count ≠ 1 → Does .schedFire s (fun t => t.ev = s.ev ||| bit ∧ t.pulse[line] = 0 ∧
      t.sched = [{ e with
        target := e.target + e.incr, count := if e.count = 0 then 0 else e.count - 1, late := reached (refValue s e.ref.toNat) (e.target + e.incr) }])) ∧
    (Due s e 3 → e.incr = 0 → Does .schedFire s (fun t => t.sched = [] ∧ t.ev = s.ev &&& ~~~bit ∧ t.pulse[line] = 0)) ∧
    (Due s e 8 → e.incr = 0 → Does .schedFire s (fun t =>
      let o := 0x50800 + (reg s 0x5040C).toNat % 16 * 0x80
      t.sched = [] ∧ reg t 0x5040C = reg s 0x5040C + 1 ∧ reg64 t o (o + 4) = s.epoch ∧
      (∀ n : Fin 8, reg40 t (o + 8 + 8 * n.val) (o + 12 + 8 * n.val) = phValue s n) ∧
      reg t (o + 0x48) = reg s 0x5040C ∧ reg t (o + 0x4C) = e.tag.setWidth 32)) ∧
    (Due s e 9 → e.incr = 0 → (s.cq[Fin.ofNat 64 (e.arg.toNat % 64)]).held.length < 256 → Does .schedFire s (fun t =>
      t.sched = [] ∧ (t.cq[Fin.ofNat 64 (e.arg.toNat % 64)]).held = (s.cq[Fin.ofNat 64 (e.arg.toNat % 64)]).held ++
        [{ tag := e.tag.setWidth 32, status := stOK, ring := 0x80, type := 0, cflags := 0, detail := 0, extra := 0,
           result := (refValue s e.ref.toNat).setWidth 64, irq := false }]))

/-! ### The fabric -/

namespace Sys2Proof.Claims

/-- The quadrant that the mask of a FAB_LOAD names. -/
def loadQuad (d : Desc) : Fin 4 := Fin.ofNat 4 (dle d 0x09 1).log2

/-- Quadrants that the mask of a FAB_START names. -/
def startQuad (d : Desc) (f : Fin 4) : Bool := (dle d 0x09 1).testBit f.val

/-- FAB_QUAD's version of a quadrant (R309). -/
def quadVersion (s : State) (f : Fin 4) : Reg32 := reg s (0x40010 + 4 * f.val)

end Sys2Proof.Claims

/-- R300 to R304: a FAB_LOAD that passes CHECK goes on in VERIFY and in SERVICE, one that fails it changes no quadrant, nor
does one that order 1 turns away; at the end of VERIFY the load fails with nothing changed, or its quadrant is ISOLATING
where it ran, and LOADING where not; SAFE follows once admitted requests are answered, and APPLY; at the end of APPLY the
quadrant runs, or is READY where START waits and in HOLD, with the image's configuration and version; the command
completes then, or where a tree clocks the quadrant at the end of START; a failed APPLY leaves it EMPTY. -/
def Sys2Proof.Claims.fabricLoads : Prop :=
  ∀ (d : Desc) (i : FabImage) (s : State), Memory.wf s = true →
    let q := loadQuad d
    let mask := dle d 0x09 1
    let read := fabSource s d i
    let wait := (dle d 0x0A 1).testBit 0
    let l := fun (step : Nat) (i : FabImage) => ({ desc := d, quad := q, wait, image := i, step } : FabLoad)
    let unread := sourceFault s d 0x08 0x10 (dle d 0x0C 4)
    let detail := fun (st : Status) (c f : Nat) =>
      if st = stBadDescriptor ∨ st = stNoResource then BitVec.ofNat 24 (c + 256 * f) else 0
    let quadsKept := fun (t : State) => ∀ f, quadState t f = quadState s f
    let othersKept := fun (t : State) => ∀ f, f ≠ q → quadState t f = quadState s f
    let goesOn := fun (t : State) => othersKept t ∧ t.cq = s.cq ∧ t.accepted = s.accepted ∧ t.store = s.store ∧ t.pe = s.pe
    -- the steps before APPLY, VERIFY only with an image that passes it
    let loading := fun (k : Nat) => 1 ≤ k ∧ k ≤ 4 ∧ (k = 1 → loadVerify s (2 ^ q.val) i = none)
    let waits : Bool := wait || s.mode == .hold
    let applied := fun (t : State) => quadState t q = (if waits = true then 1 else 2) ∧ t.fab.quads[q] = i.quads[q] ∧
      quadVersion t q = fabVersionOf i ∧ othersKept t ∧ t.fabGlobal = imageGlobal i ∧ t.store = s.store ∧ t.pe = s.pe
    let gated := fun (f : Fin 4) => (i.quads[q]).gates.getLsbD f.val = true ∧ (imageGlobal i).trees[f] ≠ .none
    (s.mode = .idle → InTurn 0x0018 d s → loadRefused s mask = none → unread = none → imageHead s mask read = none →
      Does (.fabLoad d i) s (fun t => t.fabLoad = some (l 1 read) ∧ quadsKept t ∧ t.mode = .service ∧
        (reg t 0x40004).getLsbD 0 = true ∧ regBits t 0x40004 5 3 = 1 ∧ GoesOn s t d ∧ t.store = s.store ∧ t.pe = s.pe)) ∧
    (∀ st c f, s.mode = .idle → InTurn 0x0018 d s → loadRefused s mask = none → unread = none →
      imageHead s mask read = some (st, c, f) →
      Does (.fabLoad d i) s (fun t => t.fabLoad = s.fabLoad ∧ quadsKept t ∧ t.mode = .idle ∧
        MemoryKept s t ∧ Posts s t d (completionOf d st (detail st c f) 0))) ∧
    (∀ st, InTurn 0x0018 d s → loadRefused s mask = none → unread = some st → Does (.fabLoad d i) s (fun t =>
      t.fabLoad = s.fabLoad ∧ quadsKept t ∧ MemoryKept s t ∧ Posts s t d (completionOf d st 0 0))) ∧
    (∀ c, InTurn 0x0018 d s → loadRefused s mask = some c → Does (.fabLoad d i) s (fun t =>
      t.fabLoad = s.fabLoad ∧ quadsKept t ∧ regBits t 0x40004 2 1 = mask.log2 % 4 ∧ regBits t 0x40004 13 6 = stNoResource.toNat ∧
      (reg t 0x40004).getLsbD 0 = (reg s 0x40004).getLsbD 0 ∧ MemoryKept s t ∧
      Posts s t d (completionOf d stNoResource (BitVec.ofNat 24 c) 0))) ∧
    (s.fabLoad = some (l 1 i) → loadVerify s (2 ^ q.val) i = none →
      let t := loadTick s
      goesOn t ∧ (if quadState s q = 2 then t.fabLoad = some (l 2 i) ∧ quadState t q = 3
        else t.fabLoad = some (l 3 i) ∧ quadState t q = 4)) ∧
    (s.fabLoad = some (l 2 i) → (s.fp[q]).pend = [] →
      let t := loadTick s
      goesOn t ∧ t.fabLoad = some (l 3 i) ∧ quadState t q = 4) ∧
    (s.fabLoad = some (l 2 i) → (s.fp[q]).pend ≠ [] → loadTick s = s) ∧
    (s.fabLoad = some (l 3 i) →
      let t := loadTick s
      goesOn t ∧ t.fabLoad = some (l 4 i) ∧ quadsKept t) ∧
    (∀ k, s.fabLoad = some (l k i) → loading k → HasRoom s d → waits = true ∨ (∀ f, ¬ gated f) →
      Does (.fabApplyDone 0x00) s (fun t => applied t ∧ t.fabLoad = none ∧ Posts s t d (completionOf d stOK 0 0))) ∧
    (∀ k f, s.fabLoad = some (l k i) → loading k → waits = false → gated f →
      Does (.fabApplyDone 0x00) s (fun t => applied t ∧ t.fabLoad = some (l 5 i) ∧ t.cq = s.cq ∧ t.accepted = s.accepted)) ∧
    (s.fabLoad = some (l 5 i) → HasRoom s d → startEnded s q = true →
      let t := loadTick s
      t.fabLoad = none ∧ quadsKept t ∧ Posts s t d (completionOf d stOK 0 0)) ∧
    (∀ k st, st ≠ stOK → s.fabLoad = some (l k i) → loading k → HasRoom s d →
      Does (.fabApplyDone st) s (fun t => t.fabLoad = none ∧ quadState t q = 0 ∧ othersKept t ∧
        Posts s t d (completionOf d (if st = stAuthFail then stAuthFail else stEccUncorrected) 0 0))) ∧
    (∀ code st c f, s.fabLoad = some (l 1 i) → loadVerify s (2 ^ q.val) i = some (st, c, f) → HasRoom s d →
      Does (.fabApplyDone code) s (fun t => t.fabLoad = none ∧ quadsKept t ∧ t.fab = s.fab ∧ MemoryKept s t ∧
        Posts s t d (completionOf d st (detail st c f) 0)))

/-- R292, R293, R302, R305 to R308: FAB_START starts the READY quadrants it names; FAB_SAFE_SET replaces the entries that
its mask selects; a snapshot is armed, captures at the epoch on the second or third rising edge of its tree after its trigger, and completes with it; a request that the fabric logic does
not answer in time is answered with TIMEOUT. -/
def Sys2Proof.Claims.fabricCommands : Prop :=
  ∀ (d : Desc) (s : State), Memory.wf s = true →
    let entry := fun (s : State) (i : Nat) => regBits s (0x40100 + i / 4 * 4) (8 * (i % 4) + 7) (8 * (i % 4))
    let k : Snap := { desc := d, fired := false, taken := false, ffs := [], outs := [] }
    (InTurn 0x0019 d s → s.mode ≠ .hold → (∀ f, startQuad d f = true → quadState s f = 1) → Does (.fabStart d) s (fun t =>
      (∀ f, quadState t f = if startQuad d f then 2 else quadState s f) ∧ Completes s t d stOK 0 ∧ MemoryKept s t)) ∧
    (InTurn 0x001A d s → Does (.fabSafeSet d) s (fun t => (∀ i, i < 64 → entry t i =
      if (dle d 0x08 8).testBit i then dle d (0x10 + i) 1 else entry s i) ∧ Completes s t d stOK 0 ∧ MemoryKept s t)) ∧
    (InTurn 0x001B d s → s.snap = none → s.fabLoad = none → dle d 0x08 1 < 4 → Does (.fabSnap d) s (fun t =>
      t.snap = some k ∧ regBits t 0x40030 1 0 = 1 ∧ regBits t 0x40030 7 6 = dle d 0x08 1 ∧ GoesOn s t d ∧ MemoryKept s t)) ∧
    (∀ e, s.snap = some { k with fired := true, edges := e } → 1 ≤ e →
      Does .fabSnapCapture s (fun t =>
        t.snap = some { k with fired := true, edges := e, taken := true, ffs := shadowFfs s, outs := shadowOuts s } ∧
        regBits t 0x40030 1 0 = 2 ∧ regBits t 0x40030 5 2 = quadsRunning s ∧ reg64 t 0x40034 0x40038 = s.epoch ∧
        t.cq = s.cq ∧ MemoryKept s t)) ∧
    (∀ b e, s.snap = some { k with fired := b, edges := e } → b = false ∨ e = 0 → exec .fabSnapCapture s = .next s) ∧
    (∀ k', s.snap = some k' → k'.taken = true → k'.desc = d → HasRoom s d → dle d 0x0B 1 = 0 → k'.bad = none →
      busMaster s = true →
      Does .fabSnapReadbackDone s (fun t =>
      t.snap = none ∧ regBits t 0x40030 1 0 = 0 ∧ Posts s t d (completionOf d stOK 0 (reg64 s 0x40034 0x40038)) ∧
      (∀ x, (x < dle d 0x10 8 ∨ dle d 0x10 8 + 5824 ≤ x) → cget zeroes t.host x = cget zeroes s.host x) ∧
      t.store = s.store ∧ t.pe = s.pe)) ∧
    (∀ k', s.snap = some k' → k'.taken = true → k'.desc = d → HasRoom s d → dle d 0x0B 1 = 1 → storeServes s = false →
      k'.bad = none → k'.frames < 4 → Does .fabSnapReadbackDone s (fun t => t.snap = none ∧
        Posts s t d (completionOf d stDomainOff 0 (reg64 s 0x40034 0x40038)) ∧ MemoryKept s t)) ∧
    (∀ (f : Fin 4) (p : Packet), (s.fp[f]).pend = [p] → CanAnswer s p → Does (.fpResponseTimeout f { src := p.src, sdev := p.sdev } p.tag) s (fun t =>
      (t.fp[f]).pend = [] ∧ (t.fp[f]).late = (s.fp[f]).late ++ [p] ∧ Answered s t s.flight p stTimeout [] ∧
      regBits t (0x40040 + 4 * f.val) 23 12 = min (regBits s (0x40040 + 4 * f.val) 23 12 + 1) 4095 ∧ MemoryKept s t))

/-- R281 to R283, R285 to R287: a cell's table outputs are the entries that its inputs select; a column of adder cells adds,
its carry running from row 0 to row 63; a flip-flop takes its D input at an enabled edge of its clock; a boundary wire keeps
its value when its sending quadrant is isolated; a block-RAM port reads the old word and writes its lanes, and where two
writes meet that of port A lands, that of port B is discarded and counted. -/
def Sys2Proof.Claims.fabricLogic : Prop :=
  (∀ (s : State) (n c i : Nat), i < 64 → (∀ j : Fin 6, netVal s n (cellOf s c).inputs[j] = i.testBit j.val) →
    netVal s (n + 1) (.cell c .z6) = (cellOf s c).tt.getLsbD i ∧
    netVal s (n + 1) (.cell c .zl) = (cellOf s c).tt.getLsbD (i / 2 * 2) ∧
    netVal s (n + 1) (.cell c .zh) = (cellOf s c).tt.getLsbD (i / 2 * 2 + 1)) ∧
  (∀ (s : State) (n c : Nat) (a b : BitVec 64) (ci : Bool), c % 64 = 0 → 66 ≤ n → (cellOf s c).carryIn = .const ci →
    (∀ r : Fin 64, let k := cellOf s (c + r.val)
      k.tt = 0x8181818181818181 ∧ k.carry = true ∧ k.inputs[0] = .const false ∧ k.inputs[1] = .const (a.getLsbD r.val) ∧
      k.inputs[2] = .const (b.getLsbD r.val)) →
    let total := a.toNat + b.toNat + ci.toNat
    (∀ r : Fin 64, netVal s n (.cell (c + r.val) .sum) = total.testBit r.val) ∧
    netVal s n (.cell (c + 63) .co) = total.testBit 64) ∧
  (∀ (s : State) (n c : Nat), (cellOf s c).carry = false → c % 64 ≠ 0 →
    netVal s (n + 2) (.cell c .co) = netVal s (n + 1) (.cell (c - 1) .co)) ∧
  (∀ (s : State) (up : BitVec 4) (c : Nat) (b : Bool) (e : Nat × CellConf), Memory.wf s = true → c < 20480 →
    e ∈ (s.fab.quads[quadOf c]).cells → e.1 = c % 5120 → 2 ≤ edgesSince s (quadOf c) (cellOf s c).clock →
    (ffConf (cellOf s c) b).reset = .none → clocked s up (quadOf c) (cellOf s c).clock = true →
    ffValue (fabEdge up s) c b = if net s (cellOf s c).enable then ffData s c b else ffValue s c b) ∧
  (∀ (s : State) (q : Fin 4) (w v : Nat), Memory.wf s = true → boundarySender w = q → quadRuns s q = true → v < 16 → v ≠ 2 →
    net (setQuad s q v) (.boundary w) = net s (.boundary w)) ∧
  (∀ (s : State) (up : BitVec 4) (m : Nat) (k : BramConf), Memory.wf s = true → m < 64 → bramOf s m = some k →
    clocked s up (Fin.ofNat 4 (m / 16)) k.a.clock = true →
    let x := portAccess s k.a
    let y := portAccess s k.b
    let t := stepBram s up m k s
    let written := (bramWord s m k x.row &&& ~~~x.mask) ||| (x.data &&& x.mask)
    (clocked s up (Fin.ofNat 4 (m / 16)) k.b.clock = false → bramErrorAt s m x.row = none →
      bramWord t m k x.row = written ∧ (∀ r, r < 512 → r ≠ x.row → bramWord t m k r = bramWord s m k r) ∧
      cget zeroes t.fab.outs (4 * m) = (bramWord s m k x.row &&& spanMask x.shift x.width) >>> x.shift ∧
      cget zeroes t.fab.outs (4 * m + 1) = cget zeroes s.fab.outs (4 * m) ∧ t.regs = s.regs ∧ t.log = s.log) ∧
    (k.b.clock = k.a.clock → y.mask ≠ 0 → overlaps x x.mask y = true → bramErrorAt s m x.row = none →
      bramWord t m k x.row = written ∧ (∀ r, r < 512 → r ≠ x.row → bramWord t m k r = bramWord s m k r) ∧
      reg t 0x40054 = BitVec.ofNat 32 (min ((reg s 0x40054).toNat + 1) (2 ^ 32 - 1)) ∧
      (∀ o, o ≠ 0x40054 → reg t o = reg s o)))

/-! ### The Guard -/

namespace Sys2Proof.Claims

/-- A ramp to 0 has started from the present gain with a cause and a channel, at the present epoch (R415). -/
def RampStarted (s t : State) (cause channel : Nat) : Prop :=
  regBits t 0x74000 2 1 = 2 ∧ regBits t 0x74000 7 4 = cause ∧ regBits t 0x74000 11 8 = channel ∧
  reg64 t 0x74008 0x7400C = s.epoch ∧ t.guard.ramp = some { up := false, t0 := s.epoch } ∧
  (t.guard.num, t.guard.den) = gainAt s

/-- An abort takes effect: the mode is one from which it leads to SENTINEL, and no ramp to 0 runs. -/
def MayAbort (s : State) : Prop := abortMode s = true ∧ regBits s 0x74000 2 1 ≠ 2

/-- A channel whose samples arrive on its fabric input (R295). -/
def InputServes (s : State) (ch : Fin 16) : Prop :=
  (s.guard.chans[ch]).enabled = true ∧ (s.guard.chans[ch]).window = none ∧ strobeTaken s (32 + ch.val) = true

/-- DRV_OUT of a finite input: x × gain × 2^23, rounded to nearest, ties to even, and saturated to 24 bits (R413). -/
def drvValue (neg : Bool) (m : Nat) (e : Int) (g : Nat × Nat) : BitVec 24 :=
  let q := divNearest (m * g.1 * 2 ^ (e + 23).toNat) (g.2 * 2 ^ (-(e + 23)).toNat)
  if neg then BitVec.ofInt 24 (-(min q (2 ^ 23) : Nat)) else BitVec.ofNat 24 (min q (2 ^ 23 - 1))

end Sys2Proof.Claims

/-- R412, R413, R415: a drive sample of an enabled lane becomes DRV_OUT at the present gain, NaN gives 0 and is counted, a
disabled lane gives 0, a strobe that comes too early nothing; an abort sample above PEAK_LIMIT starts a ramp with cause 2 and one within the limits starts none;
NaN_LIMIT samples of NaN start one with cause 4; a channel without samples starts one with cause 3; a window channel reads
its window up to the tail. -/
def Sys2Proof.Claims.guardSamples : Prop :=
  ∀ (l : Fin 32) (ch : Fin 16) (x : Word) (s : State), Memory.wf s = true →
    let k := s.guard.chans[ch]
    let sameButGuard := fun (t : State) => t.mode = s.mode ∧ MemoryKept s t
    (strobeTaken s l.val = false → exec (.driveSample l x) s = .next s) ∧
    (strobeTaken s (32 + ch.val) = false → exec (.abortSample ch x) s = .next s) ∧
    (∀ neg m e, strobeTaken s l.val = true → (reg s 0x74010).getLsbD l.val = true → unpackFmt 31 8 x.toNat = .fin neg m e →
      Does (.driveSample l x) s (fun t => t.guard.drvOut = s.guard.drvOut.set l (drvValue neg m e (gainAt s)) ∧
        t.regs = s.regs ∧ sameButGuard t)) ∧
    (strobeTaken s l.val = true → (reg s 0x74010).getLsbD l.val = true → wordIsNaN x = true →
      Does (.driveSample l x) s (fun t => t.guard.drvOut = s.guard.drvOut.set l 0 ∧
        t.regs = (countUp s (0x74100 + 4 * l.val) 31 0 1).regs ∧ sameButGuard t)) ∧
    (strobeTaken s l.val = true → (reg s 0x74010).getLsbD l.val = false →
      Does (.driveSample l x) s (fun t => t.guard.drvOut = s.guard.drvOut.set l 0 ∧ t.regs = s.regs ∧ sameButGuard t)) ∧
    (InputServes s ch → wordIsNaN x = false → peakExceeded k x = true → MayAbort s →
      Does (.abortSample ch x) s (fun t => RampStarted s t 2 ch.val ∧ sameButGuard t)) ∧
    (InputServes s ch → wordIsNaN x = false → peakExceeded k x = false → (chanSample k x).2 = none →
      Does (.abortSample ch x) s (fun t => t.guard.ramp = s.guard.ramp ∧ t.regs = s.regs ∧ sameButGuard t ∧
        (t.guard.chans[ch]).nanRun = 0 ∧ (t.guard.chans[ch]).squares.length = min (k.squares.length + 1) (2 ^ k.log2w.toNat))) ∧
    (InputServes s ch → wordIsNaN x = true → k.nanLimit.toNat = k.nanRun + 1 → MayAbort s →
      Does (.abortSample ch x) s (fun t => RampStarted s t 4 ch.val ∧ sameButGuard t)) ∧
    (k.enabled = true → k.stale ≠ 0 → outputsStarted s = true → MayAbort s →
      Does (.guardStale ch) s (fun t => RampStarted s t 3 ch.val ∧ sameButGuard t)) ∧
    (∀ w, k.window = some w → k.enabled = true → storeServes s = true → winOn s w = true → s.storeErr = [] →
      winHead s w < winLen s w → winTail s w < winLen s w → Does (.guardWindowRead ⟨ch, []⟩) s (fun t =>
        winHead t w = winTail s w ∧ winTail t w = winTail s w ∧ sameButGuard t))

/-- R414 to R416, R420: before outputs start a channel and the lanes take their configuration; once they have started a
channel is only tightened; GUARD_ABORT starts a ramp with cause 5; a ramp to 0 that has lasted RAMP_MS ends in SENTINEL
with SAFE_DRIVE_EN low; GUARD_RESUME ends a soft stop. -/
def Sys2Proof.Claims.guardCommands : Prop :=
  ∀ (d : Desc) (img : SlotRead) (s : State), Memory.wf s = true →
    let ch := Fin.ofNat 16 (dle d 0x08 1)
    let old := s.guard.chans[ch]
    let new := chanOf d
    (InTurn 0x0045 d s → outputsStarted s = false → Does (.guardChannel d) s (fun t =>
      t.guard.chans = s.guard.chans.set ch new ∧ Completes s t d stOK 0 ∧ MemoryKept s t)) ∧
    (InTurn 0x0045 d s → outputsStarted s = true → tightens old new = true → Does (.guardChannel d) s (fun t =>
      t.guard.chans = s.guard.chans.set ch { old with limRms := new.limRms, limPeak := new.limPeak, stale := new.stale,
                                                      nanLimit := new.nanLimit } ∧ Completes s t d stOK 0)) ∧
    (InTurn 0x0045 d s → outputsStarted s = true → tightens old new = false → Does (.guardChannel d) s (fun t =>
      t.guard = s.guard ∧ t.regs = s.regs ∧ Completes s t d stNoResource 0)) ∧
    (InTurn 0x0046 d s → outputsStarted s = false → Does (.guardLanes d) s (fun t =>
      reg t 0x74010 = BitVec.ofNat 32 (dle d 0x08 4) ∧ regBits t 0x74014 13 0 = dle d 0x0C 4 % 2 ^ 14 ∧
      regBits t 0x74014 27 14 = dle d 0x10 4 % 2 ^ 14 ∧ t.guard = s.guard ∧ Completes s t d stOK 0 ∧ MemoryKept s t)) ∧
    (InTurn 0x0047 d s → MayAbort s → Does (.guardAbort d) s (fun t =>
      RampStarted s t 5 0 ∧ t.mode = s.mode ∧ Completes s t d stOK 0 ∧ MemoryKept s t)) ∧
    (InTurn 0x0048 d s → softStopped s = true → Does (.guardResume d) s (fun t => t.pins.safeDriveEn = true ∧
      regBits t 0x74000 2 1 = 1 ∧ Completes s t d stOK 0 ∧ MemoryKept s t)) ∧
    (rampEnded s = true → regBits s 0x74000 7 4 ≠ 9 → abortMode s = true → Does (.guardRampEnd img) s (fun t =>
      t.mode = .sentinel ∧ t.pins.safeDriveEn = false ∧ t.pins.sentinelN = false ∧ t.guard.ramp = none ∧
      t.guard.num = 0 ∧ (∀ a, storeWord t a = 0))) ∧
    (rampEnded s = true → regBits s 0x74000 7 4 = 9 → s.mode = .halt → Does (.guardRampEnd img) s (fun t =>
      t.mode = .halt ∧ t.pins.safeDriveEn = false ∧ t.guard.ramp = none ∧ t.guard.num = 0 ∧ regBits t 0x74000 2 1 = 3 ∧
      MemoryKept s t))

/-- R417 to R419: a rail below 94 % shows at once, holds the gains and the launches, and commits the Logbook; above 95 %
again the hold ends and one fast scrub pass of every memory is asked for; 200 µs below, and a fault that has lasted,
start a ramp with causes 7 and 8; a first watchdog expiry is recorded, and a second within 1 s starts a ramp. Says
where these complete: BROWNOUT_WARNING, BROWNOUT_CLEAR, LAUNCH_HOLD_EXPIRY, BROWNOUT_TIMEOUT, FAULT_ESCALATION,
WATCHDOG_EXPIRY. Some of its clauses rest on the model's own choices: log entries 109, 110 and 111. -/
def Obligations.BrownoutAndFaults : Prop :=
  ∀ (rail : BitVec 2) (row : FaultRow) (s : State), Memory.wf s = true → rail ≠ 3 →
    let bit : BitVec 3 := BitVec.ofNat 3 (2 ^ rail.toNat)
    (Does (.brownoutWarning rail) s (fun t => (reg t 0x70000).getLsbD 2 = true ∧ (reg t 0x70004).getLsbD 0 = true ∧
      t.brown.rails = s.brown.rails ||| bit ∧ t.brown.hold = true ∧ t.logDone = t.logNext ∧
      gainAt t = gainAt s ∧ (rampDownRuns s = false → t.guard.heldAt.isSome = true) ∧ MemoryKept s t)) ∧
    (s.brown.rails = bit → s.brown.out = false → s.brown.past = false → Does (.brownoutClear rail) s (fun t =>
      (reg t 0x70000).getLsbD 2 = false ∧ t.brown.rails = 0 ∧ t.brown.hold = s.brown.hold ∧ t.guard.heldAt = none ∧
      (reg t 0x30000).getLsbD 2 = true ∧ (∀ c : Fin 64, (reg t (crsReg c 0x50)).getLsbD 1 = true) ∧ MemoryKept s t)) ∧
    (s.brown.rails = 0 → s.brown.hold = true → s.brown.out = false → s.brown.held = [] →
      Does .launchHoldExpiry s (fun t => t.brown.hold = false ∧ t.brown.held = [] ∧ t.regs = s.regs ∧ MemoryKept s t)) ∧
    (s.brown.rails ≠ 0 → s.brown.hold = true → Does .launchHoldExpiry s (fun t =>
      t.brown = { s.brown with past := true } ∧ t.regs = s.regs ∧ MemoryKept s t)) ∧
    (s.brown.rails ≠ 0 → MayAbort s → Does .brownoutTimeout s (fun t => RampStarted s t 7 0 ∧ t.brown.out = true ∧
      t.mode = s.mode ∧ MemoryKept s t)) ∧
    ((row = .link ∨ row = .thermal ∨ row = .domain ∨ row = .group) → row ∈ s.faults →
      (row = .thermal → junctionAt s 179 = true) → MayAbort s →
      Does (.faultEscalation row) s (fun t => RampStarted s t 8 0 ∧ t.faults = s.faults ∧ MemoryKept s t)) ∧
    (eccExceeded s = true → MayAbort s → Does (.faultEscalation .ecc) s (fun t => RampStarted s t 8 0 ∧
      FaultRow.ecc ∈ t.faults ∧ MemoryKept s t)) ∧
    (s.watchdog = none → Does .watchdogExpiry s (fun t => t.watchdog = some s.epoch ∧ (reg t 0x70004).getLsbD 3 = true ∧
      t.guard = s.guard ∧ t.mode = s.mode ∧ MemoryKept s t)) ∧
    (∀ e, s.watchdog = some e → (s.epoch - e).toNat < 262144000 → MayAbort s → Does .watchdogExpiry s (fun t =>
      RampStarted s t 8 0 ∧ t.watchdog = some s.epoch ∧ MemoryKept s t))

/-! ### The timebase -/

namespace Sys2Proof.Claims

/-- A reference after a forward and after a reverse edge: the edge index counts modulo EDGES, a wrap counts a cycle (R317,
R318). -/
def refForward (s : State) (n : Fin 8) (r : PhRef) : PhRef :=
  { r with e := if phEpc s n ≤ r.e.toNat + 1 then 0 else r.e + 1
           cycle := if phEpc s n ≤ r.e.toNat + 1 then r.cycle + 1 else r.cycle
           t := 0, fwd := min 2 (r.fwd + 1), seen := true, sinceZ := r.sinceZ.map (fun k => k + 1) }
def refReverse (s : State) (n : Fin 8) (r : PhRef) : PhRef :=
  { r with e := if r.e = 0 then BitVec.ofNat 16 (phEpc s n - 1) else r.e - 1
           cycle := if r.e = 0 then r.cycle - 1 else r.cycle
           fwd := 0, sinceZ := r.sinceZ.map (fun k => k + 1) }

/-- Edges reach the reference: its source is no fabric signal, or a running quadrant drives it (R296). -/
def EdgesReach (s : State) (n : Fin 8) : Prop :=
  phSource s n ≠ 2 ∨ signalDriven s n.val = true ∨ signalDriven s (8 + n.val) = true

/-- The levels of A and B move one step round the quadrature cycle 00, 10, 11, 01, forward or backward. -/
def quadStep (a b a' b' : Bool) : Prop := quadPos a' b' = (quadPos a b + 1) % 4

end Sys2Proof.Claims

/-- R316 to R320: in PULSE mode an edge of A that EDGE selects is a forward edge; in QUAD mode a step of the cycle is a forward
or a reverse edge, DIR_INV exchanging them (that A leads B forward is the model's own choice, DESIGN CHOICE, log entry 28);
two changes at once set GLITCH; a Z edge aligns the index; a stall is shown; setting the mode starts the reference anew, and OFF holds its value. -/
def Sys2Proof.Claims.phaseReferences : Prop :=
  ∀ (n : Fin 8) (a b : Bool) (v : Reg32) (s : State), Memory.wf s = true →
    let r := s.refs[n]
    let r' := { r with a, b }
    let invert := (reg s (phReg n 0)).getLsbD 6
    let period := fun (t : State) => r.seen = true → reg t (phReg n 0x0C) = BitVec.ofNat 32 (min r.t (2 ^ 32 - 1))
    (¬ EdgesReach s n → exec (.phrefEdge n a b) s = .next s) ∧
    (signalDriven s (16 + n.val) = false → exec (.phrefZEdge n) s = .next s) ∧
    (EdgesReach s n → phMode s n = 1 → a ≠ r.a → (a = true ∨ (reg s (phReg n 0)).getLsbD 4 = true) → Does (.phrefEdge n a b) s (fun t => t.refs = s.refs.set n (refForward s n r') ∧
      period t ∧ (reg t (phReg n 0x14)).getLsbD 0 = false ∧ (reg t (phReg n 0x14)).getLsbD 1 = false ∧ MemoryKept s t)) ∧
    (EdgesReach s n → phMode s n = 2 → ((quadStep r.a r.b a b ∧ invert = false) ∨ (quadStep a b r.a r.b ∧ invert = true)) →
      Does (.phrefEdge n a b) s (fun t => t.refs = s.refs.set n (refForward s n r') ∧ period t ∧
        (reg t (phReg n 0x14)).getLsbD 1 = false ∧ MemoryKept s t)) ∧
    (EdgesReach s n → phMode s n = 2 → ((quadStep a b r.a r.b ∧ invert = false) ∨ (quadStep r.a r.b a b ∧ invert = true)) →
      Does (.phrefEdge n a b) s (fun t => t.refs = s.refs.set n (refReverse s n r') ∧
        (reg t (phReg n 0x14)).getLsbD 1 = true ∧ MemoryKept s t)) ∧
    (EdgesReach s n → phMode s n = 2 → a ≠ r.a → b ≠ r.b → Does (.phrefEdge n a b) s (fun t => t.refs = s.refs.set n r' ∧
      (reg t (phReg n 0x14)).getLsbD 2 = true ∧ MemoryKept s t)) ∧
    (signalDriven s (16 + n.val) = true → phMode s n ≠ 0 → phSource s n = 2 → (reg s (phReg n 0)).getLsbD 5 = true → (reg s (phReg n 0x14)).getLsbD 1 = false →
      Does (.phrefZEdge n) s (fun t => t.refs = s.refs.set n { r with
          e := 0, cycle := if phEpc s n ≤ 2 * r.e.toNat then r.cycle + 1 else r.cycle, sinceZ := some 0 } ∧
        ((∃ k, r.sinceZ = some k ∧ k ≠ phEpc s n) → (reg t (phReg n 0x14)).getLsbD 3 = true) ∧
        (r.sinceZ = none ∨ r.sinceZ = some (phEpc s n) → t.regs = s.regs))) ∧
    (phMode s n ≠ 0 → phLimit s n < r.t → Does (.phrefStall n) s (fun t => t.refs = s.refs ∧
      t.regs = (setRegBits s (phReg n 0x14) 0 0 1).regs)) ∧
    (phMode s n = 0 → v &&& 0xFF000080#32 = 0 → bitsOf v.toNat 3 2 = 1 ∨ bitsOf v.toNat 3 2 = 2 →
      (bitsOf v.toNat 1 0 = 0 ∨ bitsOf v.toNat 1 0 = 2 ∨ (bitsOf v.toNat 1 0 = 1 ∧ n.val % 2 = 0 ∧ bitsOf v.toNat 3 2 = 2)) → bitsOf v.toNat 23 8 ≠ 0 →
      Does (.phrefModeWrite n v) s (fun t => reg t (phReg n 0) = v ∧ phValue t n = 0 ∧
        (reg t (phReg n 0x14)).getLsbD 0 = false ∧ MemoryKept s t)) ∧
    (phMode s n ≠ 0 → v &&& 0xFF00008C#32 = 0 → v = reg s (phReg n 0) &&& 0x00FFFF73#32 →
      (bitsOf v.toNat 1 0 = 0 ∨ bitsOf v.toNat 1 0 = 2) → bitsOf v.toNat 23 8 ≠ 0 →
      Does (.phrefModeWrite n v) s (fun t => reg t (phReg n 0) = v ∧ phMode t n = 0 ∧ phValue t n = phValue s n ∧ MemoryKept s t))

namespace Sys2Proof.Claims

/-- The count of a timer after one tick, by DIR: up, down, or up and down between 0 and PERIOD; PERIOD 0 counts the whole
range (R328, R329). -/
def etNext (dir : Nat) (period c : Word) (down : Bool) : Word :=
  let p := if period = 0 then (if dir = 2 then 2 ^ 40 - 1 else 2 ^ 40) else period.toNat
  if dir = 0 then (if p ≤ c.toNat + 1 then 0 else c + 1)
  else if dir = 1 then (if c = 0 then BitVec.ofNat 40 (p - 1) else c - 1)
  else if down then c - 1 else if p ≤ c.toNat then c - 1 else c + 1

/-- The timer runs, its gate is open, and it counts ticks of the timebase, of which a low-frequency step stands for 8,000 in
HALT, SLEEP and STANDBY (R328, R334). -/
def Counting (s : State) (t : Fin 16) (lf : Bool) : Prop :=
  (reg s (etReg t 0)).getLsbD 27 = true ∧ (reg s (etReg t 0)).getLsbD 2 = false ∧ lfTimers s = lf ∧ etGateOpen s t = true

def etPeriod (s : State) (t : Fin 16) : Word := reg40 s (etReg t 0x0C) (etReg t 0x10)

/-- The staged low half and the high half of a committed value (R315). -/
def committed (s : State) (t : Fin 16) (r : TimerReg) (hi : Reg32) : Word :=
  (hi.extractLsb' 0 8 ++ s.timers[t].lo[(timerIndex r).1] : BitVec 40)

end Sys2Proof.Claims

/-- R315, R328 to R334: a tick counts as DIR says and a match that is due fires once, 8,000 ticks move an up counter by
8,000 modulo PERIOD; a write of the high half commits period, compare and safe compare; captures take the count. -/
def Sys2Proof.Claims.eventTimers : Prop :=
  ∀ (i : Fin 16) (hi : Reg32) (s : State), Memory.wf s = true →
    let c := etCountOf s i
    let dir := etDir s i
    let st := fun (t : State) (bit : Nat) => (reg t (etReg i 0x34)).getLsbD bit
    let value := fun (t : State) (r : TimerReg) => reg40 t (etReg i (timerIndex r).2) (etReg i (timerIndex r).2 + 4)
    (Counting s i false → dir < 3 → Does (.etTick i) s (fun t =>
      etCountOf t i = etNext dir (etPeriod s i) c (st s 4) ∧ value t .cmp = value s .cmp ∧ etPeriod t i = etPeriod s i ∧
      (st s 0 = true → st t 0 = true) ∧ MemoryKept s t)) ∧
    (Counting s i false → dir = 0 → st s 7 = true → c.toNat + 1 < 2 ^ 39 → etPeriod s i = 0 → etCmp s i = c + 1 →
      Does (.etTick i) s (fun t => st t 0 = true ∧ st t 7 = false ∧
        st t 8 = etAct (regBits s (etReg i 0) 23 22) (st s 8) ∧ MemoryKept s t)) ∧
    (Counting s i true → dir = 0 → etPeriod s i ≠ 0 → c.toNat < (etPeriod s i).toNat → Does (.etLfStep i) s (fun t =>
      (etCountOf t i).toNat = (c.toNat + 8000) % (etPeriod s i).toNat ∧ MemoryKept s t)) ∧
    (hi.toNat < 256 → Does (.etCommit i .period hi) s (fun t => value t .period = committed s i .period hi ∧
      etCountOf t i = c ∧ value t .cmp = value s .cmp ∧ MemoryKept s t)) ∧
    (hi.toNat < 256 → st s 6 = false → Does (.etCommit i .cmp hi) s (fun t => value t .cmp = committed s i .cmp hi ∧
      etCountOf t i = c ∧ etPeriod t i = etPeriod s i ∧ (st t 7 = true ∨ st t 0 = true) ∧ MemoryKept s t)) ∧
    (hi.toNat < 256 → (reg s 0x1000).getLsbD 31 = false → Does (.etCommit i .safe hi) s (fun t =>
      value t .safe = committed s i .safe hi ∧ etCountOf t i = c ∧ MemoryKept s t)) ∧
    Does (.etCaptureRise i) s (fun t => reg40 t (etReg i 0x1C) (etReg i 0x20) = c ∧ (t.timers[i]).sinceRise = 0 ∧
      etCountOf t i = c ∧ MemoryKept s t) ∧
    Does (.etCaptureFall i) s (fun t => reg40 t (etReg i 0x24) (etReg i 0x28) = c ∧
      reg40 t (etReg i 0x2C) (etReg i 0x30) = (s.timers[i]).sinceRise ∧ (t.timers[i]).widthRead = false ∧
      ((s.timers[i]).widthRead = false → st t 3 = true) ∧ etCountOf t i = c ∧ MemoryKept s t)

/-- R310 to R312, R322, R419: the PLL locks; the loss of the 32.768 kHz clock shows on FAULT_N until it returns; a PPS
edge of the selected polarity captures the epoch and trims within 858,993; a missing one ends STABLE; a pulse ends.
Says where these complete: TB_PLL_LOCK, LF_CLOCK_FAIL, LF_CLOCK_RESTORED, PPS_EDGE, PPS_MISSING, EV_PULSE_END. Some
of its clauses rest on the model's own choices: log entry 21. -/
def Obligations.TimebaseEvents : Prop :=
  ∀ (s : State) (falling : Bool) (line : Fin 16), Memory.wf s = true →
    let st := fun (t : State) (bit : Nat) => (reg t 0x50004).getLsbD bit
    Does .tbPllLock s (fun t => st t 0 = true ∧ t.epoch = s.epoch ∧ MemoryKept s t) ∧
    Does .lfClockFail s (fun t => st t 4 = true ∧ t.pins.faultN = false ∧ FaultRow.lfClock ∈ t.faults ∧ MemoryKept s t) ∧
    (s.faults = [.lfClock] → s.bootFailed = false → Does .lfClockRestored s (fun t => t.faults = [] ∧ t.pins.faultN = true ∧
      MemoryKept s t)) ∧
    ((reg s 0x50000).getLsbD 0 = true → (reg s 0x50000).getLsbD 1 = falling → Does (.ppsEdge falling) s (fun t =>
      reg64 t 0x50018 0x5001C = s.epoch ∧ -858993 ≤ (reg t 0x50010).toInt ∧ (reg t 0x50010).toInt ≤ 858993 ∧
      t.epoch = s.epoch ∧ (st t 2 = true ↔ 8 ≤ t.ppsRun) ∧ MemoryKept s t)) ∧
    ((reg s 0x50000).getLsbD 0 = true → s.ppsSeen = true → Does .ppsMissing s (fun t => st t 3 = true ∧ st t 2 = false ∧
      reg t 0x50010 = reg s 0x50010 ∧ MemoryKept s t)) ∧
    (s.pulse[line] ≠ 0 → Does (.evPulseEnd line) s (fun t => t.ev.getLsbD line.val = false ∧ t.pulse[line] = 0 ∧
      (∀ k, k ≠ line.val → t.ev.getLsbD k = s.ev.getLsbD k) ∧ t.regs = s.regs))

/-- R313: TB_TOD holds the 64-bit value that the host writes, and the two writes change nothing else; TB_TODNOW reads
the epoch plus TB_TOD, modulo 2^64. Says where these complete: REGISTER_WRITE. -/
def Obligations.TimeOfDay : Prop :=
  ∀ (s : State) (lo hi : Reg32), Memory.wf s = true →
    bar0Read s 0x5002C ++ bar0Read s 0x50028 = s.epoch + (bar0Read s 0x50024 ++ bar0Read s 0x50020) ∧
    ∃ t u, exec (.registerWrite { offset := 0x50020 } lo true) s = .next t ∧ exec (.registerWrite { offset := 0x50024 } hi true) t = .next u ∧
      bar0Read u 0x50024 ++ bar0Read u 0x50020 = hi ++ lo ∧
      bar0Read u 0x5002C ++ bar0Read u 0x50028 = s.epoch + (hi ++ lo) ∧
      (∀ o, o ≠ 0x50020 → o ≠ 0x50024 → reg u o = reg s o) ∧ u = { s with regs := u.regs }

/-! ### The host interface -/

namespace Sys2Proof.Claims

/-- A submission ring's engine polls and the ring is active (R345). -/
def Polls (s : State) (n : BitVec 6) : Prop := ringPolls s n = true ∧ sqState s n = 1

/-- The bytes of host memory outside [a, a + n) are as they were. -/
def HostKept (s t : State) (a n : Nat) : Prop :=
  ∀ x, (x < a ∨ a + n ≤ x) → cget zeroes t.host x = cget zeroes s.host x

/-- Byte address of a ring's completion area (R345). -/
def areaOf (s : State) (n : BitVec 6) : Nat := (reg64 s (sqBase n.toNat + 0x10) (sqBase n.toNat + 0x14)).toNat

/-- The n-th 32-bit word that host memory holds from an address on. -/
def hostWord (s : State) (a i : Nat) : BitVec 32 :=
  cget zeroes s.host (a + 4 * i + 3) ++ cget zeroes s.host (a + 4 * i + 2) ++ cget zeroes s.host (a + 4 * i + 1) ++
  cget zeroes s.host (a + 4 * i)

/-- The detail of a completion for a failed fetch: cause 3 in bits 15 to 8 for poisoned data, else the index (R365). -/
def failDetail (ci : BitVec 32) (why : FetchFail) : BitVec 24 := if why = .poisoned then 0x300 else ci.setWidth 24

/-- The completion of an entry of ring n that could not be fetched (R365). -/
def failCompletion (n : BitVec 6) (st : Status) (ci : BitVec 32) (why : FetchFail) : Completion where
  tag := 0xFFFFFFFF
  status := st
  ring := n.setWidth 8
  type := 0
  cflags := 0
  detail := failDetail ci why
  extra := 0
  result := 0
  irq := false

/-- The descriptor of an entry that ring n fetched. -/
def entryOf (n : BitVec 6) (b : DescBits) : Desc := { ring := n, bytes := b, startup := false }

end Sys2Proof.Claims

/-- R340 to R342: Function Level Reset and PERST_N disable every ring and return HIF_CTRL to its reset value but for
SETUP_LOCK, keep the stream bindings, leave the function without Bus Master Enable, and touch no memory; setting ENABLE of a ring that fits starts it; SETUP_LOCK sets. -/
def Sys2Proof.Claims.hostResets : Prop :=
  ∀ (s : State) (n : BitVec 6) (v : Reg32), Memory.wf s = true →
    let resets := fun (c : Instr) => Does c s (fun t => (∀ m, m < 64 → ringOn t (sqBase m + 0x18) = false ∧
        ringOn t (cqBase m + 0x10) = false ∧ regBits t (sqBase m + 0x20) 1 0 = 0) ∧
      reg t 0x1000 = regReset 0x1000 ||| (reg s 0x1000 &&& 0x80000000#32) ∧
      (∀ m, m < 32 → ringOn t (stBase m + 0x10) = false ∧ reg t (stBase m + 0x18) = reg s (stBase m + 0x18) ∧
        reg t (stBase m + 0x1C) = reg s (stBase m + 0x1C)) ∧ t.accepted = s.accepted ∧ t.epoch = s.epoch ∧ busMaster t = false ∧ MemoryKept s t)
    let sq := sqBase n.toNat + 0x18
    let cq := cqBase n.toNat + 0x10
    resets .functionLevelReset ∧ resets .perstNReset ∧
    (ringOn s sq = false → v.toNat < 4096 → v.getLsbD 0 = true → 4 ≤ bitsOf v.toNat 5 1 → bitsOf v.toNat 5 1 ≤ 16 →
      ringOn s (cqBase (bitsOf v.toNat 11 6) + 0x10) = true → Does (.ringEnable .sq n v) s (fun t => reg t sq = v ∧
        sqState t n = 1 ∧ (sqGet t n).cq = Fin.ofNat 64 (bitsOf v.toNat 11 6) ∧ t.store = s.store ∧ t.pe = s.pe)) ∧
    (ringOn s cq = false → v.toNat < 2 ^ 30 → v.getLsbD 0 = true → 4 ≤ bitsOf v.toNat 5 1 → bitsOf v.toNat 5 1 ≤ 16 →
      bitsOf v.toNat 19 12 ≠ 0 → Does (.ringEnable .cq n v) s (fun t => reg t cq = v ∧ MemoryKept s t)) ∧
    (n.toNat < 32 → ringOn s (stBase n.toNat + 0x10) = false → v.toNat < 2 ^ 30 → v.getLsbD 0 = true →
      4 ≤ bitsOf v.toNat 5 1 → bitsOf v.toNat 5 1 ≤ 20 → bitsOf v.toNat 19 12 ≠ 0 →
      regBits s (stBase n.toNat + 0x14) 19 0 % 64 = 0 →
      Does (.ringEnable .st n v) s (fun t => reg t (stBase n.toNat + 0x10) = v ∧ MemoryKept s t)) ∧
    exec .setupLock s = .next (setRegBits s 0x1000 31 31 1)

/-- R345 to R348, R364, R365: a poll that finds CI counts towards IDLE_POLLS, the last of which makes the ring idle with
NEED_WAKE set in its completion area; one that finds an entry takes it; a wake starts polling again; a failed fetch is
tried once more, and the second failure in a row passes the entry with a completion of TAG FFFFFFFF. -/
def Sys2Proof.Claims.doorbells : Prop :=
  ∀ (s : State) (n : BitVec 6) (b : DescBits) (why : FetchFail), Memory.wf s = true →
    let k := sqGet s n
    let ci := sqCi s n
    let d := entryOf n b
    let state := fun (t : State) => sqState t n
    let st : Status := match why with | .timeout => 0x40 | .unsupported => 0x11 | .poisoned => 0x10
    (Polls s n → k.idlePolls + 1 < regBits s 0x1000 23 8 → Does (.doorbellPoll n (some ci) []) s (fun t =>
      (sqGet t n).idlePolls = k.idlePolls + 1 ∧ state t = 1 ∧ sqCi t n = ci ∧ MemoryKept s t)) ∧
    (Polls s n → regBits s 0x1000 23 8 ≤ k.idlePolls + 1 → Does (.doorbellPoll n (some ci) []) s (fun t =>
      state t = 2 ∧ hostWord t (areaOf s n) 0 = ci ∧ hostWord t (areaOf s n) 1 = 1 ∧ hostWord t (areaOf s n) 2 = 2 ∧
      HostKept s t (areaOf s n) 64 ∧ t.store = s.store ∧ t.pe = s.pe)) ∧
    (Polls s n → ringFetches s n = true → checkDesc s d = none → descType d = 3 → descFence d = false → s.adminQ = [] → s.accepted = [] →
      4 ≤ regBits s (sqBase n.toNat + 0x18) 5 1 →
      Does (.doorbellPoll n (some (ci + 1)) [b]) s (fun t => sqCi t n = ci + 1 ∧ t.adminQ = [d] ∧ t.accepted = [d] ∧
        state t = 1 ∧ hostWord t (areaOf s n) 0 = ci + 1 ∧ hostWord t (areaOf s n) 1 = 0 ∧
        HostKept s t (areaOf s n) 64 ∧ t.store = s.store ∧ t.pe = s.pe)) ∧
    (∀ v : Reg32, busMaster s = true → v.toNat = n.toNat → sqState s n = 2 → ringOn s (sqBase n.toNat + 0x18) = true →
      Does (.hifWake v) s (fun t => state t = 1 ∧ regBits t 0x1018 15 0 = min (regBits s 0x1018 15 0 + 1) 65535 ∧
        hostWord t (areaOf s n) 1 = 0 ∧ HostKept s t (areaOf s n) 64 ∧ t.store = s.store ∧ t.pe = s.pe)) ∧
    (ringPolls s n = false ∨ ringFetches s n = false → exec (.descriptorFetchFail n why) s = .next s) ∧
    (Polls s n → ringFetches s n = true → k.refetch = false → Does (.descriptorFetchFail n why) s (fun t => (sqGet t n).refetch = true ∧
      sqCi t n = ci ∧ t.cq = s.cq ∧ MemoryKept s t)) ∧
    (Polls s n → ringFetches s n = true → k.refetch = true → regBits s (sqBase n.toNat + 0x20) 8 4 < 15 →
      Does (.descriptorFetchFail n why) s (fun t => sqCi t n = ci + 1 ∧ (sqGet t n).refetch = false ∧
        (t.cq[k.cq]).held = [failCompletion n st ci why] ∧
        regBits t (sqBase n.toNat + 0x20) 8 4 = regBits s (sqBase n.toNat + 0x20) 8 4 + 1 ∧ t.store = s.store))

namespace Sys2Proof.Claims

/-- A fresh descriptor passes the checks of the ring engine, and no FENCE holds it back (R350, R363). -/
def Passes (s : State) (d : Desc) : Prop := d.startup = false ∧ checkDesc s d = none ∧ fenceHolds s d = false

/-- A COPY of n words between two kinds of endpoint, neither packed nor advancing a window (R352). -/
def CopyOf (d : Desc) (src dst : Nat) : Prop :=
  descCode d = 0 ∧ (endpointOf d 0x10).kind = src ∧ (endpointOf d 0x28).kind = dst ∧ dle d 0x0C 1 = 0

/-- A register transfer of one register of a course's file whose NI is open (R353). -/
def OneCourseReg (s : State) (d : Desc) (code : Nat) (c : Fin 64) : Prop :=
  descCode d = code ∧ regCount d = 1 ∧ regIdent d = ident 0 c.val ∧ BitVec.ofNat 3 (dle d 0x0A 1) = ownDev s ∧
  dle d 0x0C 2 < 0x100 ∧ niState s (coursePort s c) = 0 ∧ regLayout (crsReg c (dle d 0x0C 2)) = rw32

end Sys2Proof.Claims

/-- R82, R85, R350 to R353: a kernel descriptor that passes the checks enters the queue of its bow; a transfer enters that
of a mover; at its end a COPY from the host has written the store, one to the host has written host memory, REG_READ has
written the register's value to host memory and REG_WRITE the register, and its completion tells how many words moved. -/
def Sys2Proof.Claims.kernelsAndTransfers : Prop :=
  ∀ (d : Desc) (s : State) (m : Fin 8) (rest : List Desc) (data : List Word) (c : Fin 64), Memory.wf s = true →
    let queued := fun (row : Instr) => Passes s d → (s.movers[moverOf s d]).length < 33 → Does row s (fun t =>
      t.movers = s.movers.set (moverOf s d) (s.movers[moverOf s d] ++ [d]) ∧ t.accepted = s.accepted ++ [d] ∧ MemoryKept s t)
    let n := copyLength d
    let a := (endpointOf d 0x10).addr
    let b := (endpointOf d 0x28).addr
    let host := dle d 0x10 8
    let done := fun (t : State) (moved : Nat) => t.movers = s.movers.set m rest ∧
      Posts s t d (completionOf d stOK 0 (BitVec.ofNat 64 moved))
    (Passes s d → descType d = 1 → kernelBad s d = none → kReload d = false → kTrigger d = false → kUrgent d = false →
      kPinned d = true → kernelPins d = false → queueFull s (kBow d) = false → (bow s (kBow d)).armed = none →
      Does (.kernel d) s (fun t => (bow t (kBow d)).queue = (bow s (kBow d)).queue ++ [newJob d false] ∧
        (bow t (kBow d)).n = (bow s (kBow d)).n ∧ t.accepted = s.accepted ++ [d] ∧ MemoryKept s t)) ∧
    (descType d = 2 → descCode d = 0 → queued (.copy d)) ∧
    (descType d = 2 → descCode d = 1 → queued (.regRead d)) ∧
    (descType d = 2 → descCode d = 2 → queued (.regWrite d)) ∧
    (s.movers[m] = d :: rest → HasRoom s d → busMaster s = true → CopyOf d 0 1 → storeServes s = true → s.storeErr = [] → data.length = n →
      Does (.moverTransferDone m 0x00 n ⟨data, []⟩) s (fun t => done t n ∧ t.host = s.host ∧ t.pe = s.pe ∧
        ∀ x, storeWord t x = if b ≤ x ∧ x < b + n then data.getD (x - b) 0 else storeWord s x)) ∧
    (s.movers[m] = d :: rest → HasRoom s d → busMaster s = true → CopyOf d 1 0 → storeServes s = true → s.storeErr = [] →
      Does (.moverTransferDone m 0x00 n ⟨[], []⟩) s (fun t => done t n ∧ t.store = s.store ∧ t.pe = s.pe ∧
        HostKept s t b (8 * n) ∧ ∀ i j, i < n → j < 8 →
          cget zeroes t.host (b + 8 * i + j) = BitVec.ofNat 8 ((storeWord s (a + i)).toNat / 2 ^ (8 * j)))) ∧
    (∀ row ∈ [Instr.copy d, .regRead d, .regWrite d], fenceHolds s d = true → exec row s = .next s) ∧
    (s.movers[m] = d :: rest → usesHost d = true → busMaster s = false →
      exec (.moverTransferDone m 0x00 n ⟨data, []⟩) s = .next s) ∧
    (s.movers[m] = d :: rest → HasRoom s d → busMaster s = true → OneCourseReg s d 1 c → Does (.moverTransferDone m 0x00 1 ⟨[], []⟩) s (fun t => done t 1 ∧
      hostWord t host 0 = regView s (crsReg c (dle d 0x0C 2)) ∧ HostKept s t host 4 ∧ t.store = s.store ∧ t.pe = s.pe)) ∧
    (s.movers[m] = d :: rest → HasRoom s d → OneCourseReg s d 2 c → Does (.moverTransferDone m 0x00 1 ⟨[], []⟩) s (fun t => done t 1 ∧
      reg t (crsReg c (dle d 0x0C 2)) = BitVec.ofNat 32 (dle d 0x40 4) ∧
      -- but for the packets that the network's counters count
      (∀ o, (o < 0x20000 ∨ 0x24000 ≤ o) → o ≠ crsReg c (dle d 0x0C 2) → reg t o = reg s o) ∧ MemoryKept s t))

namespace Sys2Proof.Claims

/-- The stream ring is bound and enabled, its window and its slot hold a record, and the host has taken enough (R358). -/
structure StreamReady (s : State) (r : Fin 32) (w : Fin 16) (h : BitVec 32) : Prop where
  bound : (reg s (stBase r.val + 0x18)).getLsbD 0 = true
  window : bitsOf (reg s (stBase r.val + 0x18)).toNat 4 1 = w.val
  words : (s.st[r]).words ≠ 0
  master : busMaster s = true
  store : storeServes s = true ∧ s.storeErr = [] ∧ winOn s w = true
  full : (s.st[r]).words.toNat ≤ winUsed s w ∧ winHead s w < winLen s w ∧ winTail s w < winLen s w
  on : ringOn s (stBase r.val + 0x10) = true
  size : recordSize (s.st[r]).words.toNat ((reg s (stBase r.val + 0x18)).getLsbD 6) ≤ regBits s (stBase r.val + 0x14) 19 0
  room : ((s.st[r]).written - h).toNat < 2 ^ regBits s (stBase r.val + 0x10) 5 1

/-- Address of the slot that a stream ring writes next. -/
def slotAddr (s : State) (r : Fin 32) : Nat :=
  (reg64 s (stBase r.val) (stBase r.val + 4)).toNat +
    (s.st[r]).written.toNat % 2 ^ regBits s (stBase r.val + 0x10) 5 1 * regBits s (stBase r.val + 0x14) 19 0

end Sys2Proof.Claims

/-- R357 to R361: the oldest completion is written to its slot with the phase of the lap and the producer index
advances, with a message at once where its IRQ is set and the vector open, or its pending bit set; a stream record
takes its elements from the window, is written to its slot with its sequence number, and SEQ advances; STREAM_START
and STREAM_STOP bind and unbind; the moderation timer sends the message of a ring that owes one. Says where these
complete: COMPLETION_WRITE, STREAM_RECORD, STREAM_START, STREAM_STOP, IRQ_MOD_TIMER. Some of its clauses rest on the
model's own choices: log entries 36, 125, 141 and 182. -/
def Obligations.CompletionsAndStreams : Prop :=
  ∀ (d : Desc) (s : State) (m : Fin 64) (r : Fin 32) (h : BitVec 32), Memory.wf s = true →
    let o := cqBase m.val
    let q := s.cq[m]
    let log2 := regBits s (o + 0x10) 5 1
    let pi := reg s (o + 0x14)
    let slot := (reg64 s o (o + 4)).toNat + pi.toNat % 2 ^ log2 * 32
    let vector : BitVec 6 := BitVec.ofNat 6 (regBits s (o + 0x10) 11 6)
    let st := stBase (streamOf d).val
    (∀ c rest, q.held = c :: rest → ringOn s (o + 0x10) = true → busMaster s = true → (pi - h).toNat < 2 ^ log2 →
      Does (.completionWrite (BitVec.ofNat 6 m.val) (some h)) s (fun t => (t.cq[m]).held = rest ∧ reg t (o + 0x14) = pi + 1 ∧
        hostWord t slot 0 = c.tag ∧ cget zeroes t.host (slot + 4) = c.status ∧
        (cget zeroes t.host (slot + 7)).getLsbD 0 = (pi.toNat / 2 ^ log2 % 2 == 0) ∧ hostWord t slot 2 = c.detail.setWidth 32 ∧
        hostWord t slot 6 = c.result.setWidth 32 ∧ HostKept s t slot 32 ∧ (c.irq = true → vectorOpen s vector = true → t.msix = vector :: s.msix) ∧
        (c.irq = true → vectorOpen s vector = false → t.msix = s.msix ∧ t.msixPend.getLsbD vector.toNat = true) ∧
        (c.irq = false → q.since + 1 < regBits s (o + 0x10) 19 12 → t.msix = s.msix) ∧ t.store = s.store ∧ t.pe = s.pe)) ∧
    (∀ w, StreamReady s r w h → Does (.streamRecord r ⟨some h, []⟩) s (fun t =>
      reg64 t (stBase r.val + 0x1C) (stBase r.val + 0x20) = reg64 s (stBase r.val + 0x1C) (stBase r.val + 0x20) + 1 ∧
      (t.st[r]).written = (s.st[r]).written + 1 ∧ (t.st[r]).dropped = 0 ∧
      winHead t w = (winHead s w + (s.st[r]).words.toNat) % winLen s w ∧
      hostWord t (slotAddr s r) 0 = reg s (stBase r.val + 0x1C) ∧ hostWord t (slotAddr s r) 1 = reg s (stBase r.val + 0x20) ∧
      hostWord t (slotAddr s r) 4 = (s.st[r]).words.setWidth 32 ∧
      HostKept s t (slotAddr s r) (regBits s (stBase r.val + 0x14) 19 0) ∧ t.store = s.store ∧ t.pe = s.pe)) ∧
    (InTurn 0x0028 d s → recordSize (dle d 0x0C 4) ((dle d 0x0A 1).testBit 0) ≤ regBits s (st + 0x14) 19 0 →
      dle d 0x09 1 < 16 → Does (.streamStart d) s (fun t => (reg t (st + 0x18)).getLsbD 0 = true ∧
        bitsOf (reg t (st + 0x18)).toNat 4 1 = dle d 0x09 1 ∧ (t.st[streamOf d]).words = BitVec.ofNat 16 (dle d 0x0C 4) ∧
        ((dle d 0x0A 1).testBit 2 = false → reg64 t (st + 0x1C) (st + 0x20) = 0) ∧ Completes s t d stOK 0 ∧ MemoryKept s t)) ∧
    (InTurn 0x0029 d s → Does (.streamStop d) s (fun t => t.regs = (setRegBits s (st + 0x18) 0 0 0).regs ∧
      Completes s t d stOK 0 ∧ MemoryKept s t)) ∧
    (q.since ≠ 0 → vectorOpen s vector = true → regBits s (o + 0x10) 29 20 ≠ 0 → Does (.irqModTimer false (BitVec.ofNat 6 m.val)) s (fun t =>
      t.msix = vector :: s.msix ∧ (t.cq[m]).since = 0 ∧ (t.cq[m]).held = q.held ∧ t.regs = s.regs ∧ MemoryKept s t)) ∧
    ((s.st[r]).since ≠ 0 → vectorOpen s (BitVec.ofNat 6 (regBits s (stBase r.val + 0x10) 11 6)) = true →
      regBits s (stBase r.val + 0x10) 29 20 ≠ 0 → Does (.irqModTimer true (BitVec.ofNat 6 r.val)) s
      (fun t => t.msix = BitVec.ofNat 6 (regBits s (stBase r.val + 0x10) 11 6) :: s.msix ∧ (t.st[r]).since = 0 ∧
        t.regs = s.regs ∧ MemoryKept s t))

/-- R84, R356: ABORT of a kernel that waits in its bow's queue takes it out, and both complete, the kernel with ABORTED
and then the ABORT with OK; ABORT of a command that waits its turn does the same; without a target it completes with
LATE_ABORT. -/
def Sys2Proof.Claims.aborts : Prop :=
  ∀ (d x : Desc) (s : State), Memory.wf s = true → InTurn 0x0008 d s →
    let s' := { s with adminQ := dropDesc d s.adminQ }
    let ring := s.cq[ringOf s d]
    let posted := fun (t : State) (first : Completion) =>
      (t.cq[ringOf s d]).held = ring.held ++ [first, completionOf d stOK 0 0] ∧
      t.accepted = dropDesc d (dropDesc x s.accepted) ∧ t.abortWaits = []
    (abortFind s' d = none → Does (.abort d) s (fun t => Completes s t d stLateAbort 0 ∧ t.bows = s.bows ∧ MemoryKept s t)) ∧
    (∀ b j, abortFind s' d = some x → x ≠ d → descType x = 1 → x.startup = false → ringOf s x = ringOf s d →
      ring.held.length < 255 → (∀ c, (bow s c).n.job.map Job.desc ≠ some x ∧ (bow s c).u.job.map Job.desc ≠ some x) →
      (∀ c, c ≠ b → (bow s c).queue = [] ∧ (bow s c).launches = [] ∧ (bow s c).ended = []) → (bow s b).queue = [j] → j.desc = x →
      Does (.abort d) s (fun t => (bow t b).queue = [] ∧ (bow t b).n = (bow s b).n ∧ MemoryKept s t ∧
        posted t (kernelCompletion s j stAborted 0 0))) ∧
    (abortFind s' d = some x → x ≠ d → descType x = 3 → x.startup = false → ringOf s x = ringOf s d →
      ring.held.length < 255 → s'.adminQ = [x] → Does (.abort d) s (fun t => t.adminQ = [] ∧ t.bows = s.bows ∧ MemoryKept s t ∧
        posted t (completionOf x stAborted 0 0)))

/-! ### Slots, keys, lifecycle and tamper -/

namespace Sys2Proof.Claims

/-- The Vault directory reads: ACTIVE, BOOT_COUNT, AUTO_REVERT and, where one is valid, PREVIOUS. -/
def Directory (t : State) (active count : Nat) (auto : Bool) (previous : Option Nat) : Prop :=
  vaultActive t = active ∧ bootCount t = count ∧ autoRevert t = auto ∧
  (if vaultPrevValid t then some (vaultPrevious t) else none) = previous

/-- PREVIOUS where it is valid and a condition of the slot holds. -/
def previousWhere (s : State) (p : Nat → Bool) : Option Nat :=
  if vaultPrevValid s && p (vaultPrevious s) then some (vaultPrevious s) else none

end Sys2Proof.Claims

/-- R375, R380, R382 to R384: SLOT_ERASE and SLOT_WRITE leave a slot other than the active one WRITTEN and no revert
target; SLOT_VERIFY makes it VERIFIED, or FAILED with the status of the first check that fails; SLOT_ACTIVATE and
REVERT exchange the active slot; ROLLBACK_COMMIT burns the counter up to the version of the active slot; BOOT_POLICY
sets AUTO_REVERT; the active slot is neither erased nor written nor activated. Says where these complete:
SLOT_ERASE, SLOT_WRITE, SLOT_ACTIVATE, SLOT_VERIFY, REVERT, ROLLBACK_COMMIT, BOOT_POLICY. Some of its clauses rest
on the model's own choices: log entries 97, 98 and 185. -/
def Obligations.VaultCommands : Prop :=
  ∀ (d : Desc) (img : SlotRead) (s : State), Memory.wf s = true →
    let n := slotOf d
    let a := vaultActive s
    let kept := fun (t : State) (m : Nat) => m < 4 → slotState t m = slotState s m
    let rest := fun (t : State) => lifecycleCode t = lifecycleCode s ∧ t.mode = s.mode ∧ t.bows = s.bows ∧ MemoryKept s t
    let written := fun (t : State) => slotState t n = 1 ∧
      Directory t a (bootCount s) (autoRevert s) (previousWhere s (fun m => m != n)) ∧
      (∀ m, m ≠ n → kept t m) ∧ Completes s t d stOK 0 ∧ rest t
    let refuses := fun (c : Instr) => Does c s (fun t => Completes s t d stNoResource 0 ∧ t.regs = s.regs ∧ rest t)
    let v := slotSecurity s a
    (InTurn 0x0033 d s → n < 4 → n ≠ a → Does (.slotErase d) s written) ∧
    (InTurn 0x0034 d s → n < 4 → n ≠ a → sourceFault s d 0x09 0x18 (dle d 0x10 4) = none → Does (.slotWrite d) s written) ∧
    (InTurn 0x0033 d s → n = a → refuses (.slotErase d)) ∧
    (InTurn 0x0034 d s → n = a → refuses (.slotWrite d)) ∧
    (InTurn 0x0036 d s → n = a → refuses (.slotActivate d)) ∧
    (InTurn 0x0035 d s → n < 4 → slotCheck s img = none → Does (.slotVerify d img) s (fun t => slotState t n = 2 ∧
      reg t (slotReg n 0) = manifestVersion img ∧ slotSecurity t n = manifestSecurity img % 256 ∧ (∀ m, m ≠ n → kept t m) ∧
      Completes s t d stOK 0 ∧ rest t)) ∧
    (∀ o st detail, InTurn 0x0035 d s → n < 4 → slotCheck s img = some (o, st, detail) → Does (.slotVerify d img) s (fun t =>
      slotState t n = 4 ∧ (∀ m, m ≠ n → kept t m) ∧ Posts s t d (completionOf d st detail 0) ∧
      t.adminQ = dropDesc d s.adminQ ∧ rest t)) ∧
    (InTurn 0x0036 d s → n < 4 → n ≠ a → slotState s n = 2 ∨ slotState s n = 3 → Does (.slotActivate d) s (fun t =>
      Directory t n 0 (autoRevert s) (some a) ∧ (∀ m, kept t m) ∧ Completes s t d stOK 0 ∧ rest t)) ∧
    (InTurn 0x0031 d s → revertible s = true → rollbackCount s ≤ slotSecurity s (vaultPrevious s) →
      Does (.revert d) s (fun t => Directory t (vaultPrevious s) 0 (autoRevert s) (some a) ∧ (∀ m, kept t m) ∧
        Completes s t d stOK 0 ∧ rest t)) ∧
    (InTurn 0x0031 d s → revertible s = false → refuses (.revert d)) ∧
    (InTurn 0x0037 d s → activeClean s = true → rollbackCount s < v → brownWarn s = false →
      Does (.rollbackCommit d) s (fun t => rollbackCount t = v ∧
        Directory t a (bootCount s) (autoRevert s) (previousWhere s (fun m => v ≤ slotSecurity s m)) ∧
        (∀ m, kept t m) ∧ Completes s t d stOK 0 ∧ rest t)) ∧
    (InTurn 0x0037 d s → activeClean s = true → v ≤ rollbackCount s →
      Does (.rollbackCommit d) s (fun t => Completes s t d stOK 0 ∧ t.regs = s.regs ∧ rest t)) ∧
    (InTurn 0x0038 d s → Does (.bootPolicy d) s (fun t =>
      Directory t a (bootCount s) ((byteAt d 0x08).testBit 0) (previousWhere s (fun _ => true)) ∧ (∀ m, kept t m) ∧
      Completes s t d stOK 0 ∧ rest t))

namespace Sys2Proof.Claims

/-- The secure partition of the store is zero, and the general store is as it was. -/
def SecureWiped (s t : State) : Prop :=
  ∀ x, storeWord t x = if secureBase ≤ x ∧ x < storeWords then 0 else storeWord s x

/-- Modes in which a detection is answered at once. -/
def AnswersTamper (m : Mode) : Prop := m = .hold ∨ m = .idle ∨ m = .run ∨ m = .service ∨ m = .sentinel ∨ m = .halt

end Sys2Proof.Claims

/-- R385 to R392: OWNER_KEY_SET provisions the owner's key and leaves BLANK; an authorised LIFECYCLE enters ERASE, which
wipes the secure partition and the keys, and the end of ERASE burns the state and boots again, to HOLD; TAMPER_CFG
sets the enables, the responses and the filter; TAMPER_CLEAR clears the latches; a detection of an enabled source is
latched and counted, and wipes or erases; a disabled source does nothing. Says where these complete: OWNER_KEY_SET,
LIFECYCLE, ERASE_END, TAMPER_CFG, TAMPER_CLEAR, TAMPER_DETECT. Some of its clauses rest on the model's own choices:
log entries 3, 99 and 184. -/
def Obligations.KeysAndTamper : Prop :=
  ∀ (d : Desc) (detected : BitVec 5) (sigOk : Bool) (src : TamperSource) (attempts : List SlotRead) (s : State),
    Memory.wf s = true → s.lease.block.toNat < 496 →
    let target := byteAt d 0x08
    let i := tamperBit src
    let lc := lifecycleCode s
    let enabled := regBits s 0x60034 12 8
    let responses := regBits s 0x60034 20 16
    (∀ bs, InTurn 0x0039 d s → ownerProvisioned s = false → lc = 0 → sourceFault s d 0x08 0x10 128 = none →
      Does (.ownerKeySet ⟨d, bs⟩) s (fun t =>
        ownerProvisioned t = true ∧ lifecycleCode t = 1 ∧ rollbackCount t = rollbackCount s ∧
        t.ownerKey = some (BitVec.ofNat 768 (leNumber ((sourceBytes s d 0x08 0x10 128 bs).take 96))) ∧
        ownerContentKey t = (if (byteAt d 0x09).testBit 0 then
          some (BitVec.ofNat 256 (leNumber (((sourceBytes s d 0x08 0x10 128 bs).drop 96).take 32))) else none) ∧
        Completes s t d stOK 0 ∧ MemoryKept s t)) ∧
    (∀ bs, InTurn 0x0039 d s → ownerProvisioned s = true ∨ lc ≠ 0 →
      Does (.ownerKeySet ⟨d, bs⟩) s (fun t => Completes s t d stNoResource 0 ∧ t.regs = s.regs ∧ MemoryKept s t)) ∧
    (InTurn 0x003A d s → lc < target → target ≠ 1 → sigOk = true → authorityExists s target = true →
      Does (.lifecycle d sigOk) s (fun t => t.mode = .erase ∧ t.lifecycle = some (d, target) ∧ lifecycleCode t = lc ∧
        t.keysGone = true ∧ (target ≠ 2 → t.ownerCk = []) ∧
        (∀ k, target = 2 → ownerContentKey s = some k → t.ownerCk = [(lc, k), (2, k)]) ∧ t.sched = [] ∧ SecureWiped s t ∧ t.host = s.host)) ∧
    (InTurn 0x003A d s → lc < target → target ≠ 1 → (sigOk && authorityExists s target) = false →
      Does (.lifecycle d sigOk) s (fun t => Completes s t d stAuthFail 0 ∧ t.mode = s.mode ∧ MemoryKept s t)) ∧
    (∀ n, s.mode = .erase → s.lifecycle = some (d, n) → n ≤ 4 → Does (.eraseEnd attempts) s (fun t =>
      lifecycleCode t = n ∧ t.lifecycle = none ∧ t.mode = .hold ∧ outputsStarted t = false ∧
      (n = 3 → ownerRevoked t = true) ∧ t.host = s.host)) ∧
    (s.mode = .erase → s.lifecycle = none → rampDownRuns s = false → storeIsOn s = true → Does (.eraseEnd attempts) s (fun t =>
      t.mode = .hold ∧ (reg t 0x30004).getLsbD 1 = false ∧ t.pins.safeDriveEn = false ∧ (∀ f, quadState t f ≠ 2) ∧
      MemoryKept s t)) ∧
    (s.mode = .erase → s.lifecycle = none → rampDownRuns s = true → Does (.eraseEnd attempts) s (fun t => t.mode = .sentinel)) ∧
    (InTurn 0x003A d s → target ≤ lc ∨ target = 1 → Does (.lifecycle d sigOk) s (fun t =>
      Posts s t d (completionOf d stBadDescriptor 0x208 0) ∧ t.mode = s.mode ∧ MemoryKept s t)) ∧
    (InTurn 0x003B d s → lc = 2 → enabled &&& byteAt d 0x08 ≠ enabled → Does (.tamperCfg d) s (fun t =>
      Posts s t d (completionOf d stBadDescriptor 0x208 0) ∧ t.regs = s.regs ∧ MemoryKept s t)) ∧
    (InTurn 0x003B d s → lc ≠ 2 ∨ (enabled &&& byteAt d 0x08 = enabled ∧ responses &&& byteAt d 0x09 = responses) → Does (.tamperCfg d) s (fun t => regBits t 0x60034 12 8 = byteAt d 0x08 % 32 ∧
      regBits t 0x60034 20 16 = byteAt d 0x09 % 32 ∧ regBits t 0x60038 25 16 = dle d 0x0A 2 % 1024 ∧
      tamperLatched t = tamperLatched s ∧ Completes s t d stOK 0 ∧ MemoryKept s t)) ∧
    (InTurn 0x003C d s → detected.toNat &&& enabled = 0 → lc ≠ 2 ∨ (sigOk && ownerProvisioned s) = true → Does (.tamperClear d detected sigOk) s (fun t =>
      tamperLatched t = 0 ∧ regBits t 0x60034 12 8 = enabled ∧ Completes s t d stOK 0 ∧ MemoryKept s t)) ∧
    (InTurn 0x003C d s → detected.toNat &&& enabled ≠ 0 → Does (.tamperClear d detected sigOk) s (fun t =>
      Completes s t d stNoResource 0 ∧ t.regs = s.regs ∧ MemoryKept s t)) ∧
    ((reg s 0x60034).getLsbD (8 + i) = true → AnswersTamper s.mode → Does (.tamperDetect src) s (fun t =>
      (tamperLatched t).testBit i = true ∧ regBits t 0x60038 15 0 = min (regBits s 0x60038 15 0 + 1) 65535 ∧
      t.keysGone = true ∧ SecureWiped s t ∧ t.mode = (if (reg s 0x60034).getLsbD (16 + i) then .erase else s.mode) ∧
      t.host = s.host)) ∧
    ((reg s 0x60034).getLsbD (8 + i) = false → exec (.tamperDetect src) s = .next s)

/-! ### Reset, boot and operating modes -/

namespace Sys2Proof.Claims

/-- What a slot gives passes every check, beside the supplies measured at the banks, and its second pass (R373, R374). -/
def SlotSound (s : State) (img : SlotRead) : Prop :=
  slotCheck (setReg s 0x40020 (img.banks.setWidth 32)) img = none ∧ img.applyStatus = stOK

/-- The running state that a slot gives passes every check, needs no admin pass, and calibration and clearing succeed (R367,
R373). -/
def SlotBoots (s : State) (img : SlotRead) : Prop :=
  SlotSound s img ∧ img.calibrateOk = true ∧ img.clearOk = true ∧ img.startup = []

/-- The copy of the Vault directory that a read takes is the directory as the registers show it (R375). -/
def DirectoryShown (s : State) : Prop := ∀ n, newerCopy s = some n → (s.vault[n]).dir = vaultDir s

/-- No kernel runs, and the Soundpost works on nothing. -/
def AtRest (s : State) : Prop := anyKernel s = false ∧ regBits s 0x70000 8 5 = 0

/-- A clean boot has ended in HOLD: START_OUTPUTS is awaited, and the slot is GOOD (R368, R376). -/
def CleanInHold (t : State) : Prop :=
  t.mode = .hold ∧ t.refused = false ∧ t.pins.ready = true ∧ bootCount t = 0 ∧ slotState t (vaultActive t) = 3 ∧
  outputsStarted t = false ∧ storeIsOn t = true ∧ ∀ f, quadState t f = 1

/-- A boot that found no good slot has ended in HOLD, refused (R379). -/
def RefusedInHold (t : State) : Prop :=
  t.mode = .hold ∧ t.refused = true ∧ t.pins.ready = false ∧ slotState t (vaultActive t) = 4 ∧ outputsStarted t = false

/-- The next boot attempt is of the active slot, and no STARTUP descriptor is left over. -/
def FirstAttempts (s : State) : Prop := bootCount s < 3 ∧ passRuns s = false

end Sys2Proof.Claims

/-- R20, R310, R367 to R379, R383, R393, R448: reset stops everything, empties the store, keeps epoch, MRAM and fuses,
and leaves BOOT; the release of reset and RESTART boot the active slot: where it passes every check the device is in
HOLD with READY high, and where no slot can be read it is in HOLD with the slot refused. Says where these complete:
RESET, POR_RELEASE, RESTART. Some of its clauses rest on the model's own choices: log entries 65, 96, 97, 101 and
185. -/
def Obligations.ResetAndBoot : Prop :=
  ∀ (d : Desc) (img : SlotRead) (fallback : Bool) (us : BitVec 20) (s : State), Memory.wf s = true →
    Does .reset s (fun t => t.mode = .boot ∧ t.epoch = s.epoch ∧ t.host = s.host ∧ (∀ x, storeWord t x = 0) ∧
      (∀ b, (bow t b).n.job = none ∧ (bow t b).u.job = none ∧ (bow t b).group = none) ∧
      (s.bootPass = none → DirectoryShown s → ∀ o, 0x60004 ≤ o → o < 0x60034 → reg t o = reg s o) ∧
      (∀ p, s.bootPass = some p → p.wakeTo = none → slotState t (vaultActive s) = 4) ∧ busMaster t = false ∧ outputsStarted t = false ∧ t.pins.safeDriveEn = false ∧
      t.accepted = [] ∧ t.movers = State.reset.movers ∧ t.sched = []) ∧
    (s.mode ≠ .boot → exec (.porRelease [img] fallback us) s = .next s) ∧
    (s.mode = .boot → FirstAttempts s → outputsStarted s = false → SlotBoots s img → manifestAutostart img = false →
      Does (.porRelease [img] fallback us) s (fun t => CleanInHold t ∧ vaultActive t = vaultActive s ∧
        regBits t 0x60048 19 0 = us.toNat ∧ (reg t 0x60000).getLsbD 17 = img.fallback.getD fallback)) ∧
    (s.mode = .boot → FirstAttempts s → outputsStarted s = false → autoRevert s = false →
      Does (.porRelease [] fallback us) s (fun t => RefusedInHold t ∧ vaultActive t = vaultActive s ∧
        bootCount t = bootCount s + 1)) ∧
    (InTurn 0x0032 d s → FirstAttempts s → SlotBoots s img → manifestAutostart img = false → Does (.restart d [img]) s (fun t =>
      CleanInHold t ∧ vaultActive t = vaultActive s ∧ (∀ b, (bow t b).n.job = none ∧ (bow t b).u.job = none) ∧ t.sched = [])) ∧
    (InTurn 0x0032 d s → FirstAttempts s → autoRevert s = false → Does (.restart d []) s (fun t => RefusedInHold t ∧
      vaultActive t = vaultActive s ∧ t.sched = []))

/-- R21, R381, R396 to R403, R414: START_OUTPUTS in HOLD with a valid Guard starts the READY quadrants, raises
SAFE_DRIVE_EN and enters IDLE, and otherwise names its cause; MODE_SET enters STANDBY or SLEEP, in which the domains
are off; a wake from SLEEP brings IDLE back, one from STANDBY the mode before it, and without its source nothing
wakes; SENTINEL_EXIT enters HOLD once no cause stands against it. Says where these complete: START_OUTPUTS,
MODE_SET, WAKE, SENTINEL_EXIT. Some of its clauses rest on the model's own choices: log entries 62, 63, 64, 66, 68,
74 and 102. -/
def Obligations.OperatingModes : Prop :=
  ∀ (d : Desc) (img : SlotRead) (src : WakeSource) (d3hot : Bool) (s : State), Memory.wf s = true →
    let answered := fun (t : State) (c : Completion) =>
      ∃ more, (t.cq[ringOf s d]).held = (s.cq[ringOf s d]).held ++ c :: more
    let standby : Bool := byteAt d 0x08 == 1
    (InTurn 0x0030 d s → s.mode = .hold → outputsBad s = none → scanTaken s = false → startupDescs s.startup 1 = [] →
      AtRest s → reg s 0x90010 = 0 → rampUpMs s ≠ 0 → Does (.startOutputs d) s (fun t => t.mode = .idle ∧ outputsStarted t = true ∧
        t.pins.safeDriveEn = true ∧ t.pins.ready = true ∧ regBits t 0x74000 2 1 = 1 ∧
        t.guard.ramp = some { up := true, t0 := s.epoch } ∧ (gainAt t).1 = 0 ∧
        (∀ f, quadState t f = if quadState s f = 1 then 2 else quadState s f) ∧ Completes s t d stOK 0 ∧ MemoryKept s t)) ∧
    (∀ c, InTurn 0x0030 d s → s.mode = .hold → outputsBad s = some c → Does (.startOutputs d) s (fun t =>
      Posts s t d (completionOf d stNoResource (BitVec.ofNat 24 c) 0) ∧ t.mode = .hold ∧ t.regs = s.regs ∧
      t.pins = s.pins ∧ MemoryKept s t)) ∧
    (InTurn 0x0030 d s → s.mode = .hold → outputsBad s = none → scanTaken s = true → Does (.startOutputs d) s (fun t =>
      Completes s t d stNoResource 0 ∧ t.mode = .hold ∧ t.regs = s.regs ∧ MemoryKept s t)) ∧
    (InTurn 0x0030 d s → s.mode ≠ .hold → Does (.startOutputs d) s (fun t => Completes s t d stOK 0 ∧ t.mode = s.mode ∧
      t.regs = s.regs ∧ MemoryKept s t)) ∧
    (InTurn 0x0040 d s → modeSetBad s d d3hot = false → Does (.modeSet d d3hot) s (fun t =>
      t.mode = (if standby then .standby else .sleep) ∧ t.before = s.mode ∧ t.pins.safeDriveEn = false ∧ t.pins.ready = false ∧
      storeIsOn t = false ∧ (∀ f, quadState t f = 0) ∧ t.host = s.host ∧ answered t (completionOf d stOK 0 0))) ∧
    (InTurn 0x0040 d s → modeSetBad s d d3hot = true → Does (.modeSet d d3hot) s (fun t => Completes s t d stNoResource 0 ∧
      t.mode = s.mode ∧ t.regs = s.regs ∧ MemoryKept s t)) ∧
    (s.mode = .sleep → wakeDue s src = true → s.fullBoot = false → SlotSound s img →
      AtRest s → reg s 0x74010 = 0 → Does (.wake src [img]) s (fun t => t.mode = .idle ∧ storeIsOn t = true ∧
        (∀ f, quadState t f = 2) ∧ t.pins.ready = true ∧ t.host = s.host)) ∧
    (s.mode = .standby → wakeDue s src = true → s.fullBoot = false → s.before = .hold → SlotBoots s img → passRuns s = false →
      Does (.wake src [img]) s (fun t => t.mode = .hold ∧ storeIsOn t = true ∧ t.refused = false ∧ (∀ f, quadState t f = 1) ∧
        t.host = s.host)) ∧
    (s.mode ≠ .standby → s.mode ≠ .sleep → src ≠ .perst → exec (.wake src [img]) s = .next s) ∧
    (wakeDue s src = false → src ≠ .perst → exec (.wake src [img]) s = .next s) ∧
    (InTurn 0x0041 d s → s.mode = .sentinel → sentinelBad s = none → Does (.sentinelExit d img) s (fun t =>
      t.mode = .hold ∧ t.pins.sentinelN = true ∧ storeIsOn t = true ∧ t.host = s.host ∧ Completes s t d stOK 0)) ∧
    (∀ c, InTurn 0x0041 d s → sentinelBad s = some c → Does (.sentinelExit d img) s (fun t =>
      Posts s t d (completionOf d stNoResource (BitVec.ofNat 24 c) 0) ∧ t.mode = s.mode ∧ t.regs = s.regs ∧ MemoryKept s t))

/-! ### Continuity -/

namespace Sys2Proof.Claims

/-- A sample of a powered domain. -/
def Sampled (s : State) (x : Sample) : Prop := domainOn s x.domain.val = true

/-- The margin that a sample leads to: the mean of the last 64 of its domain, each the least of four slacks (R404). -/
def shownMargin (s : State) (x : Sample) : Nat :=
  let least := min (min (x.slacks[0]).toNat (x.slacks[1]).toNat) (min (x.slacks[2]).toNat (x.slacks[3]).toNat)
  let last64 := (least :: (s.margins[x.domain]).map (fun m => m.toNat)).take 64
  last64.sum / last64.length

/-- A migration that has copied nothing yet (R408). -/
def freshCopy (c : Fin 64) (p : Fin 68) (d : Desc) : Migration :=
  { logical := c, mirror := p, desc := some d, next := 0, todo := [], read := none, dirty := [], clean := false }

/-- Entry n of the Logbook as 16 bytes; zeros where it is not held (R423). -/
def entryImage (s : State) (n : Nat) : List (BitVec 8) := match entryNo s n with
  | some e => entryBytes e
  | none => List.replicate 16 0

/-- The entries that the Logbook holds among n from a number on. -/
def entriesHeld (s : State) (first n : Nat) : Nat :=
  ((List.range n).filter (fun i => (entryNo s (first + i)).isSome)).length

end Sys2Proof.Claims

/-- R404 to R406, R420: a sample of a powered domain fills its monitor registers with the mean of the last 64 margins (a
whole number of units, the model's own choice, DESIGN CHOICE, log entry 115), the least of them, temperature, supply
and the mean of the ring oscillators; a margin below MARGIN_LOW alerts; 105 °C pulls THERM_N low and is a fault; a
domain that is off gives no sample; SERVICE_POLICY sets the policy. Says where these complete: MONITOR_SAMPLE,
SERVICE_POLICY. Some of its clauses rest on the model's own choices: log entries 3 and 115. -/
def Obligations.MonitorSamples : Prop :=
  ∀ (d : Desc) (x : Sample) (s : State), Memory.wf s = true →
    let o := domReg x.domain.val 0
    let policy : Policy := { low := BitVec.ofNat 8 (byteAt d 0x09), crit := BitVec.ofNat 8 (byteAt d 0x0A)
                             high := BitVec.ofNat 8 (byteAt d 0x0B), eccRate := BitVec.ofNat 16 (dle d 0x0C 2)
                             courseTest := (byteAt d 0x0E).testBit 0, storeTest := (byteAt d 0x0E).testBit 1
                             exclude := BitVec.ofNat 64 (dle d 0x10 8) }
    let margin := shownMargin s x
    (Sampled s x → Does (.monitorSample x) s (fun t => regBits t o 7 0 = margin ∧
      regBits t o 15 8 = min (regBits s o 15 8) margin ∧ regBits t o 23 16 = x.temp.toNat ∧
      regBits t (o + 4) 11 0 = x.supply.toNat ∧ regBits t (o + 8) 15 0 = (x.ros[0].toNat + x.ros[1].toNat) / 2 ∧
      (margin < s.policy.low.toNat → (reg t 0x70004).getLsbD 1 = true) ∧ t.epoch = s.epoch ∧ MemoryKept s t)) ∧
    (Sampled s x → 169 ≤ x.temp.toNat → s.faults.contains .thermal = false → Does (.monitorSample x) s (fun t =>
      t.pins.thermN = false ∧ t.faults.contains .thermal = true ∧ t.pins.faultN = false ∧ (reg t 0x70004).getLsbD 2 = true)) ∧
    (domainOn s x.domain.val = false → x.domain.val < 84 ∨ 88 ≤ x.domain.val → exec (.monitorSample x) s = .next s) ∧
    (∀ q : Fin 4, x.domain.val = 84 + q.val → Does (.monitorSample x) s (fun t =>
      regBits t 0x40020 (2 * q.val + 1) (2 * q.val) = x.vio.toNat ∧ MemoryKept s t)) ∧
    (InTurn 0x0042 d s → Does (.servicePolicy d) s (fun t => policyNo t = byteAt d 0x08 % 4 ∧ t.policy = policy ∧
      t.regs = (setRegBits s 0x70000 1 0 (byteAt d 0x08)).regs ∧ Completes s t d stOK 0 ∧ MemoryKept s t))

/-- R407 to R410: MIGRATE attaches a free spare as the mirror of a course of a group; after a clean pass the identity's
move begins, and its last MARKER makes the mirror the course and sends the old one to test; the test controller
leases a course that may be leased, and its result fails it, returns it, or after three good passes makes it a spare
again. Says where these complete: MIGRATE, MIGRATION_SWAP, MARKER, COURSE_LEASE, TEST_RESULT. Some of its clauses
rest on the model's own choices: log entries 3, 112, 113 and 114. -/
def Obligations.MigrationAndTest : Prop :=
  ∀ (d : Desc) (c : Fin 64) (p : Fin 68) (pass : Bool) (margin : BitVec 8) (s : State), Memory.wf s = true →
    let st := s.pcourse[p]
    let spares := fun (t : State) (v : PState) => t.pcourse = s.pcourse.set p v
    let tested := fun (t : State) => t.tested = s.tested.set p margin ∧ t.lmap = s.lmap ∧ MemoryKept s t
    (InTurn 0x0043 d s → byteAt d 0x08 = c.val → byteAt d 0x09 = p.val → (course s c).owner.isSome = true →
      s.migration = none → s.idMove = none → spareFree s p = true → Does (.migrate d) s (fun t =>
        t.migration = some (freshCopy c p d) ∧ spares t .mirror ∧ t.lmap = s.lmap ∧
        (reg t 0x70000).getLsbD 5 = true ∧ domainOn t p.val = true ∧ regBits t 0x700C0 25 24 = 1 ∧
        regBits t (domReg p.val 4) 23 12 = regBits s (domReg (s.lmap[c]).val 4) 23 12 ∧
        (s.mode = .idle ∨ s.mode = .run → t.mode = .service) ∧ GoesOn s t d ∧ MemoryKept s t)) ∧
    (InTurn 0x0043 d s → byteAt d 0x08 = c.val → s.migration = none → (course s c).owner = none →
      Does (.migrate d) s (fun t => Completes s t d stNoResource 0 ∧ t.migration = none ∧ t.regs = s.regs ∧ MemoryKept s t)) ∧
    (∀ m, s.migration = some m → m.clean = true → courseSpeculative s m.logical = false → s.idMove = none →
      Does .migrationSwap s (fun t => t.migration = s.migration ∧ t.idMove = some (m.logical, m.mirror) ∧
        regBits t 0x700C0 25 24 = 3 ∧ (reg t 0x23800).getLsbD 1 = true ∧ t.lmap = s.lmap ∧ t.pcourse = s.pcourse ∧
        t.flight = s.flight ++ usedPorts.map (markerOf s m.logical) ++
          usedPorts.map (fun np => { markerOf s m.logical np with via := .second }) ∧ MemoryKept s t)) ∧
    (∀ m x, s.migration = some m → m.desc = some d → HasRoom s d → LastMarker s x m.logical m.mirror → s.heldBack = [] →
      Does (.marker x) s (fun t => t.migration = none ∧ t.lmap = s.lmap.set m.logical m.mirror ∧
        t.pcourse = (s.pcourse.set s.lmap[m.logical] .retest).set m.mirror .active ∧ t.courses = s.courses ∧
        (reg t 0x70000).getLsbD 5 = false ∧ Posts s t d (completionOf d stOK 0 0) ∧ MemoryKept s t)) ∧
    (∀ m, s.migration = some m → m.clean = false ∨ courseSpeculative s m.logical = true →
      exec .migrationSwap s = .next s) ∧
    (mayLease s p = true → logicalOf s p = none → Does (.courseLease p) s (fun t => spares t .leased ∧
      (reg t 0x70000).getLsbD 6 = true ∧ t.courses = s.courses ∧ MemoryKept s t)) ∧
    (mayLease s p = true → logicalOf s p = some c → Does (.courseLease p) s (fun t => spares t .leased ∧
      (reg t 0x70000).getLsbD 6 = true ∧ (course t c).leased = true ∧ (course t c).ready = false ∧ t.store = s.store)) ∧
    (mayLease s p = false → exec (.courseLease p) s = .next s) ∧
    (st ≠ .leased → st ≠ .retest → exec (.testResult p pass margin) s = .next s) ∧
    (st = .leased → logicalOf s p = none → Does (.testResult p pass margin) s (fun t =>
      spares t (if pass then .spareOff else .failed) ∧ (reg t 0x70000).getLsbD 6 = false ∧ domainOn t p.val = false ∧ tested t)) ∧
    (st = .retest → pass = false → Does (.testResult p pass margin) s (fun t => spares t .failed ∧ domainOn t p.val = false ∧
      tested t)) ∧
    (st = .retest → pass = true → s.policy.high ≤ margin → Does (.testResult p pass margin) s (fun t =>
      spares t (if 2 ≤ s.passes[p] then .spareOff else .retest) ∧ t.passes = s.passes.set p (s.passes[p] + 1) ∧ tested t))

/-- R411, R421, R423: FW_SWITCH to a slot that verifies runs the other bank once the new firmware has reported, and its
time limit brings the old bank back with INTERNAL; LOGBOOK_READ writes the entries asked for and tells how many the
Logbook held; a commit covers every entry so far; the end of a suppression period records how many entries were
folded. Says where these complete: FW_SWITCH, FW_SWITCH_TIMEOUT, LOGBOOK_READ, LOGBOOK_COMMIT, LOGBOOK_SUPPRESSED.
Some of its clauses rest on the model's own choices: log entry 118. -/
def Obligations.FirmwareAndLogbook : Prop :=
  ∀ (d : Desc) (img : SlotRead) (source event : BitVec 16) (s : State), Memory.wf s = true →
    let n := slotOf d
    let bank := regBits s 0x70000 9 9
    let first := dle d 0x0C 4
    let count := dle d 0x10 4
    let a := dle d 0x18 8
    let good := slotState s n = 2 ∨ slotState s n = 3
    (InTurn 0x0044 d s → good → manifestCheck s img = none → Does (.fwSwitch d img true) s (fun t =>
      regBits t 0x70000 9 9 = 1 - bank ∧ t.firmware = s.firmware.set (Fin.ofNat 2 (1 - bank)) img.firmware ∧
      (reg t 0x70000).getLsbD 8 = false ∧ t.fwSwitch = s.fwSwitch ∧
      Completes s t d stOK 0 ∧ MemoryKept s t)) ∧
    (InTurn 0x0044 d s → good → manifestCheck s img = none → Does (.fwSwitch d img false) s (fun t =>
      regBits t 0x70000 9 9 = bank ∧ (reg t 0x70000).getLsbD 8 = true ∧ t.fwSwitch = some d ∧ GoesOn s t d ∧
      MemoryKept s t)) ∧
    (∀ o st detail ready, InTurn 0x0044 d s → good → manifestCheck s img = some (o, st, detail) →
      Does (.fwSwitch d img ready) s (fun t => Posts s t d (completionOf d st detail 0) ∧ t.regs = s.regs ∧ MemoryKept s t)) ∧
    (∀ ready, InTurn 0x0044 d s → ¬good → Does (.fwSwitch d img ready) s (fun t => Completes s t d stNoResource 0 ∧
      t.regs = s.regs ∧ MemoryKept s t)) ∧
    (s.fwSwitch = some d → HasRoom s d → Does .fwSwitchTimeout s (fun t => t.fwSwitch = none ∧ regBits t 0x70000 9 9 = bank ∧
      (reg t 0x70000).getLsbD 8 = false ∧ Posts s t d (completionOf d stInternal 0 0) ∧ MemoryKept s t)) ∧
    (InTurn 0x0049 d s → byteAt d 0x08 = 0 → Does (.logbookRead ⟨d, []⟩) s (fun t =>
      (∀ i j, i < count → j < 16 → cget zeroes t.host (a + 16 * i + j) = (entryImage s (first + i)).getD j 0) ∧
      HostKept s t a (16 * count) ∧ Completes s t d stOK (BitVec.ofNat 64 (entriesHeld s first count)) ∧ t.log = s.log ∧
      t.store = s.store ∧ t.pe = s.pe)) ∧
    Does .logbookCommit s (fun t => t.logDone = s.logNext ∧ t.log = s.log ∧ t.logNext = s.logNext ∧ t.regs = s.regs ∧
      MemoryKept s t) ∧
    (∀ t₀ k, s.folded = [(source, event, t₀, k)] → 0 < k → s.log.length < 16384 → Does (.logbookSuppressed source event) s (fun t =>
      t.log = { epoch := s.epoch, source, event := 3, status := stOK, detail := BitVec.ofNat 24 k } :: s.log ∧
      t.logNext = s.logNext + 1 ∧ t.folded = [] ∧ t.regs = s.regs ∧ MemoryKept s t)) ∧
    (s.folded = [] → exec (.logbookSuppressed source event) s = .next s)

/-! ### Peer links, JTAG, debug and host register writes -/

namespace Sys2Proof.Claims

/-- The link waits in one of the training states LOCK, ALIGN and EXCHANGE (R427). -/
def Trains (s : State) (l : Fin 2) : Prop :=
  peerEnabled s l = true ∧ 1 ≤ linkState s l.val ∧ linkState s l.val ≤ 3

/-- The link has begun to retrain: counted, in state ALIGN, what it keeps for replay still held (R430). -/
def Retrains (s t : State) (l : Fin 2) : Prop :=
  linkState t l.val = 2 ∧ regBits t (linkReg l.val 8) 31 0 = min (regBits s (linkReg l.val 8) 31 0 + 1) 0xFFFFFFFF ∧
  (peer t l).kept = (peer s l).kept ∧ (peer t l).expect = (peer s l).expect ∧ MemoryKept s t

/-- A frame of a type and a number with the CRC of its first 352 bits (R426; the order of its fields is the model's own
choice, log entry 127). -/
def Whole (f : BitVec 384) (type : BitVec 4) (n : BitVec 12) : Prop :=
  f.extractLsb' 336 4 = type ∧ f.extractLsb' 340 12 = n ∧ f.extractLsb' 352 32 = crc32 (leBytes (f.toNat % 2 ^ 352) 44)

/-- Slot k of a frame is valid; its control bits are its VC, and whether it begins a packet. -/
def slotUsed (f : BitVec 384) (k : Nat) : Bool := f.getLsbD (323 + 4 * k)

/-- No slot of the frame is valid. -/
def NoFlits (f : BitVec 384) : Prop := ∀ k, k < 4 → slotUsed f k = false

/-- Only slot 0 is valid, and it begins a packet with no payload: this packet. -/
def OneFlit (f : BitVec 384) (x : BitVec 4 × Packet) : Prop :=
  slotUsed f 0 = true ∧ (∀ k, k < 4 → k ≠ 0 → slotUsed f k = false) ∧ f.getLsbD 322 = true ∧
  headerPacket (f.extractLsb' 0 80) = x ∧ flitsOf x.1.toNat x.2.words.toNat = 0

/-- The link's receiver has taken one more DATA frame. -/
def TookFrame (s t : State) (l : Fin 2) : Prop :=
  (peer t l).expect = (peer s l).expect + 1 ∧ (peer t l).kept = (peer s l).kept ∧ (peer t l).next = (peer s l).next ∧
  (if 16 ≤ (peer s l).sinceAck + 1 then (peer t l).sinceAck = 0 ∧ (peer t l).reply = some (1, (peer s l).expect)
   else (peer t l).sinceAck = (peer s l).sinceAck + 1 ∧ (peer t l).reply = (peer s l).reply) ∧
  t.flight = s.flight ∧ t.regs = s.regs ∧ MemoryKept s t

/-- The sender keeps only the latest `n` of its frames; packets that waited for a place are sent, oldest first (R430). -/
def Drained (s t : State) (l : Fin 2) (n : Nat) : Prop :=
  ∃ more sent, (peer t l).kept = more ++ (peer s l).kept.take n ∧ (peer s l).wait = sent ++ (peer t l).wait

/-- What a header and its payload flits hold agrees with the packet's type (R244, R245). -/
structure Formed (x : Sent) : Prop where
  type  : x.type.toNat ≤ 10
  flits : x.pkt.flits = flitsOf x.type.toNat x.pkt.words.toNat
  data  : x.pkt.data.length = (if x.type.toNat = 0 ∨ x.type.toNat = 3 ∨ x.type.toNat = 6 then 0 else x.pkt.words.toNat)
  host  : x.type.toNat = 6 ∨ x.type.toNat = 7 ∨ x.pkt.host = 0
  words : x.type.toNat ≠ 9 ∨ x.pkt.words = 0

end Sys2Proof.Claims

/-- R243, R244, R426 to R430: a packet is read back from its flits, a flit sent passes its check, and one with a bit
wrong does not; EXCHANGE with the expected partner brings a link UP, any other leaves it in MISMATCH; the retrain
timers start training anew; a frame with a bad CRC is counted, discarded and answered with a NAK; a DATA frame in
order is taken, every sixteenth is acknowledged, and a packet for this device enters its network; a frame out of
order retrains; ACK and NAK free earlier frames; the acknowledgement timer sends one; eight retrains within a second
fail the link. Says where these complete: PEER_TRAIN, PEER_RETRAIN_TIMER, PEER_FRAME, PEER_ACK_TIMER,
PEER_LINK_FAIL. Some of its clauses rest on the model's own choices: log entry 127. -/
def Obligations.PeerLinks : Prop :=
  ∀ (l : Fin 2) (dev : BitVec 3) (size : BitVec 4) (rev : Bool) (n : BitVec 12) (f : BitVec 384) (s : State),
    Memory.wf s = true →
    let k := peer s l
    let state := fun (t : State) => linkState t l.val
    let other := fun (t : State) => t.peers = s.peers ∧ MemoryKept s t
    (∀ (x : Sent) (h : BitVec 80) (body : List (BitVec 80)), Formed x → packetFlits x = h :: body →
      packetOfFlits h body = (x.type, x.pkt)) ∧
    (∀ (d : BitVec 80) (vc : BitVec 2) (head : Bool) (i : Nat), i < 88 → flitSound (linkFlit d vc head) = true ∧
      flitSound (linkFlit d vc head ^^^ BitVec.ofNat 88 (2 ^ i)) = false) ∧
    (Trains s l → size.toNat = ringSize s → dev.toNat = partnerOf s l → Does (.peerTrain l dev size rev) s (fun t =>
      state t = 4 ∧ regBits t (linkReg l.val 0) 5 3 = dev.toNat ∧ (reg t (linkReg l.val 0)).getLsbD 6 = rev ∧ other t)) ∧
    (Trains s l → size.toNat ≠ ringSize s ∨ dev.toNat ≠ partnerOf s l → Does (.peerTrain l dev size rev) s (fun t =>
      state t = 5 ∧ other t)) ∧
    (state s = 5 → Does (.peerRetrainTimer l) s (fun t => state t = 1 ∧ other t)) ∧
    (state s = 6 → Does (.peerRetrainTimer l) s (fun t => state t = 1 ∧ (peer t l).next = 0 ∧ (peer t l).expect = 0 ∧
      (peer t l).kept = [] ∧ MemoryKept s t)) ∧
    (state s = 4 → f.extractLsb' 352 32 ≠ crc32 (leBytes (f.toNat % 2 ^ 352) 44) → Does (.peerFrame l f) s (fun t =>
      t.regs = (countUp s (linkReg l.val 4) 31 0 1).regs ∧ peer t l = { k with
        reply := some (2, k.expect), line := (frameBits [] 2 k.expect :: k.line).take 64 } ∧
      t.flight = s.flight ∧ MemoryKept s t)) ∧
    (state s = 4 → Whole f 0 k.expect → NoFlits f → Does (.peerFrame l f) s (fun t => TookFrame s t l)) ∧
    (∀ x, state s = 4 → Whole f 0 k.expect → OneFlit f x → x.2.ddev = ownDev s → Does (.peerFrame l f) s (fun t =>
      ∃ u, TookFrame s u l ∧ t = inject u x.1.toNat x.2)) ∧
    (state s = 4 → n ≠ k.expect → Whole f 0 n → Does (.peerFrame l f) s (fun t => Retrains s t l)) ∧
    (state s = 4 → Whole f 1 n → (k.next - (n + 1)).toNat ≤ k.kept.length → Does (.peerFrame l f) s (fun t =>
      (k.wait = [] → peer t l = { k with kept := k.kept.take (k.next - (n + 1)).toNat }) ∧
      Drained s t l (k.next - (n + 1)).toNat ∧ t.regs = s.regs ∧ MemoryKept s t)) ∧
    (state s = 4 → Whole f 2 n → (k.next - n).toNat ≤ k.kept.length → Does (.peerFrame l f) s (fun t =>
      let kept := k.kept.take (k.next - n).toNat
      (k.wait = [] → peer t l = { k with kept, line := (kept.map (fun x => x.bits) ++ k.line).take 64 }) ∧
      Drained s t l (k.next - n).toNat ∧ t.regs = s.regs ∧ MemoryKept s t)) ∧
    (∀ (x : Sent) (high : Bool), k.kept.length + frameCount x.pkt ≤ 64 → ∃ t, sendFrame s l x high = some t ∧
      (peer t l).next = k.next + BitVec.ofNat 12 (frameCount x.pkt) ∧ (peer t l).kept.length = k.kept.length + frameCount x.pkt ∧
      (∀ f ∈ (peer t l).kept, f ∈ k.kept ∨ frameSound f.bits = true) ∧ t = { s with peers := t.peers }) ∧
    (∀ (x : Sent) (high : Bool), 64 < k.kept.length + frameCount x.pkt → sendFrame s l x high = none) ∧
    (state s ≠ 4 → exec (.peerFrame l f) s = .next s) ∧
    (k.sinceAck ≠ 0 → Does (.peerAckTimer l) s (fun t =>
      peer t l = { k with
        sinceAck := 0, reply := some (1, k.expect - 1), line := (frameBits [] 1 (k.expect - 1) :: k.line).take 64 } ∧ t.regs = s.regs ∧ MemoryKept s t)) ∧
    (k.sinceAck = 0 → exec (.peerAckTimer l) s = .next s) ∧
    (8 ≤ (recentRetrains s l).length → k.kept = [] → k.wait = [] → (∀ x ∈ s.flight, x.via ≠ .over l) → Does (.peerLinkFail l) s (fun t => state t = 6 ∧
      (reg t (linkReg l.val 0)).getLsbD 7 = true ∧ (peer t l).next = 0 ∧ t.flight = s.flight ∧ MemoryKept s t)) ∧
    ((recentRetrains s l).length < 8 → exec (.peerLinkFail l) s = .next s)

namespace Sys2Proof.Claims

/-- The host interface reaches a store word over the network (R436). -/
def Bar4Reaches (s : State) (offset : BitVec 26) (np : Nat × Nat) : Prop :=
  bar4Maps s offset = true ∧ portOf s (ident 2 (offset.toNat / 8 / 8 % 4)) 32 = some np ∧ portEnabled s np = true ∧
  niState s np = 0 ∧ s.storeErr = []

/-- The first five bytes of a value under byte enables, over a word. -/
def underEnables (old : Word) (v : BitVec 64) (be : BitVec 8) : Word :=
  mergeLanes old (v.setWidth 40) (be.extractLsb' 0 5)

end Sys2Proof.Claims

/-- R431 to R433, R436: an instruction that controls the balls takes effect before outputs start with the debug lock
open, and is otherwise a counted BYPASS; the others and TRST_N only load the instruction register; the debug access
port reads and writes registers; BAR4 reads and writes words of the general store, and reads as zero where it maps
nothing. Says where these complete: EXTEST, CLAMP, HIGHZ, EXTEST_PULSE, EXTEST_TRAIN, SAMPLE_PRELOAD, IDCODE,
BYPASS, TRST_N_ASSERT, DAP_ACCESS, REGISTER_WRITE, BAR4_ACCESS. Some of its clauses rest on the model's own choices:
log entries 13, 129 and 130. -/
def Obligations.JtagAndBar4 : Prop :=
  ∀ (s : State) (addr : BitVec 18) (v : Reg32) (offset : BitVec 26) (x : BitVec 64) (be : BitVec 8), Memory.wf s = true →
    let o := 4 * addr.toNat
    let ir := fun (code : BitVec 8) => { s.jtag with ir := code, control := false }
    let takes := fun (c : Instr) (code : BitVec 8) =>
      (outputsStarted s = false → debugOpen s = true → Does c s (fun t =>
        t = { s with jtag := { s.jtag with ir := code, control := true, taken := true } })) ∧
      (outputsStarted s = true ∨ debugOpen s = false → Does c s (fun t => t.jtag = ir code ∧
        regBits t 0x90014 31 16 = min (regBits s 0x90014 31 16 + 1) 65535 ∧ t.pins = s.pins ∧ MemoryKept s t))
    let loads := fun (c : Instr) (code : BitVec 8) => Does c s (fun t => t = { s with jtag := ir code })
    let a := offset.toNat / 8
    takes .extest 0x00 ∧ takes .clamp 0x04 ∧ takes .highz 0x05 ∧ takes .extestPulse 0x08 ∧ takes .extestTrain 0x09 ∧
    Does .samplePreload s (fun t => t.jtag.ir = 0x01 ∧ t.jtag.control = false ∧ t.jtag.taken = s.jtag.taken ∧
      t.jtag.sampled = fioLevels s ∧ t.regs = s.regs ∧ t.pins = s.pins ∧ MemoryKept s t) ∧
    tapCapture { s with jtag := ir 0x02 } = 0x16540879 ∧ (∀ code, irActs code = code ∨ irActs code = 0xFF) ∧
    loads .idcode 0x02 ∧ loads .bypass 0xFF ∧ loads .trstNAssert 0x02 ∧
    loads (.dapAccess 0 addr v) 0x10 ∧
    Does (.dapAccess 1 addr v) s (fun t => t.jtag.data = bar0Read s o ∧ t.jtag.status = 0 ∧ t.regs = s.regs ∧ MemoryKept s t) ∧
    Does (.dapAccess 3 addr v) s (fun t => t.jtag.status = 2 ∧ t.regs = s.regs ∧ MemoryKept s t) ∧
    Does (.registerWrite { offset := BitVec.ofNat 20 o } v true) { s with jtag := ir 0x10 } (fun u =>
      exec (.dapAccess 2 addr v) s = .next { u with jtag := { u.jtag with status := 0 } }) ∧
    (∀ np, Bar4Reaches s offset np → Does (.bar4Access offset ⟨none, []⟩) s (fun t =>
      t.bar4 = (storeWord s a).setWidth 64 ∧ MemoryKept s t)) ∧
    (∀ np, Bar4Reaches s offset np → be.toNat % 32 ≠ 0 → Does (.bar4Access offset ⟨some (x, be), []⟩) s (fun t =>
      (∀ w, storeWord t w = if w = a then underEnables (storeWord s a) x be else storeWord s w) ∧ t.pe = s.pe ∧
      t.host = s.host)) ∧
    (bar4Maps s offset = false → Does (.bar4Access offset ⟨none, []⟩) s (fun t => t = { s with bar4 := 0 })) ∧
    (bar4Maps s offset = false → exec (.bar4Access offset ⟨some (x, be), []⟩) s = .next s)

namespace Sys2Proof.Claims

/-- Bow b is halted, and its context c stands still. -/
def Halted (s : State) (b : Fin 16) (c : Ctx) : Prop :=
  bowHalted s b = true ∧ (ctx s b c).run = .halted ∧ debugOpen s = true

/-- DBG_CTXb_SEL names context c and item i. -/
def Selects (s : State) (b : Fin 16) (c : Ctx) (i : Nat) : Prop :=
  bitsOf (reg s (0x9011C + b.val * 0x40)).toNat 5 0 = i ∧ (reg s (0x9011C + b.val * 0x40)).getLsbD 6 = (c == .u)

/-- The rights of the other 15 bows and all memories are as they were. -/
def OthersKept (s t : State) (b : Fin 16) : Prop := (∀ q, q ≠ b → bow t q = bow s q) ∧ MemoryKept s t

end Sys2Proof.Claims

/-- R434 to R440: a requested halt stops a bow at a preemption point and the device enters HALT; a resume lets its
contexts go on; a step lets a halted context run one instruction; a context item of a halted bow takes the value
written; a good response opens the lock in FIELD, a bad one is counted, LOCK closes it; with the lock closed nothing
of this happens. Says where these complete: DBG_HALT, DBG_RESUME, DBG_STEP, DBG_CONTEXT_WRITE, DBG_UNLOCK_CHECK,
DBG_UNLOCK_LOCK. Some of its clauses rest on the model's own choices: log entries 19 and 43. -/
def Obligations.DebugCommands : Prop :=
  ∀ (s : State) (b : Fin 16) (c : Ctx) (v : Reg32), Memory.wf s = true →
    let only : BitVec 16 := BitVec.ofNat 16 (2 ^ b.val)
    let k := ctx s b c
    let fails := regBits s 0x908A0 3 2
    let field : Bool := regBits s 0x60030 2 0 = 2
    (debugOpen s = true → bowHalted s b = false → atBoundary (bow s b) = true → s.mode = .idle ∨ s.mode = .run →
      Does (.dbgHalt only) s (fun t => bowHalted t b = true ∧ t.mode = .halt ∧ t.before = s.mode ∧
        (ctx t b c).run = (if k.run = .running ∨ k.run = .stalled then .halted else k.run) ∧ (ctx t b c).s = k.s ∧
        (ctx t b c).pc = k.pc ∧ OthersKept s t b)) ∧
    (debugOpen s = true → bowHalted s b = false → (bow s b).window.isSome = true → Does (.dbgHalt only) s (fun t =>
      (reg t 0x90004).getLsbD b.val = true ∧ bowHalted t b = false ∧ t.bows = s.bows ∧ t.mode = s.mode ∧ MemoryKept s t)) ∧
    (Halted s b c → Does (.dbgResume only) s (fun t => bowHalted t b = false ∧
      (ctx t b c).run = (if k.wait.isSome then .stalled else .running) ∧ (ctx t b c).bpSkip = true ∧ (ctx t b c).pc = k.pc ∧
      OthersKept s t b)) ∧
    (Halted s b c → Does (.dbgStep b c) s (fun t => (ctx t b c).stepping = true ∧
      (ctx t b c).run = (if k.wait.isSome then .stalled else .running) ∧ (ctx t b c).pc = k.pc ∧ bowHalted t b = true ∧
      t.regs = s.regs ∧ OthersKept s t b)) ∧
    (∀ i : Fin 16, Halted s b c → Selects s b c (i.val + 1) → Does (.dbgContextWrite b false v) s (fun t =>
      ctx t b c = { k with s := k.s.set i ((k.s[i]).extractLsb' 32 8 ++ v) } ∧ t.regs = s.regs ∧ OthersKept s t b)) ∧
    (∀ i : Fin 8, Halted s b c → Selects s b c (i.val + 17) → Does (.dbgContextWrite b false v) s (fun t =>
      ctx t b c = { k with a := k.a.set i (v.extractLsb' 0 16) } ∧ t.regs = s.regs ∧ OthersKept s t b)) ∧
    (Halted s b c → Selects s b c 0 → Does (.dbgContextWrite b false v) s (fun t =>
      ctx t b c = { k with pc := v.extractLsb' 0 13 } ∧ t.regs = s.regs ∧ OthersKept s t b)) ∧
    (field = true → ownerProvisioned s = true → ownerRevoked s = false → Does (.dbgUnlockCheck true) s (fun t => debugOpen t = true ∧ regBits t 0x908A0 3 2 = 0 ∧
      t.nonce = s.nonce + 1 ∧ t.bows = s.bows ∧ MemoryKept s t)) ∧
    (∀ ok, fails < 2 → ok = false ∨ ownerProvisioned s = false ∨ ownerRevoked s = true → Does (.dbgUnlockCheck ok) s (fun t => regBits t 0x908A0 3 2 = fails + 1 ∧ debugOpen t = debugOpen s ∧
      t.nonce = s.nonce + 1 ∧ t.mode = s.mode ∧ t.bows = s.bows ∧ MemoryKept s t)) ∧
    (fails = 2 → field = true → (reg s 0x60034).getLsbD 12 = true → AnswersTamper s.mode → Does (.dbgUnlockCheck false) s
      (fun t => regBits t 0x908A0 3 2 = 0 ∧ (tamperLatched t).testBit 4 = true ∧ t.keysGone = true)) ∧
    Does .dbgUnlockLock s (fun t => (reg t 0x90000).getLsbD 2 = false ∧ (field = true → debugOpen t = false) ∧ (debugOpen t = false → t.jtag.control = false) ∧
      t.bows = s.bows ∧ MemoryKept s t) ∧
    (debugOpen s = false → Does (.dbgHalt only) s (fun t => t.bows = s.bows ∧ t.regs = s.regs) ∧
      Does (.dbgContextWrite b false v) s (fun t => t.bows = s.bows ∧ t.regs = s.regs))

namespace Sys2Proof.Claims

/-- Registers that take a write by their access codes alone. -/
def PlainRegister (o : Nat) (fs : List RegField) : Prop :=
  regLayout o = some fs ∧ ((0x60000 ≤ o ∧ o < 0x80000) ∨ (0x20000 ≤ o ∧ o < 0x30000) ∨ (0x40000 ≤ o ∧ o < 0x50000))

/-- What bit i of a register holds after a write of v: by its access code (R6). -/
def bitAfter (fs : List RegField) (old v : Reg32) (locked : Bool) (i : Nat) : Bool :=
  let has := fun (a : Acc) => (maskOf [a] fs).testBit i
  if has .rw then v.getLsbD i
  else if has .rwl then (if locked then old.getLsbD i else v.getLsbD i)
  else if has .w1c then old.getLsbD i && !v.getLsbD i
  else if has .w1s then old.getLsbD i || v.getLsbD i
  else old.getLsbD i

end Sys2Proof.Claims

/-- R5, R6, R339, R341: a write of a register changes each bit as its access code says, RWL bits only while SETUP_LOCK
is clear, and no other register; a write with byte enables missing, or where no register lies, changes no register;
offset 0 of BAR2 is HIF_WAKE; a poisoned write is discarded and shown by AER; Bus Master Enable takes the value
written to configuration space, once the function is set up (that it stands in bit 2 of offset 4, and AER at 0x100,
is outside the spec: PRESUMED, log entry 182). Says where these complete: REGISTER_WRITE, HIF_WAKE. Some of its
clauses rest on the model's own choices: log entries 78 and 182. -/
def Obligations.RegisterWrites : Prop :=
  ∀ (s : State) (offset : BitVec 20) (v : Reg32), Memory.wf s = true →
    let o := offset.toNat
    (∀ fs, PlainRegister o fs → Does (.registerWrite { offset } v true) s (fun t =>
      (∀ i, i < 32 → (reg t o).getLsbD i = bitAfter fs (reg s o) v ((reg s 0x1000).getLsbD 31) i) ∧
      (∀ q, q ≠ o → reg t q = reg s q) ∧ t.bows = s.bows ∧ t.mode = s.mode ∧ MemoryKept s t)) ∧
    (regLayout o = none → Does (.registerWrite { offset } v true) s (fun t => t.regs = s.regs ∧ t.bows = s.bows ∧
      MemoryKept s t)) ∧
    Does (.registerWrite { offset } v false) s (fun t => t.regs = s.regs ∧ t.bows = s.bows ∧ t.mode = s.mode ∧ MemoryKept s t) ∧
    exec (.registerWrite { offset := 0, space := .bar2 } v true) s = exec (.hifWake v) s ∧
    (o % 0x1000 ≠ 0 → Does (.registerWrite { offset, space := .bar2 } v true) s (fun t => t.regs = s.regs ∧
      t.bows = s.bows ∧ t.mode = s.mode ∧ MemoryKept s t)) ∧
    (∀ space full, space ≠ .config → Does (.registerWrite { offset, space, poisoned := true } v full) s (fun t =>
      (∀ q, q ≠ pciReg 0x104 → q ≠ pciReg 0x78 → reg t q = reg s q) ∧ (reg t (pciReg 0x104)).getLsbD 12 = true ∧
      t.bows = s.bows ∧ t.mode = s.mode ∧ MemoryKept s t)) ∧
    (hostLinkUp s = true → Does (.registerWrite { offset := 4, space := .config } v true) s (fun t =>
      (reg t (pciReg 4)).getLsbD 2 = v.getLsbD 2 ∧ t.bows = s.bows ∧ t.mode = s.mode ∧ MemoryKept s t)) ∧
    (hostLinkUp s = false → exec (.registerWrite { offset, space := .config } v true) s = .next s)

/-! ### Issue, the instruction word, and the machine as a whole -/

namespace Sys2Proof.Claims

/-- Opcodes and instructions: array integer. -/
def arrayRows : List (Nat × (Issue → Instr)) :=
  [(0x00, .add), (0x01, .adc), (0x02, .sub), (0x03, .sbc), (0x04, .neg), (0x05, .abs), (0x06, .addss),
   (0x07, .addus), (0x08, .subss), (0x09, .subus), (0x0A, .min), (0x0B, .max), (0x0C, .minu), (0x0D, .maxu),
   (0x10, .cmpeq), (0x11, .cmpne), (0x12, .cmplt), (0x13, .cmple), (0x14, .cmpltu), (0x15, .cmpleu),
   (0x18, .muli), (0x19, .muliu), (0x1A, .maci), (0x1C, .divi), (0x1D, .diviu)]

/-- Opcodes and instructions: array logic, shift, load and store. -/
def arrayLogicRows : List (Nat × (Issue → Instr)) :=
  [(0x20, .and), (0x21, .or), (0x22, .xor), (0x23, .andn), (0x24, .nand), (0x25, .nor), (0x26, .xnor),
   (0x27, .not), (0x30, .shl), (0x31, .shr), (0x32, .sar), (0x33, .rol), (0x38, .ldlar), (0x39, .stlar),
   (0x3A, .ldc), (0x3B, .stc), (0x3C, .ldx), (0x3D, .stx)]

/-- Opcodes and instructions: array floating-point. -/
def arrayFloatRows : List (Nat × (Issue → Instr)) :=
  [(0x40, .fadd), (0x41, .fsub), (0x42, .fmul), (0x43, .fdiv), (0x44, .fsqrt), (0x45, .macf), (0x46, .fneg),
   (0x47, .fabs), (0x48, .fmin), (0x49, .fmax), (0x4A, .fcmpeq), (0x4B, .fcmplt), (0x4C, .fcmple),
   (0x4D, .fcmpun), (0x50, .icvtf), (0x51, .ucvtf), (0x52, .fcvti), (0x53, .fcvtu), (0x54, .f32cvt),
   (0x55, .fcvt32), (0x56, .f64cvt), (0x57, .fcvt64), (0x58, .frint)]

/-- Opcodes and instructions: array move and reduction. -/
def arrayMoveRows : List (Nat × (Issue → Instr)) :=
  [(0x60, .move), (0x61, .sext), (0x62, .zext), (0x70, .getg), (0x71, .testg), (0x72, .getpe), (0x73, .getcount),
   (0x74, .getsum), (0x75, .getsums), (0x78, .stkor), (0x79, .stkclr)]

/-- Opcodes and instructions: scalar. -/
def scalarRows : List (Nat × (Issue → Instr)) :=
  [(0x80, .sadd), (0x81, .sadc), (0x82, .ssub), (0x83, .ssbc), (0x84, .sneg), (0x85, .scmp), (0x86, .sand),
   (0x87, .sor), (0x88, .sxor), (0x89, .sandn), (0x8A, .snot), (0x8B, .stst), (0x90, .sshl), (0x91, .sshr),
   (0x92, .ssar), (0x93, .srol), (0x94, .smul), (0x95, .smulh), (0x96, .smulhu), (0x97, .sdiv), (0x98, .sdivu),
   (0x99, .srem), (0x9A, .sremu), (0x9C, .macs)]

/-- Opcodes and instructions: scalar floating-point and move. -/
def scalarFloatRows : List (Nat × (Issue → Instr)) :=
  [(0xA0, .sfadd), (0xA1, .sfsub), (0xA2, .sfmul), (0xA3, .sfdiv), (0xA4, .sfsqrt), (0xA5, .sfcmp),
   (0xA6, .sfmin), (0xA7, .sfmax), (0xA8, .macsf), (0xA9, .sfneg), (0xAA, .sfabs), (0xAB, .sfcvti),
   (0xAC, .sicvtf), (0xB0, .smov), (0xB1, .smovz), (0xB2, .sins), (0xB4, .push), (0xB5, .pop), (0xB8, .amov),
   (0xB9, .aadd), (0xBA, .acmp), (0xBB, .a2s), (0xBC, .s2a)]

/-- Opcodes and instructions: control and system. -/
def controlRows : List (Nat × (Issue → Instr)) :=
  [(0xC0, .br), (0xC1, .brr), (0xC2, .call), (0xC3, .callr), (0xC4, .ret), (0xC5, .loop), (0xC6, .nop),
   (0xCC, .yield), (0xCE, .trap), (0xCF, .rett), (0xE0, .endk), (0xE1, .getctl), (0xE2, .setctl), (0xE3, .gettw),
   (0xE4, .sync), (0xE5, .sld), (0xE6, .sst), (0xE7, .xfadd), (0xE8, .xswap), (0xE9, .xradv), (0xEA, .prd),
   (0xEB, .pwr), (0xEC, .waitph), (0xEF, .brk)]

/-- Every instruction that issues without regard to the word after it: all but REP. -/
def issueRows : List (Nat × (Issue → Instr)) :=
  arrayRows ++ arrayLogicRows ++ arrayFloatRows ++ arrayMoveRows ++ scalarRows ++ scalarFloatRows ++ controlRows

/-- The state after an instruction of opcode `op` has trapped with a cause (R69, R70). -/
def trapsTo (op : Nat) (x : Issue) (s : State) (cause : BitVec 8) : State :=
  setCtx s x.bow x.ctx (trapped (self x s) (encodeWord (BitVec.ofNat 8 op) x) cause)

/-- The instruction is fetched and its word permitted (R115, rows 1 to 3). -/
def Sound (op : Nat) (x : Issue) (s : State) : Prop :=
  lineInvalid (bow s x.bow) (self x s) = false ∧ ∃ sp, opSpec op = some sp ∧ fieldsOk op sp x = true

/-- Its condition holds too, and no later row of R115 before the addresses stops it. -/
def Chosen (op : Nat) (x : Issue) (s : State) : Prop :=
  Sound op x s ∧ condHolds x.cond (self x s).bf = true

end Sys2Proof.Claims

/-- R92, R98, R104, R115: of an instruction of any row but REP whose line is there, a line that could not be fetched
traps with cause 6, an opcode that the tables do not assign with cause 1, a word that its entry does not permit with
cause 2; where its condition is false it is skipped and has no effect but the advance of the PC, which at 0x1FFF
traps with cause 4; where it holds, a reserved value of an operand traps with cause 2, an address outside its range
with cause 4, and a stack pointer that would fall below STACK_LO with cause 5. A trap leaves everything but its
context as it was. Where its line is not there, it stalls, the line is requested once, and the next one with it, and
the miss is counted (R64). -/
def Obligations.InstructionChecks : Prop :=
  ∀ p ∈ issueRows, ∀ (x : Issue) (s : State), Runs x s → (self x s).th = false →
    let k := self x s
    let w := bow s x.bow
    let traps := fun (op : Nat) (cause : BitVec 8) => exec (p.2 x) s = .next (trapsTo op x s cause)
    (lineMissing w k = false →
      (lineInvalid w k = true → traps (opOf p.1 x) 6) ∧
      (∀ o, x.raw = some o → opSpec o.toNat = none → lineInvalid w k = false → traps o.toNat 1) ∧
      (opOf p.1 x = p.1 →
        (∀ sp, opSpec p.1 = some sp → lineInvalid w k = false → fieldsOk p.1 sp x = false → traps p.1 2) ∧
        (Sound p.1 x s → condHolds x.cond k.bf = false → fallsOff p.1 x k = false → isGBranch p.1 x = false →
          exec (p.2 x) s = .next (contextDone x s (begun k))) ∧
        (Sound p.1 x s → condHolds x.cond k.bf = false → fallsOff p.1 x k = true → traps p.1 4) ∧
        (Chosen p.1 x s → valueReserved p.1 x k = true → traps p.1 2) ∧
        (Chosen p.1 x s → valueReserved p.1 x k = false →
          fallsOff p.1 x k = true ∨ rangeBad p.1 x w (x.ctx == .u) k = true → traps p.1 4) ∧
        (∀ v, Chosen p.1 x s → valueReserved p.1 x k = false → fallsOff p.1 x k = false →
          rangeBad p.1 x w (x.ctx == .u) k = false → newA7 p.1 x k = some v → v.toNat < k.stackLo.toNat → traps p.1 5))) ∧
    (lineMissing w k = true → ∀ j, k.job = some j →
      ∃ t, exec (p.2 x) s = .next t ∧ self x t = { k with run := .stalled } ∧ MemoryKept s t ∧
        (∃ q ∈ (bow t x.bow).asked, q.base = kImage j.desc ∧ q.num.toNat = k.pc.toNat / 8 ∧ q.prefetch = false) ∧
        ((∃ q ∈ w.asked, q.base = kImage j.desc ∧ q.num.toNat = k.pc.toNat / 8 ∧ q.prefetch = false) →
          (bow t x.bow).asked = w.asked ∧ t.regs = s.regs) ∧
        ((∀ q ∈ w.asked, ¬ (q.base = kImage j.desc ∧ q.num.toNat = k.pc.toNat / 8)) →
          reg t (bowReg x.bow 0x080) = BitVec.ofNat 32 (min ((reg s (bowReg x.bow 0x080)).toNat + 1) (2 ^ 32 - 1)) ∧
          (∀ o, o ≠ bowReg x.bow 0x080 → reg t o = reg s o)))

/-- R90: the 80-bit word of every instruction holds its opcode and its fields, and every word is the word of the fields
read from it; each field stands at its bits of the table. -/
def Obligations.InstructionWords : Prop :=
  (∀ (op : BitVec 8) (x : Issue), x.raw = none → x.upc = none → x.stop = none → decodeWord x.bow x.ctx (encodeWord op x) = (op, x)) ∧
  (∀ (b : Fin 16) (c : Ctx) (w : IWord), encodeWord (decodeWord b c w).1 (decodeWord b c w).2 = w) ∧
  (∀ (op : BitVec 8) (x : Issue), let w := encodeWord op x;
    w.extractLsb' 76 4 = x.cond ∧ w.extractLsb' 68 8 = op ∧ w.extractLsb' 62 6 = x.width ∧ w.extractLsb' 42 20 = x.dst ∧
    w.extractLsb' 22 20 = x.src1 ∧ w.extractLsb' 2 20 = x.src2 ∧ w.extractLsb' 1 1 = x.invert ∧ w.extractLsb' 0 1 = x.hint)

/-- A step executes the command at the front of the queue on the state with the queue's rest; with an empty queue it is
a tick: the epoch advances by one where no trim is set, and by 8,000 in low-frequency mode, and where no swap, clock
step, line request, fabric load or snapshot readback is due, no kernel and no memory changes (R310, R311; the tick
of an empty queue is the model's choice, log entry 2). -/
def Obligations.StepTakesTheFront : Prop :=
  ∀ (s : State) (c : Instr) (rest : List Instr),
    let quiet := ∀ k, s.snap = some k → k.taken = false
    step { s with pending := c :: rest } = exec c { s with pending := rest } ∧
    (s.pending = [] → lfMode s = false → reg s 0x50010 = 0 →
      ∃ t, step s = .next t ∧ t.epoch = s.epoch + 1 ∧ t.pending = [] ∧ (quiet → MemoryKept s t) ∧
        ((∀ b : Fin 16, (bow s b).swapEnd = none ∧ (bow s b).clockNext = none ∧ (bow s b).asked = []) → t.bows = s.bows ∧
          (s.fabLoad = none → t.accepted = s.accepted))) ∧
    (s.pending = [] → lfMode s = true → ∃ t, step s = .next t ∧ t.epoch = s.epoch + 8000 ∧ (quiet → MemoryKept s t) ∧
        ((∀ b : Fin 16, (bow s b).swapEnd = none ∧ (bow s b).clockNext = none ∧ (bow s b).asked = []) → t.bows = s.bows))

/-- Every command of the block completes in every state: none ends in a fault or a refusal. Some of its clauses rest on
the model's own choices: log entries 3 and 136. -/
def Obligations.NoCommandStops : Prop := ∀ (c : Instr) (s : State), ∃ t, exec c s = .next t

/-- R11, R20, R54 to R57, R78, R89, R231, R328, R335, R366, R414 and others: right after reset the device is in BOOT
with no command waiting, all memories empty and in canonical form, no kernel, group or link, logical course n on
physical course n, SAFE_DRIVE_EN low, and the registers read as their tables say. Some of its clauses rest on the
model's own choices: log entries 11, 12, 14 and 15. -/
def Obligations.ResetState : Prop :=
  let s := State.reset
  s.pending = [] ∧ s.mode = .boot ∧ Memory.wf s = true ∧ BowMemories s ∧ ShadowFits s ∧ s.epoch = 0 ∧ s.accepted = [] ∧ s.flight = [] ∧
  s.sched = [] ∧ s.log = [] ∧ s.pins.safeDriveEn = false ∧ s.pins.ready = false ∧
  (∀ c : Fin 64, (s.lmap[c]).val = c.val ∧ courseCode s c = 1 ∧ (course s c).owner = none) ∧
  (∀ b : Fin 16, (bow s b).powered = false ∧ (bow s b).group = none ∧ (bow s b).n.job = none ∧ (bow s b).u.job = none ∧
    (bow s b).clockSet = 20 ∧ (bow s b).queue = [] ∧ regView s (0x10008 + b.val * 0x1000) = 0x4003 ∧
    regView s (0x100C0 + b.val * 0x1000) = 0x41 ∧ regView s (0x800 + 4 * b.val) = 0x140000) ∧
  (∀ a, storeWord s a = 0) ∧ (∀ n : Fin 8, reg s (phReg n 0x10) = 0x10000000) ∧
  (∀ r : Fin 36, reg s (0x20004 + r.val * 0x80) = 0x11111111) ∧ (∀ w : Fin 16, reg s (0x30108 + w.val * 0x20) = 1) ∧
  regView s 0x840 = 0x11111111 ∧ regView s 0x30000 = 2 ∧ regView s 0x50608 = 0

/-- Every step keeps the canonical form of every memory: the keys of its list rise strictly, none of them holds what an
unlisted key reads as, and the shadow of a leased block holds keys of one block alone. -/
def Obligations.StepKeepsMemory : Prop :=
  ∀ s t : State, Memory.wf s = true → ShadowFits s → step s = .next t → Memory.wf t = true ∧ ShadowFits t

/-- R60, R216: every step keeps the canonical form of every bow's data memory and branch histories. -/
def Obligations.StepKeepsBowMemories : Prop :=
  ∀ s t : State, BowMemories s → step s = .next t → BowMemories t

/-! ### Statements in parts -/

/-- The way of a packet through the torus, and the reconfiguration of a router. (`packetWays`, `reconfiguration`.) Says
where these complete: NOC_RECONFIG, RECONFIG_APPLY, RECONFIG_TIMEOUT. Some of its clauses rest on the model's own
choices: log entry 119. -/
def Obligations.RouterReconfiguration : Prop := packetWays ∧ reconfiguration

/-- The scalar logic instructions, moves and shifts. (`scalarLogic`, `scalarShifts`.) Says where these complete: SAND,
SOR, SXOR, SANDN, SNOT, STST, SMOV, SMOVZ, SINS, SSHL, SSHR, SSAR, SROL. -/
def Obligations.ScalarLogicAndShifts : Prop := scalarLogic ∧ scalarShifts

/-- The system instructions that read or write control items, wait or synchronise, and those that send a packet.
(`systemControl`, `systemRequests`.) Says where these complete: GETCTL, SETCTL, GETTW, SYNC, WAITPH, SLD, SST,
XFADD, XSWAP, XRADV, PRD, PWR. Some of its clauses rest on the model's own choices: log entries 8 and 138. -/
def Obligations.SystemInstructions : Prop := systemControl ∧ systemRequests

/-- The array sums and differences, modular and saturating. (`arraySums`, `arraySaturating`.) Says where these complete:
ADD, ADC, SUB, SBC, NEG, ABS, ADDSS, ADDUS, SUBSS, SUBUS. -/
def Obligations.ArraySumsAndDifferences : Prop := arraySums ∧ arraySaturating

/-- The array floating-point instructions that round, and those that do not. (`arrayFloat`, `arrayFloatDirect`.) Says
where these complete: FADD, FSUB, FMUL, FDIV, FSQRT, MACF, ICVTF, UCVTF, FCVTI, FCVTU, F32CVT, FCVT32, F64CVT,
FCVT64, FRINT, FNEG, FABS, FMIN, FMAX, FCMPEQ, FCMPLT, FCMPLE, FCMPUN. -/
def Obligations.ArrayFloatingPoint : Prop := arrayFloat ∧ arrayFloatDirect

/-- Kernels start, trigger, expand and end on their bows, and an idle bow takes one from another. (`kernelsStartAndEnd`,
`stealing`, `routineStops`.) Says where these complete: KERNEL_START, URGENT_LAUNCH, PREEMPTION, KERNEL_COMPLETION,
DEADLINE_EXPIRY, STEAL_ATTEMPT, MOVER_STEAL. Some of its clauses rest on the model's own choices: log entries 44 and
46. -/
def Obligations.KernelScheduling : Prop := kernelsStartAndEnd ∧ stealing ∧ routineStops

/-- A Course Port takes words in, sends words out, and turns planes. (`coursePortWords`, `coursePortPlanes`.) Says where
these complete: CP_PUSH, CP_PLANE_WRITE, CP_COMPLETION. Some of its clauses rest on the model's own choices: log
entry 41. -/
def Obligations.CoursePortData : Prop := coursePortWords ∧ coursePortPlanes

/-- Store packets read, write and combine words, and colliding accesses of the two ports are decided. (`storePackets`,
`storeCollisions`.) Says where these complete: RD, WR, FETCH_ADD, SWAP. Some of its clauses rest on the model's own
choices: log entries 26 and 75. -/
def Obligations.StoreAccesses : Prop := storePackets ∧ storeCollisions

/-- Register and host packets are served, and responses reach the bows that asked. (`registerAndHostPackets`,
`responsesReachBows`.) Says where these complete: REG_RD, REG_WR, HOST_RD, HOST_WR, NOTIFY, RESP. Some of its
clauses rest on the model's own choices: log entries 26, 33, 77 and 177. -/
def Obligations.PacketsAndResponses : Prop := registerAndHostPackets ∧ responsesReachBows

/-- Events of the store, and events of the network's interfaces and links. (`storeEvents`, `networkEvents`.) Says where
these complete: STORE_SCRUB, STORE_SCRUB_FAST, STORE_CLEAR, WINDOW_ENABLE, FLIT_ECC_ERROR, LINK_FAILED,
IDENTITY_MOVE, MARKER, DOMAIN_CLOSE, CLOSE_TIMEOUT, NI_OPEN, DOMAIN_POWER_DOWN. Some of its clauses rest on the
model's own choices: log entries 79, 80, 83, 84 and 113. -/
def Obligations.NetworkAndStoreEvents : Prop := storeEvents ∧ networkEvents

/-- Patch sets are loaded and swapped in, and scheduler entries are armed, fire and are cancelled. (`patchSets`,
`scheduler`.) Says where these complete: PATCH_LOAD, PATCH_SWAP, PATCH_LOAD_TIMEOUT, TB_SCHED_ARM, TB_SCHED_CANCEL,
SCHED_FIRE. Some of its clauses rest on the model's own choices: log entries 48, 90, 91, 93 and 121. -/
def Obligations.PatchSetsAndScheduler : Prop := patchSets ∧ scheduler

/-- A fabric load goes through its steps, and the fabric's other commands have their effects. (`fabricLoads`,
`fabricCommands`, `fabricLogic`.) Says where these complete: FAB_LOAD, FAB_APPLY_DONE, FAB_START, FAB_SAFE_SET,
FAB_SNAP, FAB_SNAP_CAPTURE, FAB_SNAP_READBACK_DONE, FP_RESPONSE_TIMEOUT. Some of its clauses rest on the model's own
choices: log entries 20, 71, 73, 103 and 184. -/
def Obligations.FabricAndImages : Prop := fabricLoads ∧ fabricCommands ∧ fabricLogic

/-- The Guard's samples, and the commands that configure it. (`guardSamples`, `guardCommands`.) Says where these
complete: DRIVE_SAMPLE, ABORT_SAMPLE, GUARD_STALE, GUARD_WINDOW_READ, GUARD_CHANNEL, GUARD_LANES, GUARD_ABORT,
GUARD_RESUME, GUARD_RAMP_END. Some of its clauses rest on the model's own choices: log entries 104, 105, 106, 107,
108 and 187. -/
def Obligations.GuardChannels : Prop := guardSamples ∧ guardCommands

/-- Phase references follow their edges, and event timers count, match and capture. (`phaseReferences`, `eventTimers`.)
Says where these complete: PHREF_EDGE, PHREF_Z_EDGE, PHREF_STALL, PHREF_MODE_WRITE, ET_TICK, ET_LF_STEP, ET_COMMIT,
ET_CAPTURE_RISE, ET_CAPTURE_FALL. Some of its clauses rest on the model's own choices: log entries 28, 29, 30, 31,
53, 54 and 186. -/
def Obligations.ReferencesAndTimers : Prop := phaseReferences ∧ eventTimers

/-- Host resets and ring enables, and the polling of submission rings. (`hostResets`, `doorbells`.) Says where these
complete: FUNCTION_LEVEL_RESET, PERST_N_RESET, RING_ENABLE, SETUP_LOCK, DOORBELL_POLL, HIF_WAKE,
DESCRIPTOR_FETCH_FAIL. Some of its clauses rest on the model's own choices: log entries 50, 51, 57, 70, 72, 123 and
182. -/
def Obligations.RingEngine : Prop := hostResets ∧ doorbells

/-- Kernels and transfers are queued and end, and ABORT takes out what waits. (`kernelsAndTransfers`, `aborts`.) Says
where these complete: KERNEL, COPY, REG_READ, REG_WRITE, MOVER_TRANSFER_DONE, ABORT. Some of its clauses rest on the
model's own choices: log entries 85, 86, 122 and 178. -/
def Obligations.TransfersAndAborts : Prop := kernelsAndTransfers ∧ aborts
end

