-- ==== Sys2Proof/Laws/Cells.lean ====
section
/-! SUPPORT. The laws of the sparse memories: a read after a write, and the canonical form under every operation. -/

namespace Sys2Proof.Machine

variable {w : Nat} {d : Nat → BitVec w}

@[simp] theorem cget_nil (k : Nat) : cget d ([] : Cells w) k = d k := rfl

theorem cwfFrom_mono {m : Cells w} {lo lo' : Nat} (h : cwfFrom d lo m = true) (hl : lo' ≤ lo) : cwfFrom d lo' m = true := by
  cases m with
  | nil => rfl
  | cons e m =>
    simp only [cwfFrom, Bool.and_eq_true, decide_eq_true_eq] at h ⊢
    exact ⟨⟨by omega, h.1.2⟩, h.2⟩

/-- Below every listed key a canonical memory reads as its default. -/
theorem cget_below {m : Cells w} {lo k : Nat} (h : cwfFrom d lo m = true) (hk : k < lo) : cget d m k = d k := by
  induction m generalizing lo with
  | nil => rfl
  | cons e m ih =>
    simp only [cwfFrom, Bool.and_eq_true, decide_eq_true_eq] at h
    have hne : e.1 ≠ k := by omega
    simp only [cget, if_neg hne]
    exact ih h.2 (by omega)

/-- A read of the key just written gives the value written. -/
theorem cget_cset_same_from {m : Cells w} {lo : Nat} (h : cwfFrom d lo m = true) (k : Nat) (v : BitVec w) :
    cget d (cset d m k v) k = v := by
  induction m generalizing lo with
  | nil => by_cases hv : v = d k <;> simp [cset, hv, cget]
  | cons e m ih =>
    obtain ⟨a, u⟩ := e
    simp only [cwfFrom, Bool.and_eq_true, decide_eq_true_eq] at h
    obtain ⟨⟨_, _⟩, h2⟩ := h
    rcases Nat.lt_trichotomy k a with h1 | rfl | h1
    · by_cases hv : v = d k
      · have hne : a ≠ k := by omega
        simp only [cset, if_pos h1, if_pos hv, cget, if_neg hne]
        rw [hv]
        exact cget_below h2 (by omega)
      · simp [cset, h1, hv, cget]
    · by_cases hv : v = d k
      · simp only [cset, Nat.lt_irrefl, if_false, if_true, if_pos hv]
        rw [hv]
        exact cget_below h2 (by omega)
      · simp [cset, hv, cget]
    · have n1 : ¬ k < a := by omega
      have n2 : ¬ k = a := by omega
      have n3 : ¬ a = k := by omega
      simp only [cset, if_neg n1, if_neg n2, cget, if_neg n3]
      exact ih h2

/-- A write leaves every other key as it was. -/
theorem cget_cset_ne (m : Cells w) {k j : Nat} (v : BitVec w) (hj : j ≠ k) : cget d (cset d m k v) j = cget d m j := by
  have hkj : k ≠ j := fun h => hj h.symm
  induction m with
  | nil => by_cases hv : v = d k <;> simp [cset, hv, cget, hkj]
  | cons e m ih =>
    obtain ⟨a, u⟩ := e
    rcases Nat.lt_trichotomy k a with h1 | rfl | h1
    · by_cases hv : v = d k <;> simp [cset, h1, hv, cget, hkj]
    · by_cases hv : v = d k <;> simp [cset, hv, cget, hkj]
    · have n1 : ¬ k < a := by omega
      have n2 : ¬ k = a := by omega
      simp only [cset, if_neg n1, if_neg n2, cget]
      by_cases he : a = j
      · simp [he]
      · simp only [if_neg he]
        exact ih

/-- A write keeps the canonical form. -/
theorem cwfFrom_cset {m : Cells w} {lo : Nat} (h : cwfFrom d lo m = true) {k : Nat} (hk : lo ≤ k) (v : BitVec w) :
    cwfFrom d lo (cset d m k v) = true := by
  induction m generalizing lo with
  | nil =>
    by_cases hv : v = d k
    · simp [cset, hv, cwfFrom]
    · simp [cset, hv, cwfFrom, hk]
  | cons e m ih =>
    obtain ⟨a, u⟩ := e
    simp only [cwfFrom, Bool.and_eq_true, decide_eq_true_eq] at h
    obtain ⟨⟨h1, h2⟩, h3⟩ := h
    rcases Nat.lt_trichotomy k a with c | rfl | c
    · by_cases hv : v = d k
      · simp [cset, c, hv, cwfFrom, h1, h2, h3]
      · simp only [cset, if_pos c, if_neg hv, cwfFrom, Bool.and_eq_true, decide_eq_true_eq]
        exact ⟨⟨hk, by simp [hv]⟩, ⟨by omega, h2⟩, h3⟩
    · by_cases hv : v = d k
      · simp only [cset, Nat.lt_irrefl, if_false, if_true, if_pos hv]
        exact cwfFrom_mono h3 (by omega)
      · simp only [cset, Nat.lt_irrefl, if_false, if_true, if_neg hv, cwfFrom, Bool.and_eq_true, decide_eq_true_eq]
        exact ⟨⟨hk, by simp [hv]⟩, h3⟩
    · have n1 : ¬ k < a := by omega
      have n2 : ¬ k = a := by omega
      simp only [cset, if_neg n1, if_neg n2, cwfFrom, Bool.and_eq_true, decide_eq_true_eq]
      exact ⟨⟨h1, h2⟩, ih h3 (by omega)⟩

theorem cwf_cset {m : Cells w} (h : cwf d m = true) (k : Nat) (v : BitVec w) : cwf d (cset d m k v) = true :=
  cwfFrom_cset h (Nat.zero_le k) v

theorem cget_cset_same {m : Cells w} (h : cwf d m = true) (k : Nat) (v : BitVec w) : cget d (cset d m k v) k = v :=
  cget_cset_same_from h k v

theorem cget_cset {m : Cells w} (h : cwf d m = true) (k j : Nat) (v : BitVec w) :
    cget d (cset d m k v) j = if j = k then v else cget d m j := by
  by_cases hj : j = k
  · rw [if_pos hj, hj]; exact cget_cset_same h k v
  · rw [if_neg hj]; exact cget_cset_ne m v hj

/-- Dropping entries keeps the canonical form. -/
theorem cwfFrom_filter {m : Cells w} {lo : Nat} (h : cwfFrom d lo m = true) (p : Nat × BitVec w → Bool) :
    cwfFrom d lo (m.filter p) = true := by
  induction m generalizing lo with
  | nil => rfl
  | cons e m ih =>
    simp only [cwfFrom, Bool.and_eq_true, decide_eq_true_eq] at h
    by_cases hp : p e
    · simp only [List.filter_cons, hp, if_true, cwfFrom, Bool.and_eq_true, decide_eq_true_eq]
      exact ⟨h.1, ih h.2⟩
    · simp only [List.filter_cons, hp]
      exact ih (cwfFrom_mono h.2 (by omega))

theorem cwf_filter {m : Cells w} (h : cwf d m = true) (p : Nat × BitVec w → Bool) : cwf d (m.filter p) = true :=
  cwfFrom_filter h p

theorem cwf_cclear {lo hi : Nat} {m : Cells w} (h : cwf d m = true) : cwf d (cclear lo hi m) = true := cwf_filter h _

theorem cwf_csetList (vs : List (BitVec w)) {m : Cells w} (h : cwf d m = true) (k : Nat) :
    cwf d (csetList d m k vs) = true := by
  induction vs generalizing m k with
  | nil => exact h
  | cons v vs ih => exact ih (cwf_cset h k v) (k + 1)

/-- Writing consecutive keys leaves the keys outside them as they were. -/
theorem cget_csetList_out (vs : List (BitVec w)) (m : Cells w) (k j : Nat) (hj : j < k ∨ k + vs.length ≤ j) :
    cget d (csetList d m k vs) j = cget d m j := by
  induction vs generalizing m k with
  | nil => rfl
  | cons v vs ih =>
    simp only [csetList]
    rw [ih (cset d m k v) (k + 1) (by simp only [List.length_cons] at hj; omega)]
    exact cget_cset_ne m v (by simp only [List.length_cons] at hj; omega)

end Sys2Proof.Machine
end

