-- ==== Sys2Proof/Laws/State.lean ====
section
/-! SUPPORT. The fields of the state under the updates that every meaning is built from: what each leaves as it was. -/

namespace Sys2Proof.Machine

/-! ### setReg changes `regs` alone -/

@[simp] theorem setReg_pending (s : State) (o : Nat) (v : Reg32) : (setReg s o v).pending = s.pending := rfl
@[simp] theorem setReg_mode (s : State) (o : Nat) (v : Reg32) : (setReg s o v).mode = s.mode := rfl
@[simp] theorem setReg_free (s : State) (o : Nat) (v : Reg32) : (setReg s o v).free = s.free := rfl
@[simp] theorem setReg_epoch (s : State) (o : Nat) (v : Reg32) : (setReg s o v).epoch = s.epoch := rfl
@[simp] theorem setReg_log (s : State) (o : Nat) (v : Reg32) : (setReg s o v).log = s.log := rfl
@[simp] theorem setReg_logNext (s : State) (o : Nat) (v : Reg32) : (setReg s o v).logNext = s.logNext := rfl
@[simp] theorem setReg_logDone (s : State) (o : Nat) (v : Reg32) : (setReg s o v).logDone = s.logDone := rfl
@[simp] theorem setReg_folded (s : State) (o : Nat) (v : Reg32) : (setReg s o v).folded = s.folded := rfl
@[simp] theorem setReg_bows (s : State) (o : Nat) (v : Reg32) : (setReg s o v).bows = s.bows := rfl
@[simp] theorem setReg_pe (s : State) (o : Nat) (v : Reg32) : (setReg s o v).pe = s.pe := rfl
@[simp] theorem setReg_peErr (s : State) (o : Nat) (v : Reg32) : (setReg s o v).peErr = s.peErr := rfl
@[simp] theorem setReg_scrErr (s : State) (o : Nat) (v : Reg32) : (setReg s o v).scrErr = s.scrErr := rfl
@[simp] theorem setReg_courses (s : State) (o : Nat) (v : Reg32) : (setReg s o v).courses = s.courses := rfl
@[simp] theorem setReg_pcourse (s : State) (o : Nat) (v : Reg32) : (setReg s o v).pcourse = s.pcourse := rfl
@[simp] theorem setReg_lmap (s : State) (o : Nat) (v : Reg32) : (setReg s o v).lmap = s.lmap := rfl
@[simp] theorem setReg_migration (s : State) (o : Nat) (v : Reg32) : (setReg s o v).migration = s.migration := rfl
@[simp] theorem setReg_flight (s : State) (o : Nat) (v : Reg32) : (setReg s o v).flight = s.flight := rfl
@[simp] theorem setReg_heldBack (s : State) (o : Nat) (v : Reg32) : (setReg s o v).heldBack = s.heldBack := rfl
@[simp] theorem setReg_torus (s : State) (o : Nat) (v : Reg32) : (setReg s o v).torus = s.torus := rfl
@[simp] theorem setReg_peers (s : State) (o : Nat) (v : Reg32) : (setReg s o v).peers = s.peers := rfl
@[simp] theorem setReg_fp (s : State) (o : Nat) (v : Reg32) : (setReg s o v).fp = s.fp := rfl
@[simp] theorem setReg_fabLoad (s : State) (o : Nat) (v : Reg32) : (setReg s o v).fabLoad = s.fabLoad := rfl
@[simp] theorem setReg_fabGlobal (s : State) (o : Nat) (v : Reg32) : (setReg s o v).fabGlobal = s.fabGlobal := rfl
@[simp] theorem setReg_fabLive (s : State) (o : Nat) (v : Reg32) : (setReg s o v).fabLive = s.fabLive := rfl
@[simp] theorem setReg_snap (s : State) (o : Nat) (v : Reg32) : (setReg s o v).snap = s.snap := rfl
@[simp] theorem setReg_fab (s : State) (o : Nat) (v : Reg32) : (setReg s o v).fab = s.fab := rfl
@[simp] theorem setReg_store (s : State) (o : Nat) (v : Reg32) : (setReg s o v).store = s.store := rfl
@[simp] theorem setReg_shadow (s : State) (o : Nat) (v : Reg32) : (setReg s o v).shadow = s.shadow := rfl
@[simp] theorem setReg_storeErr (s : State) (o : Nat) (v : Reg32) : (setReg s o v).storeErr = s.storeErr := rfl
@[simp] theorem setReg_lease (s : State) (o : Nat) (v : Reg32) : (setReg s o v).lease = s.lease := rfl
@[simp] theorem setReg_scrubRow (s : State) (o : Nat) (v : Reg32) : (setReg s o v).scrubRow = s.scrubRow := rfl
@[simp] theorem setReg_scrubLeft (s : State) (o : Nat) (v : Reg32) : (setReg s o v).scrubLeft = s.scrubLeft := rfl
@[simp] theorem setReg_wipeEnd (s : State) (o : Nat) (v : Reg32) : (setReg s o v).wipeEnd = s.wipeEnd := rfl
@[simp] theorem setReg_clearEnd (s : State) (o : Nat) (v : Reg32) : (setReg s o v).clearEnd = s.clearEnd := rfl
@[simp] theorem setReg_dresult (s : State) (o : Nat) (v : Reg32) : (setReg s o v).dresult = s.dresult := rfl
@[simp] theorem setReg_reconfig (s : State) (o : Nat) (v : Reg32) : (setReg s o v).reconfig = s.reconfig := rfl
@[simp] theorem setReg_idMove (s : State) (o : Nat) (v : Reg32) : (setReg s o v).idMove = s.idMove := rfl
@[simp] theorem setReg_host (s : State) (o : Nat) (v : Reg32) : (setReg s o v).host = s.host := rfl
@[simp] theorem setReg_msix (s : State) (o : Nat) (v : Reg32) : (setReg s o v).msix = s.msix := rfl
@[simp] theorem setReg_msixPend (s : State) (o : Nat) (v : Reg32) : (setReg s o v).msixPend = s.msixPend := rfl
@[simp] theorem setReg_sq (s : State) (o : Nat) (v : Reg32) : (setReg s o v).sq = s.sq := rfl
@[simp] theorem setReg_cq (s : State) (o : Nat) (v : Reg32) : (setReg s o v).cq = s.cq := rfl
@[simp] theorem setReg_st (s : State) (o : Nat) (v : Reg32) : (setReg s o v).st = s.st := rfl
@[simp] theorem setReg_accepted (s : State) (o : Nat) (v : Reg32) : (setReg s o v).accepted = s.accepted := rfl
@[simp] theorem setReg_abortWaits (s : State) (o : Nat) (v : Reg32) : (setReg s o v).abortWaits = s.abortWaits := rfl
@[simp] theorem setReg_movers (s : State) (o : Nat) (v : Reg32) : (setReg s o v).movers = s.movers := rfl
@[simp] theorem setReg_ackWaits (s : State) (o : Nat) (v : Reg32) : (setReg s o v).ackWaits = s.ackWaits := rfl
@[simp] theorem setReg_before (s : State) (o : Nat) (v : Reg32) : (setReg s o v).before = s.before := rfl
@[simp] theorem setReg_guard (s : State) (o : Nat) (v : Reg32) : (setReg s o v).guard = s.guard := rfl
@[simp] theorem setReg_refs (s : State) (o : Nat) (v : Reg32) : (setReg s o v).refs = s.refs := rfl
@[simp] theorem setReg_sched (s : State) (o : Nat) (v : Reg32) : (setReg s o v).sched = s.sched := rfl
@[simp] theorem setReg_nextArm (s : State) (o : Nat) (v : Reg32) : (setReg s o v).nextArm = s.nextArm := rfl
@[simp] theorem setReg_timers (s : State) (o : Nat) (v : Reg32) : (setReg s o v).timers = s.timers := rfl
@[simp] theorem setReg_ev (s : State) (o : Nat) (v : Reg32) : (setReg s o v).ev = s.ev := rfl
@[simp] theorem setReg_pulse (s : State) (o : Nat) (v : Reg32) : (setReg s o v).pulse = s.pulse := rfl
@[simp] theorem setReg_etio (s : State) (o : Nat) (v : Reg32) : (setReg s o v).etio = s.etio := rfl
@[simp] theorem setReg_etioLive (s : State) (o : Nat) (v : Reg32) : (setReg s o v).etioLive = s.etioLive := rfl
@[simp] theorem setReg_frac (s : State) (o : Nat) (v : Reg32) : (setReg s o v).frac = s.frac := rfl
@[simp] theorem setReg_ppsRun (s : State) (o : Nat) (v : Reg32) : (setReg s o v).ppsRun = s.ppsRun := rfl
@[simp] theorem setReg_ppsSeen (s : State) (o : Nat) (v : Reg32) : (setReg s o v).ppsSeen = s.ppsSeen := rfl
@[simp] theorem setReg_faults (s : State) (o : Nat) (v : Reg32) : (setReg s o v).faults = s.faults := rfl
@[simp] theorem setReg_bootFailed (s : State) (o : Nat) (v : Reg32) : (setReg s o v).bootFailed = s.bootFailed := rfl
@[simp] theorem setReg_pins (s : State) (o : Nat) (v : Reg32) : (setReg s o v).pins = s.pins := rfl
@[simp] theorem setReg_adminQ (s : State) (o : Nat) (v : Reg32) : (setReg s o v).adminQ = s.adminQ := rfl
@[simp] theorem setReg_refused (s : State) (o : Nat) (v : Reg32) : (setReg s o v).refused = s.refused := rfl
@[simp] theorem setReg_startup (s : State) (o : Nat) (v : Reg32) : (setReg s o v).startup = s.startup := rfl
@[simp] theorem setReg_keysGone (s : State) (o : Nat) (v : Reg32) : (setReg s o v).keysGone = s.keysGone := rfl
@[simp] theorem setReg_ownerCk (s : State) (o : Nat) (v : Reg32) : (setReg s o v).ownerCk = s.ownerCk := rfl
@[simp] theorem setReg_ownerKey (s : State) (o : Nat) (v : Reg32) : (setReg s o v).ownerKey = s.ownerKey := rfl
@[simp] theorem setReg_lcChanged (s : State) (o : Nat) (v : Reg32) : (setReg s o v).lcChanged = s.lcChanged := rfl
@[simp] theorem setReg_vault (s : State) (o : Nat) (v : Reg32) : (setReg s o v).vault = s.vault := rfl
@[simp] theorem setReg_firmware (s : State) (o : Nat) (v : Reg32) : (setReg s o v).firmware = s.firmware := rfl
@[simp] theorem setReg_caldata (s : State) (o : Nat) (v : Reg32) : (setReg s o v).caldata = s.caldata := rfl
@[simp] theorem setReg_forced (s : State) (o : Nat) (v : Reg32) : (setReg s o v).forced = s.forced := rfl
@[simp] theorem setReg_fullBoot (s : State) (o : Nat) (v : Reg32) : (setReg s o v).fullBoot = s.fullBoot := rfl
@[simp] theorem setReg_lifecycle (s : State) (o : Nat) (v : Reg32) : (setReg s o v).lifecycle = s.lifecycle := rfl
@[simp] theorem setReg_keepLink (s : State) (o : Nat) (v : Reg32) : (setReg s o v).keepLink = s.keepLink := rfl
@[simp] theorem setReg_policy (s : State) (o : Nat) (v : Reg32) : (setReg s o v).policy = s.policy := rfl
@[simp] theorem setReg_passes (s : State) (o : Nat) (v : Reg32) : (setReg s o v).passes = s.passes := rfl
@[simp] theorem setReg_tested (s : State) (o : Nat) (v : Reg32) : (setReg s o v).tested = s.tested := rfl
@[simp] theorem setReg_highMs (s : State) (o : Nat) (v : Reg32) : (setReg s o v).highMs = s.highMs := rfl
@[simp] theorem setReg_gaps (s : State) (o : Nat) (v : Reg32) : (setReg s o v).gaps = s.gaps := rfl
@[simp] theorem setReg_margins (s : State) (o : Nat) (v : Reg32) : (setReg s o v).margins = s.margins := rfl
@[simp] theorem setReg_brown (s : State) (o : Nat) (v : Reg32) : (setReg s o v).brown = s.brown := rfl
@[simp] theorem setReg_adjacent (s : State) (o : Nat) (v : Reg32) : (setReg s o v).adjacent = s.adjacent := rfl
@[simp] theorem setReg_lows (s : State) (o : Nat) (v : Reg32) : (setReg s o v).lows = s.lows := rfl
@[simp] theorem setReg_uncorr (s : State) (o : Nat) (v : Reg32) : (setReg s o v).uncorr = s.uncorr := rfl
@[simp] theorem setReg_corr (s : State) (o : Nat) (v : Reg32) : (setReg s o v).corr = s.corr := rfl
@[simp] theorem setReg_fwSwitch (s : State) (o : Nat) (v : Reg32) : (setReg s o v).fwSwitch = s.fwSwitch := rfl
@[simp] theorem setReg_watchdog (s : State) (o : Nat) (v : Reg32) : (setReg s o v).watchdog = s.watchdog := rfl
@[simp] theorem setReg_patchLoad (s : State) (o : Nat) (v : Reg32) : (setReg s o v).patchLoad = s.patchLoad := rfl
@[simp] theorem setReg_nonce (s : State) (o : Nat) (v : Reg32) : (setReg s o v).nonce = s.nonce := rfl
@[simp] theorem setReg_jtag (s : State) (o : Nat) (v : Reg32) : (setReg s o v).jtag = s.jtag := rfl
@[simp] theorem setReg_bar4 (s : State) (o : Nat) (v : Reg32) : (setReg s o v).bar4 = s.bar4 := rfl
@[simp] theorem setReg_bootPass (s : State) (o : Nat) (v : Reg32) : (setReg s o v).bootPass = s.bootPass := rfl

/-! ### setRegBits changes `regs` alone -/

@[simp] theorem setRegBits_pending (s : State) (o hi lo x : Nat) : (setRegBits s o hi lo x).pending = s.pending := rfl
@[simp] theorem setRegBits_mode (s : State) (o hi lo x : Nat) : (setRegBits s o hi lo x).mode = s.mode := rfl
@[simp] theorem setRegBits_free (s : State) (o hi lo x : Nat) : (setRegBits s o hi lo x).free = s.free := rfl
@[simp] theorem setRegBits_epoch (s : State) (o hi lo x : Nat) : (setRegBits s o hi lo x).epoch = s.epoch := rfl
@[simp] theorem setRegBits_log (s : State) (o hi lo x : Nat) : (setRegBits s o hi lo x).log = s.log := rfl
@[simp] theorem setRegBits_logNext (s : State) (o hi lo x : Nat) : (setRegBits s o hi lo x).logNext = s.logNext := rfl
@[simp] theorem setRegBits_logDone (s : State) (o hi lo x : Nat) : (setRegBits s o hi lo x).logDone = s.logDone := rfl
@[simp] theorem setRegBits_folded (s : State) (o hi lo x : Nat) : (setRegBits s o hi lo x).folded = s.folded := rfl
@[simp] theorem setRegBits_bows (s : State) (o hi lo x : Nat) : (setRegBits s o hi lo x).bows = s.bows := rfl
@[simp] theorem setRegBits_pe (s : State) (o hi lo x : Nat) : (setRegBits s o hi lo x).pe = s.pe := rfl
@[simp] theorem setRegBits_peErr (s : State) (o hi lo x : Nat) : (setRegBits s o hi lo x).peErr = s.peErr := rfl
@[simp] theorem setRegBits_scrErr (s : State) (o hi lo x : Nat) : (setRegBits s o hi lo x).scrErr = s.scrErr := rfl
@[simp] theorem setRegBits_courses (s : State) (o hi lo x : Nat) : (setRegBits s o hi lo x).courses = s.courses := rfl
@[simp] theorem setRegBits_pcourse (s : State) (o hi lo x : Nat) : (setRegBits s o hi lo x).pcourse = s.pcourse := rfl
@[simp] theorem setRegBits_lmap (s : State) (o hi lo x : Nat) : (setRegBits s o hi lo x).lmap = s.lmap := rfl
@[simp] theorem setRegBits_migration (s : State) (o hi lo x : Nat) : (setRegBits s o hi lo x).migration = s.migration := rfl
@[simp] theorem setRegBits_flight (s : State) (o hi lo x : Nat) : (setRegBits s o hi lo x).flight = s.flight := rfl
@[simp] theorem setRegBits_heldBack (s : State) (o hi lo x : Nat) : (setRegBits s o hi lo x).heldBack = s.heldBack := rfl
@[simp] theorem setRegBits_torus (s : State) (o hi lo x : Nat) : (setRegBits s o hi lo x).torus = s.torus := rfl
@[simp] theorem setRegBits_peers (s : State) (o hi lo x : Nat) : (setRegBits s o hi lo x).peers = s.peers := rfl
@[simp] theorem setRegBits_fp (s : State) (o hi lo x : Nat) : (setRegBits s o hi lo x).fp = s.fp := rfl
@[simp] theorem setRegBits_fabLoad (s : State) (o hi lo x : Nat) : (setRegBits s o hi lo x).fabLoad = s.fabLoad := rfl
@[simp] theorem setRegBits_fabGlobal (s : State) (o hi lo x : Nat) : (setRegBits s o hi lo x).fabGlobal = s.fabGlobal := rfl
@[simp] theorem setRegBits_fabLive (s : State) (o hi lo x : Nat) : (setRegBits s o hi lo x).fabLive = s.fabLive := rfl
@[simp] theorem setRegBits_snap (s : State) (o hi lo x : Nat) : (setRegBits s o hi lo x).snap = s.snap := rfl
@[simp] theorem setRegBits_fab (s : State) (o hi lo x : Nat) : (setRegBits s o hi lo x).fab = s.fab := rfl
@[simp] theorem setRegBits_store (s : State) (o hi lo x : Nat) : (setRegBits s o hi lo x).store = s.store := rfl
@[simp] theorem setRegBits_shadow (s : State) (o hi lo x : Nat) : (setRegBits s o hi lo x).shadow = s.shadow := rfl
@[simp] theorem setRegBits_storeErr (s : State) (o hi lo x : Nat) : (setRegBits s o hi lo x).storeErr = s.storeErr := rfl
@[simp] theorem setRegBits_lease (s : State) (o hi lo x : Nat) : (setRegBits s o hi lo x).lease = s.lease := rfl
@[simp] theorem setRegBits_scrubRow (s : State) (o hi lo x : Nat) : (setRegBits s o hi lo x).scrubRow = s.scrubRow := rfl
@[simp] theorem setRegBits_scrubLeft (s : State) (o hi lo x : Nat) : (setRegBits s o hi lo x).scrubLeft = s.scrubLeft := rfl
@[simp] theorem setRegBits_wipeEnd (s : State) (o hi lo x : Nat) : (setRegBits s o hi lo x).wipeEnd = s.wipeEnd := rfl
@[simp] theorem setRegBits_clearEnd (s : State) (o hi lo x : Nat) : (setRegBits s o hi lo x).clearEnd = s.clearEnd := rfl
@[simp] theorem setRegBits_dresult (s : State) (o hi lo x : Nat) : (setRegBits s o hi lo x).dresult = s.dresult := rfl
@[simp] theorem setRegBits_reconfig (s : State) (o hi lo x : Nat) : (setRegBits s o hi lo x).reconfig = s.reconfig := rfl
@[simp] theorem setRegBits_idMove (s : State) (o hi lo x : Nat) : (setRegBits s o hi lo x).idMove = s.idMove := rfl
@[simp] theorem setRegBits_host (s : State) (o hi lo x : Nat) : (setRegBits s o hi lo x).host = s.host := rfl
@[simp] theorem setRegBits_msix (s : State) (o hi lo x : Nat) : (setRegBits s o hi lo x).msix = s.msix := rfl
@[simp] theorem setRegBits_msixPend (s : State) (o hi lo x : Nat) : (setRegBits s o hi lo x).msixPend = s.msixPend := rfl
@[simp] theorem setRegBits_sq (s : State) (o hi lo x : Nat) : (setRegBits s o hi lo x).sq = s.sq := rfl
@[simp] theorem setRegBits_cq (s : State) (o hi lo x : Nat) : (setRegBits s o hi lo x).cq = s.cq := rfl
@[simp] theorem setRegBits_st (s : State) (o hi lo x : Nat) : (setRegBits s o hi lo x).st = s.st := rfl
@[simp] theorem setRegBits_accepted (s : State) (o hi lo x : Nat) : (setRegBits s o hi lo x).accepted = s.accepted := rfl
@[simp] theorem setRegBits_abortWaits (s : State) (o hi lo x : Nat) : (setRegBits s o hi lo x).abortWaits = s.abortWaits := rfl
@[simp] theorem setRegBits_movers (s : State) (o hi lo x : Nat) : (setRegBits s o hi lo x).movers = s.movers := rfl
@[simp] theorem setRegBits_ackWaits (s : State) (o hi lo x : Nat) : (setRegBits s o hi lo x).ackWaits = s.ackWaits := rfl
@[simp] theorem setRegBits_before (s : State) (o hi lo x : Nat) : (setRegBits s o hi lo x).before = s.before := rfl
@[simp] theorem setRegBits_guard (s : State) (o hi lo x : Nat) : (setRegBits s o hi lo x).guard = s.guard := rfl
@[simp] theorem setRegBits_refs (s : State) (o hi lo x : Nat) : (setRegBits s o hi lo x).refs = s.refs := rfl
@[simp] theorem setRegBits_sched (s : State) (o hi lo x : Nat) : (setRegBits s o hi lo x).sched = s.sched := rfl
@[simp] theorem setRegBits_nextArm (s : State) (o hi lo x : Nat) : (setRegBits s o hi lo x).nextArm = s.nextArm := rfl
@[simp] theorem setRegBits_timers (s : State) (o hi lo x : Nat) : (setRegBits s o hi lo x).timers = s.timers := rfl
@[simp] theorem setRegBits_ev (s : State) (o hi lo x : Nat) : (setRegBits s o hi lo x).ev = s.ev := rfl
@[simp] theorem setRegBits_pulse (s : State) (o hi lo x : Nat) : (setRegBits s o hi lo x).pulse = s.pulse := rfl
@[simp] theorem setRegBits_etio (s : State) (o hi lo x : Nat) : (setRegBits s o hi lo x).etio = s.etio := rfl
@[simp] theorem setRegBits_etioLive (s : State) (o hi lo x : Nat) : (setRegBits s o hi lo x).etioLive = s.etioLive := rfl
@[simp] theorem setRegBits_frac (s : State) (o hi lo x : Nat) : (setRegBits s o hi lo x).frac = s.frac := rfl
@[simp] theorem setRegBits_ppsRun (s : State) (o hi lo x : Nat) : (setRegBits s o hi lo x).ppsRun = s.ppsRun := rfl
@[simp] theorem setRegBits_ppsSeen (s : State) (o hi lo x : Nat) : (setRegBits s o hi lo x).ppsSeen = s.ppsSeen := rfl
@[simp] theorem setRegBits_faults (s : State) (o hi lo x : Nat) : (setRegBits s o hi lo x).faults = s.faults := rfl
@[simp] theorem setRegBits_bootFailed (s : State) (o hi lo x : Nat) : (setRegBits s o hi lo x).bootFailed = s.bootFailed := rfl
@[simp] theorem setRegBits_pins (s : State) (o hi lo x : Nat) : (setRegBits s o hi lo x).pins = s.pins := rfl
@[simp] theorem setRegBits_adminQ (s : State) (o hi lo x : Nat) : (setRegBits s o hi lo x).adminQ = s.adminQ := rfl
@[simp] theorem setRegBits_refused (s : State) (o hi lo x : Nat) : (setRegBits s o hi lo x).refused = s.refused := rfl
@[simp] theorem setRegBits_startup (s : State) (o hi lo x : Nat) : (setRegBits s o hi lo x).startup = s.startup := rfl
@[simp] theorem setRegBits_keysGone (s : State) (o hi lo x : Nat) : (setRegBits s o hi lo x).keysGone = s.keysGone := rfl
@[simp] theorem setRegBits_ownerCk (s : State) (o hi lo x : Nat) : (setRegBits s o hi lo x).ownerCk = s.ownerCk := rfl
@[simp] theorem setRegBits_ownerKey (s : State) (o hi lo x : Nat) : (setRegBits s o hi lo x).ownerKey = s.ownerKey := rfl
@[simp] theorem setRegBits_lcChanged (s : State) (o hi lo x : Nat) : (setRegBits s o hi lo x).lcChanged = s.lcChanged := rfl
@[simp] theorem setRegBits_vault (s : State) (o hi lo x : Nat) : (setRegBits s o hi lo x).vault = s.vault := rfl
@[simp] theorem setRegBits_firmware (s : State) (o hi lo x : Nat) : (setRegBits s o hi lo x).firmware = s.firmware := rfl
@[simp] theorem setRegBits_caldata (s : State) (o hi lo x : Nat) : (setRegBits s o hi lo x).caldata = s.caldata := rfl
@[simp] theorem setRegBits_forced (s : State) (o hi lo x : Nat) : (setRegBits s o hi lo x).forced = s.forced := rfl
@[simp] theorem setRegBits_fullBoot (s : State) (o hi lo x : Nat) : (setRegBits s o hi lo x).fullBoot = s.fullBoot := rfl
@[simp] theorem setRegBits_lifecycle (s : State) (o hi lo x : Nat) : (setRegBits s o hi lo x).lifecycle = s.lifecycle := rfl
@[simp] theorem setRegBits_keepLink (s : State) (o hi lo x : Nat) : (setRegBits s o hi lo x).keepLink = s.keepLink := rfl
@[simp] theorem setRegBits_policy (s : State) (o hi lo x : Nat) : (setRegBits s o hi lo x).policy = s.policy := rfl
@[simp] theorem setRegBits_passes (s : State) (o hi lo x : Nat) : (setRegBits s o hi lo x).passes = s.passes := rfl
@[simp] theorem setRegBits_tested (s : State) (o hi lo x : Nat) : (setRegBits s o hi lo x).tested = s.tested := rfl
@[simp] theorem setRegBits_highMs (s : State) (o hi lo x : Nat) : (setRegBits s o hi lo x).highMs = s.highMs := rfl
@[simp] theorem setRegBits_gaps (s : State) (o hi lo x : Nat) : (setRegBits s o hi lo x).gaps = s.gaps := rfl
@[simp] theorem setRegBits_margins (s : State) (o hi lo x : Nat) : (setRegBits s o hi lo x).margins = s.margins := rfl
@[simp] theorem setRegBits_brown (s : State) (o hi lo x : Nat) : (setRegBits s o hi lo x).brown = s.brown := rfl
@[simp] theorem setRegBits_adjacent (s : State) (o hi lo x : Nat) : (setRegBits s o hi lo x).adjacent = s.adjacent := rfl
@[simp] theorem setRegBits_lows (s : State) (o hi lo x : Nat) : (setRegBits s o hi lo x).lows = s.lows := rfl
@[simp] theorem setRegBits_uncorr (s : State) (o hi lo x : Nat) : (setRegBits s o hi lo x).uncorr = s.uncorr := rfl
@[simp] theorem setRegBits_corr (s : State) (o hi lo x : Nat) : (setRegBits s o hi lo x).corr = s.corr := rfl
@[simp] theorem setRegBits_fwSwitch (s : State) (o hi lo x : Nat) : (setRegBits s o hi lo x).fwSwitch = s.fwSwitch := rfl
@[simp] theorem setRegBits_watchdog (s : State) (o hi lo x : Nat) : (setRegBits s o hi lo x).watchdog = s.watchdog := rfl
@[simp] theorem setRegBits_patchLoad (s : State) (o hi lo x : Nat) : (setRegBits s o hi lo x).patchLoad = s.patchLoad := rfl
@[simp] theorem setRegBits_nonce (s : State) (o hi lo x : Nat) : (setRegBits s o hi lo x).nonce = s.nonce := rfl
@[simp] theorem setRegBits_jtag (s : State) (o hi lo x : Nat) : (setRegBits s o hi lo x).jtag = s.jtag := rfl
@[simp] theorem setRegBits_bar4 (s : State) (o hi lo x : Nat) : (setRegBits s o hi lo x).bar4 = s.bar4 := rfl
@[simp] theorem setRegBits_bootPass (s : State) (o hi lo x : Nat) : (setRegBits s o hi lo x).bootPass = s.bootPass := rfl

/-! ### countUp changes `regs` alone -/

@[simp] theorem countUp_pending (s : State) (o hi lo n : Nat) : (countUp s o hi lo n).pending = s.pending := rfl
@[simp] theorem countUp_mode (s : State) (o hi lo n : Nat) : (countUp s o hi lo n).mode = s.mode := rfl
@[simp] theorem countUp_free (s : State) (o hi lo n : Nat) : (countUp s o hi lo n).free = s.free := rfl
@[simp] theorem countUp_epoch (s : State) (o hi lo n : Nat) : (countUp s o hi lo n).epoch = s.epoch := rfl
@[simp] theorem countUp_log (s : State) (o hi lo n : Nat) : (countUp s o hi lo n).log = s.log := rfl
@[simp] theorem countUp_logNext (s : State) (o hi lo n : Nat) : (countUp s o hi lo n).logNext = s.logNext := rfl
@[simp] theorem countUp_logDone (s : State) (o hi lo n : Nat) : (countUp s o hi lo n).logDone = s.logDone := rfl
@[simp] theorem countUp_folded (s : State) (o hi lo n : Nat) : (countUp s o hi lo n).folded = s.folded := rfl
@[simp] theorem countUp_bows (s : State) (o hi lo n : Nat) : (countUp s o hi lo n).bows = s.bows := rfl
@[simp] theorem countUp_pe (s : State) (o hi lo n : Nat) : (countUp s o hi lo n).pe = s.pe := rfl
@[simp] theorem countUp_peErr (s : State) (o hi lo n : Nat) : (countUp s o hi lo n).peErr = s.peErr := rfl
@[simp] theorem countUp_scrErr (s : State) (o hi lo n : Nat) : (countUp s o hi lo n).scrErr = s.scrErr := rfl
@[simp] theorem countUp_courses (s : State) (o hi lo n : Nat) : (countUp s o hi lo n).courses = s.courses := rfl
@[simp] theorem countUp_pcourse (s : State) (o hi lo n : Nat) : (countUp s o hi lo n).pcourse = s.pcourse := rfl
@[simp] theorem countUp_lmap (s : State) (o hi lo n : Nat) : (countUp s o hi lo n).lmap = s.lmap := rfl
@[simp] theorem countUp_migration (s : State) (o hi lo n : Nat) : (countUp s o hi lo n).migration = s.migration := rfl
@[simp] theorem countUp_flight (s : State) (o hi lo n : Nat) : (countUp s o hi lo n).flight = s.flight := rfl
@[simp] theorem countUp_heldBack (s : State) (o hi lo n : Nat) : (countUp s o hi lo n).heldBack = s.heldBack := rfl
@[simp] theorem countUp_torus (s : State) (o hi lo n : Nat) : (countUp s o hi lo n).torus = s.torus := rfl
@[simp] theorem countUp_peers (s : State) (o hi lo n : Nat) : (countUp s o hi lo n).peers = s.peers := rfl
@[simp] theorem countUp_fp (s : State) (o hi lo n : Nat) : (countUp s o hi lo n).fp = s.fp := rfl
@[simp] theorem countUp_fabLoad (s : State) (o hi lo n : Nat) : (countUp s o hi lo n).fabLoad = s.fabLoad := rfl
@[simp] theorem countUp_fabGlobal (s : State) (o hi lo n : Nat) : (countUp s o hi lo n).fabGlobal = s.fabGlobal := rfl
@[simp] theorem countUp_fabLive (s : State) (o hi lo n : Nat) : (countUp s o hi lo n).fabLive = s.fabLive := rfl
@[simp] theorem countUp_snap (s : State) (o hi lo n : Nat) : (countUp s o hi lo n).snap = s.snap := rfl
@[simp] theorem countUp_fab (s : State) (o hi lo n : Nat) : (countUp s o hi lo n).fab = s.fab := rfl
@[simp] theorem countUp_store (s : State) (o hi lo n : Nat) : (countUp s o hi lo n).store = s.store := rfl
@[simp] theorem countUp_shadow (s : State) (o hi lo n : Nat) : (countUp s o hi lo n).shadow = s.shadow := rfl
@[simp] theorem countUp_storeErr (s : State) (o hi lo n : Nat) : (countUp s o hi lo n).storeErr = s.storeErr := rfl
@[simp] theorem countUp_lease (s : State) (o hi lo n : Nat) : (countUp s o hi lo n).lease = s.lease := rfl
@[simp] theorem countUp_scrubRow (s : State) (o hi lo n : Nat) : (countUp s o hi lo n).scrubRow = s.scrubRow := rfl
@[simp] theorem countUp_scrubLeft (s : State) (o hi lo n : Nat) : (countUp s o hi lo n).scrubLeft = s.scrubLeft := rfl
@[simp] theorem countUp_wipeEnd (s : State) (o hi lo n : Nat) : (countUp s o hi lo n).wipeEnd = s.wipeEnd := rfl
@[simp] theorem countUp_clearEnd (s : State) (o hi lo n : Nat) : (countUp s o hi lo n).clearEnd = s.clearEnd := rfl
@[simp] theorem countUp_dresult (s : State) (o hi lo n : Nat) : (countUp s o hi lo n).dresult = s.dresult := rfl
@[simp] theorem countUp_reconfig (s : State) (o hi lo n : Nat) : (countUp s o hi lo n).reconfig = s.reconfig := rfl
@[simp] theorem countUp_idMove (s : State) (o hi lo n : Nat) : (countUp s o hi lo n).idMove = s.idMove := rfl
@[simp] theorem countUp_host (s : State) (o hi lo n : Nat) : (countUp s o hi lo n).host = s.host := rfl
@[simp] theorem countUp_msix (s : State) (o hi lo n : Nat) : (countUp s o hi lo n).msix = s.msix := rfl
@[simp] theorem countUp_msixPend (s : State) (o hi lo n : Nat) : (countUp s o hi lo n).msixPend = s.msixPend := rfl
@[simp] theorem countUp_sq (s : State) (o hi lo n : Nat) : (countUp s o hi lo n).sq = s.sq := rfl
@[simp] theorem countUp_cq (s : State) (o hi lo n : Nat) : (countUp s o hi lo n).cq = s.cq := rfl
@[simp] theorem countUp_st (s : State) (o hi lo n : Nat) : (countUp s o hi lo n).st = s.st := rfl
@[simp] theorem countUp_accepted (s : State) (o hi lo n : Nat) : (countUp s o hi lo n).accepted = s.accepted := rfl
@[simp] theorem countUp_abortWaits (s : State) (o hi lo n : Nat) : (countUp s o hi lo n).abortWaits = s.abortWaits := rfl
@[simp] theorem countUp_movers (s : State) (o hi lo n : Nat) : (countUp s o hi lo n).movers = s.movers := rfl
@[simp] theorem countUp_ackWaits (s : State) (o hi lo n : Nat) : (countUp s o hi lo n).ackWaits = s.ackWaits := rfl
@[simp] theorem countUp_before (s : State) (o hi lo n : Nat) : (countUp s o hi lo n).before = s.before := rfl
@[simp] theorem countUp_guard (s : State) (o hi lo n : Nat) : (countUp s o hi lo n).guard = s.guard := rfl
@[simp] theorem countUp_refs (s : State) (o hi lo n : Nat) : (countUp s o hi lo n).refs = s.refs := rfl
@[simp] theorem countUp_sched (s : State) (o hi lo n : Nat) : (countUp s o hi lo n).sched = s.sched := rfl
@[simp] theorem countUp_nextArm (s : State) (o hi lo n : Nat) : (countUp s o hi lo n).nextArm = s.nextArm := rfl
@[simp] theorem countUp_timers (s : State) (o hi lo n : Nat) : (countUp s o hi lo n).timers = s.timers := rfl
@[simp] theorem countUp_ev (s : State) (o hi lo n : Nat) : (countUp s o hi lo n).ev = s.ev := rfl
@[simp] theorem countUp_pulse (s : State) (o hi lo n : Nat) : (countUp s o hi lo n).pulse = s.pulse := rfl
@[simp] theorem countUp_etio (s : State) (o hi lo n : Nat) : (countUp s o hi lo n).etio = s.etio := rfl
@[simp] theorem countUp_etioLive (s : State) (o hi lo n : Nat) : (countUp s o hi lo n).etioLive = s.etioLive := rfl
@[simp] theorem countUp_frac (s : State) (o hi lo n : Nat) : (countUp s o hi lo n).frac = s.frac := rfl
@[simp] theorem countUp_ppsRun (s : State) (o hi lo n : Nat) : (countUp s o hi lo n).ppsRun = s.ppsRun := rfl
@[simp] theorem countUp_ppsSeen (s : State) (o hi lo n : Nat) : (countUp s o hi lo n).ppsSeen = s.ppsSeen := rfl
@[simp] theorem countUp_faults (s : State) (o hi lo n : Nat) : (countUp s o hi lo n).faults = s.faults := rfl
@[simp] theorem countUp_bootFailed (s : State) (o hi lo n : Nat) : (countUp s o hi lo n).bootFailed = s.bootFailed := rfl
@[simp] theorem countUp_pins (s : State) (o hi lo n : Nat) : (countUp s o hi lo n).pins = s.pins := rfl
@[simp] theorem countUp_adminQ (s : State) (o hi lo n : Nat) : (countUp s o hi lo n).adminQ = s.adminQ := rfl
@[simp] theorem countUp_refused (s : State) (o hi lo n : Nat) : (countUp s o hi lo n).refused = s.refused := rfl
@[simp] theorem countUp_startup (s : State) (o hi lo n : Nat) : (countUp s o hi lo n).startup = s.startup := rfl
@[simp] theorem countUp_keysGone (s : State) (o hi lo n : Nat) : (countUp s o hi lo n).keysGone = s.keysGone := rfl
@[simp] theorem countUp_ownerCk (s : State) (o hi lo n : Nat) : (countUp s o hi lo n).ownerCk = s.ownerCk := rfl
@[simp] theorem countUp_ownerKey (s : State) (o hi lo n : Nat) : (countUp s o hi lo n).ownerKey = s.ownerKey := rfl
@[simp] theorem countUp_lcChanged (s : State) (o hi lo n : Nat) : (countUp s o hi lo n).lcChanged = s.lcChanged := rfl
@[simp] theorem countUp_vault (s : State) (o hi lo n : Nat) : (countUp s o hi lo n).vault = s.vault := rfl
@[simp] theorem countUp_firmware (s : State) (o hi lo n : Nat) : (countUp s o hi lo n).firmware = s.firmware := rfl
@[simp] theorem countUp_caldata (s : State) (o hi lo n : Nat) : (countUp s o hi lo n).caldata = s.caldata := rfl
@[simp] theorem countUp_forced (s : State) (o hi lo n : Nat) : (countUp s o hi lo n).forced = s.forced := rfl
@[simp] theorem countUp_fullBoot (s : State) (o hi lo n : Nat) : (countUp s o hi lo n).fullBoot = s.fullBoot := rfl
@[simp] theorem countUp_lifecycle (s : State) (o hi lo n : Nat) : (countUp s o hi lo n).lifecycle = s.lifecycle := rfl
@[simp] theorem countUp_keepLink (s : State) (o hi lo n : Nat) : (countUp s o hi lo n).keepLink = s.keepLink := rfl
@[simp] theorem countUp_policy (s : State) (o hi lo n : Nat) : (countUp s o hi lo n).policy = s.policy := rfl
@[simp] theorem countUp_passes (s : State) (o hi lo n : Nat) : (countUp s o hi lo n).passes = s.passes := rfl
@[simp] theorem countUp_tested (s : State) (o hi lo n : Nat) : (countUp s o hi lo n).tested = s.tested := rfl
@[simp] theorem countUp_highMs (s : State) (o hi lo n : Nat) : (countUp s o hi lo n).highMs = s.highMs := rfl
@[simp] theorem countUp_gaps (s : State) (o hi lo n : Nat) : (countUp s o hi lo n).gaps = s.gaps := rfl
@[simp] theorem countUp_margins (s : State) (o hi lo n : Nat) : (countUp s o hi lo n).margins = s.margins := rfl
@[simp] theorem countUp_brown (s : State) (o hi lo n : Nat) : (countUp s o hi lo n).brown = s.brown := rfl
@[simp] theorem countUp_adjacent (s : State) (o hi lo n : Nat) : (countUp s o hi lo n).adjacent = s.adjacent := rfl
@[simp] theorem countUp_lows (s : State) (o hi lo n : Nat) : (countUp s o hi lo n).lows = s.lows := rfl
@[simp] theorem countUp_uncorr (s : State) (o hi lo n : Nat) : (countUp s o hi lo n).uncorr = s.uncorr := rfl
@[simp] theorem countUp_corr (s : State) (o hi lo n : Nat) : (countUp s o hi lo n).corr = s.corr := rfl
@[simp] theorem countUp_fwSwitch (s : State) (o hi lo n : Nat) : (countUp s o hi lo n).fwSwitch = s.fwSwitch := rfl
@[simp] theorem countUp_watchdog (s : State) (o hi lo n : Nat) : (countUp s o hi lo n).watchdog = s.watchdog := rfl
@[simp] theorem countUp_patchLoad (s : State) (o hi lo n : Nat) : (countUp s o hi lo n).patchLoad = s.patchLoad := rfl
@[simp] theorem countUp_nonce (s : State) (o hi lo n : Nat) : (countUp s o hi lo n).nonce = s.nonce := rfl
@[simp] theorem countUp_jtag (s : State) (o hi lo n : Nat) : (countUp s o hi lo n).jtag = s.jtag := rfl
@[simp] theorem countUp_bar4 (s : State) (o hi lo n : Nat) : (countUp s o hi lo n).bar4 = s.bar4 := rfl
@[simp] theorem countUp_bootPass (s : State) (o hi lo n : Nat) : (countUp s o hi lo n).bootPass = s.bootPass := rfl

/-! ### setBow changes `bows` alone -/

@[simp] theorem setBow_pending (s : State) (b : Fin 16) (v : Bow) : (setBow s b v).pending = s.pending := rfl
@[simp] theorem setBow_mode (s : State) (b : Fin 16) (v : Bow) : (setBow s b v).mode = s.mode := rfl
@[simp] theorem setBow_free (s : State) (b : Fin 16) (v : Bow) : (setBow s b v).free = s.free := rfl
@[simp] theorem setBow_regs (s : State) (b : Fin 16) (v : Bow) : (setBow s b v).regs = s.regs := rfl
@[simp] theorem setBow_epoch (s : State) (b : Fin 16) (v : Bow) : (setBow s b v).epoch = s.epoch := rfl
@[simp] theorem setBow_log (s : State) (b : Fin 16) (v : Bow) : (setBow s b v).log = s.log := rfl
@[simp] theorem setBow_logNext (s : State) (b : Fin 16) (v : Bow) : (setBow s b v).logNext = s.logNext := rfl
@[simp] theorem setBow_logDone (s : State) (b : Fin 16) (v : Bow) : (setBow s b v).logDone = s.logDone := rfl
@[simp] theorem setBow_folded (s : State) (b : Fin 16) (v : Bow) : (setBow s b v).folded = s.folded := rfl
@[simp] theorem setBow_pe (s : State) (b : Fin 16) (v : Bow) : (setBow s b v).pe = s.pe := rfl
@[simp] theorem setBow_peErr (s : State) (b : Fin 16) (v : Bow) : (setBow s b v).peErr = s.peErr := rfl
@[simp] theorem setBow_scrErr (s : State) (b : Fin 16) (v : Bow) : (setBow s b v).scrErr = s.scrErr := rfl
@[simp] theorem setBow_courses (s : State) (b : Fin 16) (v : Bow) : (setBow s b v).courses = s.courses := rfl
@[simp] theorem setBow_pcourse (s : State) (b : Fin 16) (v : Bow) : (setBow s b v).pcourse = s.pcourse := rfl
@[simp] theorem setBow_lmap (s : State) (b : Fin 16) (v : Bow) : (setBow s b v).lmap = s.lmap := rfl
@[simp] theorem setBow_migration (s : State) (b : Fin 16) (v : Bow) : (setBow s b v).migration = s.migration := rfl
@[simp] theorem setBow_flight (s : State) (b : Fin 16) (v : Bow) : (setBow s b v).flight = s.flight := rfl
@[simp] theorem setBow_heldBack (s : State) (b : Fin 16) (v : Bow) : (setBow s b v).heldBack = s.heldBack := rfl
@[simp] theorem setBow_torus (s : State) (b : Fin 16) (v : Bow) : (setBow s b v).torus = s.torus := rfl
@[simp] theorem setBow_peers (s : State) (b : Fin 16) (v : Bow) : (setBow s b v).peers = s.peers := rfl
@[simp] theorem setBow_fp (s : State) (b : Fin 16) (v : Bow) : (setBow s b v).fp = s.fp := rfl
@[simp] theorem setBow_fabLoad (s : State) (b : Fin 16) (v : Bow) : (setBow s b v).fabLoad = s.fabLoad := rfl
@[simp] theorem setBow_fabGlobal (s : State) (b : Fin 16) (v : Bow) : (setBow s b v).fabGlobal = s.fabGlobal := rfl
@[simp] theorem setBow_fabLive (s : State) (b : Fin 16) (v : Bow) : (setBow s b v).fabLive = s.fabLive := rfl
@[simp] theorem setBow_snap (s : State) (b : Fin 16) (v : Bow) : (setBow s b v).snap = s.snap := rfl
@[simp] theorem setBow_fab (s : State) (b : Fin 16) (v : Bow) : (setBow s b v).fab = s.fab := rfl
@[simp] theorem setBow_store (s : State) (b : Fin 16) (v : Bow) : (setBow s b v).store = s.store := rfl
@[simp] theorem setBow_shadow (s : State) (b : Fin 16) (v : Bow) : (setBow s b v).shadow = s.shadow := rfl
@[simp] theorem setBow_storeErr (s : State) (b : Fin 16) (v : Bow) : (setBow s b v).storeErr = s.storeErr := rfl
@[simp] theorem setBow_lease (s : State) (b : Fin 16) (v : Bow) : (setBow s b v).lease = s.lease := rfl
@[simp] theorem setBow_scrubRow (s : State) (b : Fin 16) (v : Bow) : (setBow s b v).scrubRow = s.scrubRow := rfl
@[simp] theorem setBow_scrubLeft (s : State) (b : Fin 16) (v : Bow) : (setBow s b v).scrubLeft = s.scrubLeft := rfl
@[simp] theorem setBow_wipeEnd (s : State) (b : Fin 16) (v : Bow) : (setBow s b v).wipeEnd = s.wipeEnd := rfl
@[simp] theorem setBow_clearEnd (s : State) (b : Fin 16) (v : Bow) : (setBow s b v).clearEnd = s.clearEnd := rfl
@[simp] theorem setBow_dresult (s : State) (b : Fin 16) (v : Bow) : (setBow s b v).dresult = s.dresult := rfl
@[simp] theorem setBow_reconfig (s : State) (b : Fin 16) (v : Bow) : (setBow s b v).reconfig = s.reconfig := rfl
@[simp] theorem setBow_idMove (s : State) (b : Fin 16) (v : Bow) : (setBow s b v).idMove = s.idMove := rfl
@[simp] theorem setBow_host (s : State) (b : Fin 16) (v : Bow) : (setBow s b v).host = s.host := rfl
@[simp] theorem setBow_msix (s : State) (b : Fin 16) (v : Bow) : (setBow s b v).msix = s.msix := rfl
@[simp] theorem setBow_msixPend (s : State) (b : Fin 16) (v : Bow) : (setBow s b v).msixPend = s.msixPend := rfl
@[simp] theorem setBow_sq (s : State) (b : Fin 16) (v : Bow) : (setBow s b v).sq = s.sq := rfl
@[simp] theorem setBow_cq (s : State) (b : Fin 16) (v : Bow) : (setBow s b v).cq = s.cq := rfl
@[simp] theorem setBow_st (s : State) (b : Fin 16) (v : Bow) : (setBow s b v).st = s.st := rfl
@[simp] theorem setBow_accepted (s : State) (b : Fin 16) (v : Bow) : (setBow s b v).accepted = s.accepted := rfl
@[simp] theorem setBow_abortWaits (s : State) (b : Fin 16) (v : Bow) : (setBow s b v).abortWaits = s.abortWaits := rfl
@[simp] theorem setBow_movers (s : State) (b : Fin 16) (v : Bow) : (setBow s b v).movers = s.movers := rfl
@[simp] theorem setBow_ackWaits (s : State) (b : Fin 16) (v : Bow) : (setBow s b v).ackWaits = s.ackWaits := rfl
@[simp] theorem setBow_before (s : State) (b : Fin 16) (v : Bow) : (setBow s b v).before = s.before := rfl
@[simp] theorem setBow_guard (s : State) (b : Fin 16) (v : Bow) : (setBow s b v).guard = s.guard := rfl
@[simp] theorem setBow_refs (s : State) (b : Fin 16) (v : Bow) : (setBow s b v).refs = s.refs := rfl
@[simp] theorem setBow_sched (s : State) (b : Fin 16) (v : Bow) : (setBow s b v).sched = s.sched := rfl
@[simp] theorem setBow_nextArm (s : State) (b : Fin 16) (v : Bow) : (setBow s b v).nextArm = s.nextArm := rfl
@[simp] theorem setBow_timers (s : State) (b : Fin 16) (v : Bow) : (setBow s b v).timers = s.timers := rfl
@[simp] theorem setBow_ev (s : State) (b : Fin 16) (v : Bow) : (setBow s b v).ev = s.ev := rfl
@[simp] theorem setBow_pulse (s : State) (b : Fin 16) (v : Bow) : (setBow s b v).pulse = s.pulse := rfl
@[simp] theorem setBow_etio (s : State) (b : Fin 16) (v : Bow) : (setBow s b v).etio = s.etio := rfl
@[simp] theorem setBow_etioLive (s : State) (b : Fin 16) (v : Bow) : (setBow s b v).etioLive = s.etioLive := rfl
@[simp] theorem setBow_frac (s : State) (b : Fin 16) (v : Bow) : (setBow s b v).frac = s.frac := rfl
@[simp] theorem setBow_ppsRun (s : State) (b : Fin 16) (v : Bow) : (setBow s b v).ppsRun = s.ppsRun := rfl
@[simp] theorem setBow_ppsSeen (s : State) (b : Fin 16) (v : Bow) : (setBow s b v).ppsSeen = s.ppsSeen := rfl
@[simp] theorem setBow_faults (s : State) (b : Fin 16) (v : Bow) : (setBow s b v).faults = s.faults := rfl
@[simp] theorem setBow_bootFailed (s : State) (b : Fin 16) (v : Bow) : (setBow s b v).bootFailed = s.bootFailed := rfl
@[simp] theorem setBow_pins (s : State) (b : Fin 16) (v : Bow) : (setBow s b v).pins = s.pins := rfl
@[simp] theorem setBow_adminQ (s : State) (b : Fin 16) (v : Bow) : (setBow s b v).adminQ = s.adminQ := rfl
@[simp] theorem setBow_refused (s : State) (b : Fin 16) (v : Bow) : (setBow s b v).refused = s.refused := rfl
@[simp] theorem setBow_startup (s : State) (b : Fin 16) (v : Bow) : (setBow s b v).startup = s.startup := rfl
@[simp] theorem setBow_keysGone (s : State) (b : Fin 16) (v : Bow) : (setBow s b v).keysGone = s.keysGone := rfl
@[simp] theorem setBow_ownerCk (s : State) (b : Fin 16) (v : Bow) : (setBow s b v).ownerCk = s.ownerCk := rfl
@[simp] theorem setBow_ownerKey (s : State) (b : Fin 16) (v : Bow) : (setBow s b v).ownerKey = s.ownerKey := rfl
@[simp] theorem setBow_lcChanged (s : State) (b : Fin 16) (v : Bow) : (setBow s b v).lcChanged = s.lcChanged := rfl
@[simp] theorem setBow_vault (s : State) (b : Fin 16) (v : Bow) : (setBow s b v).vault = s.vault := rfl
@[simp] theorem setBow_firmware (s : State) (b : Fin 16) (v : Bow) : (setBow s b v).firmware = s.firmware := rfl
@[simp] theorem setBow_caldata (s : State) (b : Fin 16) (v : Bow) : (setBow s b v).caldata = s.caldata := rfl
@[simp] theorem setBow_forced (s : State) (b : Fin 16) (v : Bow) : (setBow s b v).forced = s.forced := rfl
@[simp] theorem setBow_fullBoot (s : State) (b : Fin 16) (v : Bow) : (setBow s b v).fullBoot = s.fullBoot := rfl
@[simp] theorem setBow_lifecycle (s : State) (b : Fin 16) (v : Bow) : (setBow s b v).lifecycle = s.lifecycle := rfl
@[simp] theorem setBow_keepLink (s : State) (b : Fin 16) (v : Bow) : (setBow s b v).keepLink = s.keepLink := rfl
@[simp] theorem setBow_policy (s : State) (b : Fin 16) (v : Bow) : (setBow s b v).policy = s.policy := rfl
@[simp] theorem setBow_passes (s : State) (b : Fin 16) (v : Bow) : (setBow s b v).passes = s.passes := rfl
@[simp] theorem setBow_tested (s : State) (b : Fin 16) (v : Bow) : (setBow s b v).tested = s.tested := rfl
@[simp] theorem setBow_highMs (s : State) (b : Fin 16) (v : Bow) : (setBow s b v).highMs = s.highMs := rfl
@[simp] theorem setBow_gaps (s : State) (b : Fin 16) (v : Bow) : (setBow s b v).gaps = s.gaps := rfl
@[simp] theorem setBow_margins (s : State) (b : Fin 16) (v : Bow) : (setBow s b v).margins = s.margins := rfl
@[simp] theorem setBow_brown (s : State) (b : Fin 16) (v : Bow) : (setBow s b v).brown = s.brown := rfl
@[simp] theorem setBow_adjacent (s : State) (b : Fin 16) (v : Bow) : (setBow s b v).adjacent = s.adjacent := rfl
@[simp] theorem setBow_lows (s : State) (b : Fin 16) (v : Bow) : (setBow s b v).lows = s.lows := rfl
@[simp] theorem setBow_uncorr (s : State) (b : Fin 16) (v : Bow) : (setBow s b v).uncorr = s.uncorr := rfl
@[simp] theorem setBow_corr (s : State) (b : Fin 16) (v : Bow) : (setBow s b v).corr = s.corr := rfl
@[simp] theorem setBow_fwSwitch (s : State) (b : Fin 16) (v : Bow) : (setBow s b v).fwSwitch = s.fwSwitch := rfl
@[simp] theorem setBow_watchdog (s : State) (b : Fin 16) (v : Bow) : (setBow s b v).watchdog = s.watchdog := rfl
@[simp] theorem setBow_patchLoad (s : State) (b : Fin 16) (v : Bow) : (setBow s b v).patchLoad = s.patchLoad := rfl
@[simp] theorem setBow_nonce (s : State) (b : Fin 16) (v : Bow) : (setBow s b v).nonce = s.nonce := rfl
@[simp] theorem setBow_jtag (s : State) (b : Fin 16) (v : Bow) : (setBow s b v).jtag = s.jtag := rfl
@[simp] theorem setBow_bar4 (s : State) (b : Fin 16) (v : Bow) : (setBow s b v).bar4 = s.bar4 := rfl
@[simp] theorem setBow_bootPass (s : State) (b : Fin 16) (v : Bow) : (setBow s b v).bootPass = s.bootPass := rfl

/-! ### setCtx changes `bows` alone -/

@[simp] theorem setCtx_pending (s : State) (b : Fin 16) (c : Ctx) (v : Context) : (setCtx s b c v).pending = s.pending := rfl
@[simp] theorem setCtx_mode (s : State) (b : Fin 16) (c : Ctx) (v : Context) : (setCtx s b c v).mode = s.mode := rfl
@[simp] theorem setCtx_free (s : State) (b : Fin 16) (c : Ctx) (v : Context) : (setCtx s b c v).free = s.free := rfl
@[simp] theorem setCtx_regs (s : State) (b : Fin 16) (c : Ctx) (v : Context) : (setCtx s b c v).regs = s.regs := rfl
@[simp] theorem setCtx_epoch (s : State) (b : Fin 16) (c : Ctx) (v : Context) : (setCtx s b c v).epoch = s.epoch := rfl
@[simp] theorem setCtx_log (s : State) (b : Fin 16) (c : Ctx) (v : Context) : (setCtx s b c v).log = s.log := rfl
@[simp] theorem setCtx_logNext (s : State) (b : Fin 16) (c : Ctx) (v : Context) : (setCtx s b c v).logNext = s.logNext := rfl
@[simp] theorem setCtx_logDone (s : State) (b : Fin 16) (c : Ctx) (v : Context) : (setCtx s b c v).logDone = s.logDone := rfl
@[simp] theorem setCtx_folded (s : State) (b : Fin 16) (c : Ctx) (v : Context) : (setCtx s b c v).folded = s.folded := rfl
@[simp] theorem setCtx_pe (s : State) (b : Fin 16) (c : Ctx) (v : Context) : (setCtx s b c v).pe = s.pe := rfl
@[simp] theorem setCtx_peErr (s : State) (b : Fin 16) (c : Ctx) (v : Context) : (setCtx s b c v).peErr = s.peErr := rfl
@[simp] theorem setCtx_scrErr (s : State) (b : Fin 16) (c : Ctx) (v : Context) : (setCtx s b c v).scrErr = s.scrErr := rfl
@[simp] theorem setCtx_courses (s : State) (b : Fin 16) (c : Ctx) (v : Context) : (setCtx s b c v).courses = s.courses := rfl
@[simp] theorem setCtx_pcourse (s : State) (b : Fin 16) (c : Ctx) (v : Context) : (setCtx s b c v).pcourse = s.pcourse := rfl
@[simp] theorem setCtx_lmap (s : State) (b : Fin 16) (c : Ctx) (v : Context) : (setCtx s b c v).lmap = s.lmap := rfl
@[simp] theorem setCtx_migration (s : State) (b : Fin 16) (c : Ctx) (v : Context) : (setCtx s b c v).migration = s.migration := rfl
@[simp] theorem setCtx_flight (s : State) (b : Fin 16) (c : Ctx) (v : Context) : (setCtx s b c v).flight = s.flight := rfl
@[simp] theorem setCtx_heldBack (s : State) (b : Fin 16) (c : Ctx) (v : Context) : (setCtx s b c v).heldBack = s.heldBack := rfl
@[simp] theorem setCtx_torus (s : State) (b : Fin 16) (c : Ctx) (v : Context) : (setCtx s b c v).torus = s.torus := rfl
@[simp] theorem setCtx_peers (s : State) (b : Fin 16) (c : Ctx) (v : Context) : (setCtx s b c v).peers = s.peers := rfl
@[simp] theorem setCtx_fp (s : State) (b : Fin 16) (c : Ctx) (v : Context) : (setCtx s b c v).fp = s.fp := rfl
@[simp] theorem setCtx_fabLoad (s : State) (b : Fin 16) (c : Ctx) (v : Context) : (setCtx s b c v).fabLoad = s.fabLoad := rfl
@[simp] theorem setCtx_fabGlobal (s : State) (b : Fin 16) (c : Ctx) (v : Context) : (setCtx s b c v).fabGlobal = s.fabGlobal := rfl
@[simp] theorem setCtx_fabLive (s : State) (b : Fin 16) (c : Ctx) (v : Context) : (setCtx s b c v).fabLive = s.fabLive := rfl
@[simp] theorem setCtx_snap (s : State) (b : Fin 16) (c : Ctx) (v : Context) : (setCtx s b c v).snap = s.snap := rfl
@[simp] theorem setCtx_fab (s : State) (b : Fin 16) (c : Ctx) (v : Context) : (setCtx s b c v).fab = s.fab := rfl
@[simp] theorem setCtx_store (s : State) (b : Fin 16) (c : Ctx) (v : Context) : (setCtx s b c v).store = s.store := rfl
@[simp] theorem setCtx_shadow (s : State) (b : Fin 16) (c : Ctx) (v : Context) : (setCtx s b c v).shadow = s.shadow := rfl
@[simp] theorem setCtx_storeErr (s : State) (b : Fin 16) (c : Ctx) (v : Context) : (setCtx s b c v).storeErr = s.storeErr := rfl
@[simp] theorem setCtx_lease (s : State) (b : Fin 16) (c : Ctx) (v : Context) : (setCtx s b c v).lease = s.lease := rfl
@[simp] theorem setCtx_scrubRow (s : State) (b : Fin 16) (c : Ctx) (v : Context) : (setCtx s b c v).scrubRow = s.scrubRow := rfl
@[simp] theorem setCtx_scrubLeft (s : State) (b : Fin 16) (c : Ctx) (v : Context) : (setCtx s b c v).scrubLeft = s.scrubLeft := rfl
@[simp] theorem setCtx_wipeEnd (s : State) (b : Fin 16) (c : Ctx) (v : Context) : (setCtx s b c v).wipeEnd = s.wipeEnd := rfl
@[simp] theorem setCtx_clearEnd (s : State) (b : Fin 16) (c : Ctx) (v : Context) : (setCtx s b c v).clearEnd = s.clearEnd := rfl
@[simp] theorem setCtx_dresult (s : State) (b : Fin 16) (c : Ctx) (v : Context) : (setCtx s b c v).dresult = s.dresult := rfl
@[simp] theorem setCtx_reconfig (s : State) (b : Fin 16) (c : Ctx) (v : Context) : (setCtx s b c v).reconfig = s.reconfig := rfl
@[simp] theorem setCtx_idMove (s : State) (b : Fin 16) (c : Ctx) (v : Context) : (setCtx s b c v).idMove = s.idMove := rfl
@[simp] theorem setCtx_host (s : State) (b : Fin 16) (c : Ctx) (v : Context) : (setCtx s b c v).host = s.host := rfl
@[simp] theorem setCtx_msix (s : State) (b : Fin 16) (c : Ctx) (v : Context) : (setCtx s b c v).msix = s.msix := rfl
@[simp] theorem setCtx_msixPend (s : State) (b : Fin 16) (c : Ctx) (v : Context) : (setCtx s b c v).msixPend = s.msixPend := rfl
@[simp] theorem setCtx_sq (s : State) (b : Fin 16) (c : Ctx) (v : Context) : (setCtx s b c v).sq = s.sq := rfl
@[simp] theorem setCtx_cq (s : State) (b : Fin 16) (c : Ctx) (v : Context) : (setCtx s b c v).cq = s.cq := rfl
@[simp] theorem setCtx_st (s : State) (b : Fin 16) (c : Ctx) (v : Context) : (setCtx s b c v).st = s.st := rfl
@[simp] theorem setCtx_accepted (s : State) (b : Fin 16) (c : Ctx) (v : Context) : (setCtx s b c v).accepted = s.accepted := rfl
@[simp] theorem setCtx_abortWaits (s : State) (b : Fin 16) (c : Ctx) (v : Context) : (setCtx s b c v).abortWaits = s.abortWaits := rfl
@[simp] theorem setCtx_movers (s : State) (b : Fin 16) (c : Ctx) (v : Context) : (setCtx s b c v).movers = s.movers := rfl
@[simp] theorem setCtx_ackWaits (s : State) (b : Fin 16) (c : Ctx) (v : Context) : (setCtx s b c v).ackWaits = s.ackWaits := rfl
@[simp] theorem setCtx_before (s : State) (b : Fin 16) (c : Ctx) (v : Context) : (setCtx s b c v).before = s.before := rfl
@[simp] theorem setCtx_guard (s : State) (b : Fin 16) (c : Ctx) (v : Context) : (setCtx s b c v).guard = s.guard := rfl
@[simp] theorem setCtx_refs (s : State) (b : Fin 16) (c : Ctx) (v : Context) : (setCtx s b c v).refs = s.refs := rfl
@[simp] theorem setCtx_sched (s : State) (b : Fin 16) (c : Ctx) (v : Context) : (setCtx s b c v).sched = s.sched := rfl
@[simp] theorem setCtx_nextArm (s : State) (b : Fin 16) (c : Ctx) (v : Context) : (setCtx s b c v).nextArm = s.nextArm := rfl
@[simp] theorem setCtx_timers (s : State) (b : Fin 16) (c : Ctx) (v : Context) : (setCtx s b c v).timers = s.timers := rfl
@[simp] theorem setCtx_ev (s : State) (b : Fin 16) (c : Ctx) (v : Context) : (setCtx s b c v).ev = s.ev := rfl
@[simp] theorem setCtx_pulse (s : State) (b : Fin 16) (c : Ctx) (v : Context) : (setCtx s b c v).pulse = s.pulse := rfl
@[simp] theorem setCtx_etio (s : State) (b : Fin 16) (c : Ctx) (v : Context) : (setCtx s b c v).etio = s.etio := rfl
@[simp] theorem setCtx_etioLive (s : State) (b : Fin 16) (c : Ctx) (v : Context) : (setCtx s b c v).etioLive = s.etioLive := rfl
@[simp] theorem setCtx_frac (s : State) (b : Fin 16) (c : Ctx) (v : Context) : (setCtx s b c v).frac = s.frac := rfl
@[simp] theorem setCtx_ppsRun (s : State) (b : Fin 16) (c : Ctx) (v : Context) : (setCtx s b c v).ppsRun = s.ppsRun := rfl
@[simp] theorem setCtx_ppsSeen (s : State) (b : Fin 16) (c : Ctx) (v : Context) : (setCtx s b c v).ppsSeen = s.ppsSeen := rfl
@[simp] theorem setCtx_faults (s : State) (b : Fin 16) (c : Ctx) (v : Context) : (setCtx s b c v).faults = s.faults := rfl
@[simp] theorem setCtx_bootFailed (s : State) (b : Fin 16) (c : Ctx) (v : Context) : (setCtx s b c v).bootFailed = s.bootFailed := rfl
@[simp] theorem setCtx_pins (s : State) (b : Fin 16) (c : Ctx) (v : Context) : (setCtx s b c v).pins = s.pins := rfl
@[simp] theorem setCtx_adminQ (s : State) (b : Fin 16) (c : Ctx) (v : Context) : (setCtx s b c v).adminQ = s.adminQ := rfl
@[simp] theorem setCtx_refused (s : State) (b : Fin 16) (c : Ctx) (v : Context) : (setCtx s b c v).refused = s.refused := rfl
@[simp] theorem setCtx_startup (s : State) (b : Fin 16) (c : Ctx) (v : Context) : (setCtx s b c v).startup = s.startup := rfl
@[simp] theorem setCtx_keysGone (s : State) (b : Fin 16) (c : Ctx) (v : Context) : (setCtx s b c v).keysGone = s.keysGone := rfl
@[simp] theorem setCtx_ownerCk (s : State) (b : Fin 16) (c : Ctx) (v : Context) : (setCtx s b c v).ownerCk = s.ownerCk := rfl
@[simp] theorem setCtx_ownerKey (s : State) (b : Fin 16) (c : Ctx) (v : Context) : (setCtx s b c v).ownerKey = s.ownerKey := rfl
@[simp] theorem setCtx_lcChanged (s : State) (b : Fin 16) (c : Ctx) (v : Context) : (setCtx s b c v).lcChanged = s.lcChanged := rfl
@[simp] theorem setCtx_vault (s : State) (b : Fin 16) (c : Ctx) (v : Context) : (setCtx s b c v).vault = s.vault := rfl
@[simp] theorem setCtx_firmware (s : State) (b : Fin 16) (c : Ctx) (v : Context) : (setCtx s b c v).firmware = s.firmware := rfl
@[simp] theorem setCtx_caldata (s : State) (b : Fin 16) (c : Ctx) (v : Context) : (setCtx s b c v).caldata = s.caldata := rfl
@[simp] theorem setCtx_forced (s : State) (b : Fin 16) (c : Ctx) (v : Context) : (setCtx s b c v).forced = s.forced := rfl
@[simp] theorem setCtx_fullBoot (s : State) (b : Fin 16) (c : Ctx) (v : Context) : (setCtx s b c v).fullBoot = s.fullBoot := rfl
@[simp] theorem setCtx_lifecycle (s : State) (b : Fin 16) (c : Ctx) (v : Context) : (setCtx s b c v).lifecycle = s.lifecycle := rfl
@[simp] theorem setCtx_keepLink (s : State) (b : Fin 16) (c : Ctx) (v : Context) : (setCtx s b c v).keepLink = s.keepLink := rfl
@[simp] theorem setCtx_policy (s : State) (b : Fin 16) (c : Ctx) (v : Context) : (setCtx s b c v).policy = s.policy := rfl
@[simp] theorem setCtx_passes (s : State) (b : Fin 16) (c : Ctx) (v : Context) : (setCtx s b c v).passes = s.passes := rfl
@[simp] theorem setCtx_tested (s : State) (b : Fin 16) (c : Ctx) (v : Context) : (setCtx s b c v).tested = s.tested := rfl
@[simp] theorem setCtx_highMs (s : State) (b : Fin 16) (c : Ctx) (v : Context) : (setCtx s b c v).highMs = s.highMs := rfl
@[simp] theorem setCtx_gaps (s : State) (b : Fin 16) (c : Ctx) (v : Context) : (setCtx s b c v).gaps = s.gaps := rfl
@[simp] theorem setCtx_margins (s : State) (b : Fin 16) (c : Ctx) (v : Context) : (setCtx s b c v).margins = s.margins := rfl
@[simp] theorem setCtx_brown (s : State) (b : Fin 16) (c : Ctx) (v : Context) : (setCtx s b c v).brown = s.brown := rfl
@[simp] theorem setCtx_adjacent (s : State) (b : Fin 16) (c : Ctx) (v : Context) : (setCtx s b c v).adjacent = s.adjacent := rfl
@[simp] theorem setCtx_lows (s : State) (b : Fin 16) (c : Ctx) (v : Context) : (setCtx s b c v).lows = s.lows := rfl
@[simp] theorem setCtx_uncorr (s : State) (b : Fin 16) (c : Ctx) (v : Context) : (setCtx s b c v).uncorr = s.uncorr := rfl
@[simp] theorem setCtx_corr (s : State) (b : Fin 16) (c : Ctx) (v : Context) : (setCtx s b c v).corr = s.corr := rfl
@[simp] theorem setCtx_fwSwitch (s : State) (b : Fin 16) (c : Ctx) (v : Context) : (setCtx s b c v).fwSwitch = s.fwSwitch := rfl
@[simp] theorem setCtx_watchdog (s : State) (b : Fin 16) (c : Ctx) (v : Context) : (setCtx s b c v).watchdog = s.watchdog := rfl
@[simp] theorem setCtx_patchLoad (s : State) (b : Fin 16) (c : Ctx) (v : Context) : (setCtx s b c v).patchLoad = s.patchLoad := rfl
@[simp] theorem setCtx_nonce (s : State) (b : Fin 16) (c : Ctx) (v : Context) : (setCtx s b c v).nonce = s.nonce := rfl
@[simp] theorem setCtx_jtag (s : State) (b : Fin 16) (c : Ctx) (v : Context) : (setCtx s b c v).jtag = s.jtag := rfl
@[simp] theorem setCtx_bar4 (s : State) (b : Fin 16) (c : Ctx) (v : Context) : (setCtx s b c v).bar4 = s.bar4 := rfl
@[simp] theorem setCtx_bootPass (s : State) (b : Fin 16) (c : Ctx) (v : Context) : (setCtx s b c v).bootPass = s.bootPass := rfl

/-! ### setCourse changes `courses` alone -/

@[simp] theorem setCourse_pending (s : State) (c : Fin 64) (v : CourseSt) : (setCourse s c v).pending = s.pending := rfl
@[simp] theorem setCourse_mode (s : State) (c : Fin 64) (v : CourseSt) : (setCourse s c v).mode = s.mode := rfl
@[simp] theorem setCourse_free (s : State) (c : Fin 64) (v : CourseSt) : (setCourse s c v).free = s.free := rfl
@[simp] theorem setCourse_regs (s : State) (c : Fin 64) (v : CourseSt) : (setCourse s c v).regs = s.regs := rfl
@[simp] theorem setCourse_epoch (s : State) (c : Fin 64) (v : CourseSt) : (setCourse s c v).epoch = s.epoch := rfl
@[simp] theorem setCourse_log (s : State) (c : Fin 64) (v : CourseSt) : (setCourse s c v).log = s.log := rfl
@[simp] theorem setCourse_logNext (s : State) (c : Fin 64) (v : CourseSt) : (setCourse s c v).logNext = s.logNext := rfl
@[simp] theorem setCourse_logDone (s : State) (c : Fin 64) (v : CourseSt) : (setCourse s c v).logDone = s.logDone := rfl
@[simp] theorem setCourse_folded (s : State) (c : Fin 64) (v : CourseSt) : (setCourse s c v).folded = s.folded := rfl
@[simp] theorem setCourse_bows (s : State) (c : Fin 64) (v : CourseSt) : (setCourse s c v).bows = s.bows := rfl
@[simp] theorem setCourse_pe (s : State) (c : Fin 64) (v : CourseSt) : (setCourse s c v).pe = s.pe := rfl
@[simp] theorem setCourse_peErr (s : State) (c : Fin 64) (v : CourseSt) : (setCourse s c v).peErr = s.peErr := rfl
@[simp] theorem setCourse_scrErr (s : State) (c : Fin 64) (v : CourseSt) : (setCourse s c v).scrErr = s.scrErr := rfl
@[simp] theorem setCourse_pcourse (s : State) (c : Fin 64) (v : CourseSt) : (setCourse s c v).pcourse = s.pcourse := rfl
@[simp] theorem setCourse_lmap (s : State) (c : Fin 64) (v : CourseSt) : (setCourse s c v).lmap = s.lmap := rfl
@[simp] theorem setCourse_migration (s : State) (c : Fin 64) (v : CourseSt) : (setCourse s c v).migration = s.migration := rfl
@[simp] theorem setCourse_flight (s : State) (c : Fin 64) (v : CourseSt) : (setCourse s c v).flight = s.flight := rfl
@[simp] theorem setCourse_heldBack (s : State) (c : Fin 64) (v : CourseSt) : (setCourse s c v).heldBack = s.heldBack := rfl
@[simp] theorem setCourse_torus (s : State) (c : Fin 64) (v : CourseSt) : (setCourse s c v).torus = s.torus := rfl
@[simp] theorem setCourse_peers (s : State) (c : Fin 64) (v : CourseSt) : (setCourse s c v).peers = s.peers := rfl
@[simp] theorem setCourse_fp (s : State) (c : Fin 64) (v : CourseSt) : (setCourse s c v).fp = s.fp := rfl
@[simp] theorem setCourse_fabLoad (s : State) (c : Fin 64) (v : CourseSt) : (setCourse s c v).fabLoad = s.fabLoad := rfl
@[simp] theorem setCourse_fabGlobal (s : State) (c : Fin 64) (v : CourseSt) : (setCourse s c v).fabGlobal = s.fabGlobal := rfl
@[simp] theorem setCourse_fabLive (s : State) (c : Fin 64) (v : CourseSt) : (setCourse s c v).fabLive = s.fabLive := rfl
@[simp] theorem setCourse_snap (s : State) (c : Fin 64) (v : CourseSt) : (setCourse s c v).snap = s.snap := rfl
@[simp] theorem setCourse_fab (s : State) (c : Fin 64) (v : CourseSt) : (setCourse s c v).fab = s.fab := rfl
@[simp] theorem setCourse_store (s : State) (c : Fin 64) (v : CourseSt) : (setCourse s c v).store = s.store := rfl
@[simp] theorem setCourse_shadow (s : State) (c : Fin 64) (v : CourseSt) : (setCourse s c v).shadow = s.shadow := rfl
@[simp] theorem setCourse_storeErr (s : State) (c : Fin 64) (v : CourseSt) : (setCourse s c v).storeErr = s.storeErr := rfl
@[simp] theorem setCourse_lease (s : State) (c : Fin 64) (v : CourseSt) : (setCourse s c v).lease = s.lease := rfl
@[simp] theorem setCourse_scrubRow (s : State) (c : Fin 64) (v : CourseSt) : (setCourse s c v).scrubRow = s.scrubRow := rfl
@[simp] theorem setCourse_scrubLeft (s : State) (c : Fin 64) (v : CourseSt) : (setCourse s c v).scrubLeft = s.scrubLeft := rfl
@[simp] theorem setCourse_wipeEnd (s : State) (c : Fin 64) (v : CourseSt) : (setCourse s c v).wipeEnd = s.wipeEnd := rfl
@[simp] theorem setCourse_clearEnd (s : State) (c : Fin 64) (v : CourseSt) : (setCourse s c v).clearEnd = s.clearEnd := rfl
@[simp] theorem setCourse_dresult (s : State) (c : Fin 64) (v : CourseSt) : (setCourse s c v).dresult = s.dresult := rfl
@[simp] theorem setCourse_reconfig (s : State) (c : Fin 64) (v : CourseSt) : (setCourse s c v).reconfig = s.reconfig := rfl
@[simp] theorem setCourse_idMove (s : State) (c : Fin 64) (v : CourseSt) : (setCourse s c v).idMove = s.idMove := rfl
@[simp] theorem setCourse_host (s : State) (c : Fin 64) (v : CourseSt) : (setCourse s c v).host = s.host := rfl
@[simp] theorem setCourse_msix (s : State) (c : Fin 64) (v : CourseSt) : (setCourse s c v).msix = s.msix := rfl
@[simp] theorem setCourse_msixPend (s : State) (c : Fin 64) (v : CourseSt) : (setCourse s c v).msixPend = s.msixPend := rfl
@[simp] theorem setCourse_sq (s : State) (c : Fin 64) (v : CourseSt) : (setCourse s c v).sq = s.sq := rfl
@[simp] theorem setCourse_cq (s : State) (c : Fin 64) (v : CourseSt) : (setCourse s c v).cq = s.cq := rfl
@[simp] theorem setCourse_st (s : State) (c : Fin 64) (v : CourseSt) : (setCourse s c v).st = s.st := rfl
@[simp] theorem setCourse_accepted (s : State) (c : Fin 64) (v : CourseSt) : (setCourse s c v).accepted = s.accepted := rfl
@[simp] theorem setCourse_abortWaits (s : State) (c : Fin 64) (v : CourseSt) : (setCourse s c v).abortWaits = s.abortWaits := rfl
@[simp] theorem setCourse_movers (s : State) (c : Fin 64) (v : CourseSt) : (setCourse s c v).movers = s.movers := rfl
@[simp] theorem setCourse_ackWaits (s : State) (c : Fin 64) (v : CourseSt) : (setCourse s c v).ackWaits = s.ackWaits := rfl
@[simp] theorem setCourse_before (s : State) (c : Fin 64) (v : CourseSt) : (setCourse s c v).before = s.before := rfl
@[simp] theorem setCourse_guard (s : State) (c : Fin 64) (v : CourseSt) : (setCourse s c v).guard = s.guard := rfl
@[simp] theorem setCourse_refs (s : State) (c : Fin 64) (v : CourseSt) : (setCourse s c v).refs = s.refs := rfl
@[simp] theorem setCourse_sched (s : State) (c : Fin 64) (v : CourseSt) : (setCourse s c v).sched = s.sched := rfl
@[simp] theorem setCourse_nextArm (s : State) (c : Fin 64) (v : CourseSt) : (setCourse s c v).nextArm = s.nextArm := rfl
@[simp] theorem setCourse_timers (s : State) (c : Fin 64) (v : CourseSt) : (setCourse s c v).timers = s.timers := rfl
@[simp] theorem setCourse_ev (s : State) (c : Fin 64) (v : CourseSt) : (setCourse s c v).ev = s.ev := rfl
@[simp] theorem setCourse_pulse (s : State) (c : Fin 64) (v : CourseSt) : (setCourse s c v).pulse = s.pulse := rfl
@[simp] theorem setCourse_etio (s : State) (c : Fin 64) (v : CourseSt) : (setCourse s c v).etio = s.etio := rfl
@[simp] theorem setCourse_etioLive (s : State) (c : Fin 64) (v : CourseSt) : (setCourse s c v).etioLive = s.etioLive := rfl
@[simp] theorem setCourse_frac (s : State) (c : Fin 64) (v : CourseSt) : (setCourse s c v).frac = s.frac := rfl
@[simp] theorem setCourse_ppsRun (s : State) (c : Fin 64) (v : CourseSt) : (setCourse s c v).ppsRun = s.ppsRun := rfl
@[simp] theorem setCourse_ppsSeen (s : State) (c : Fin 64) (v : CourseSt) : (setCourse s c v).ppsSeen = s.ppsSeen := rfl
@[simp] theorem setCourse_faults (s : State) (c : Fin 64) (v : CourseSt) : (setCourse s c v).faults = s.faults := rfl
@[simp] theorem setCourse_bootFailed (s : State) (c : Fin 64) (v : CourseSt) : (setCourse s c v).bootFailed = s.bootFailed := rfl
@[simp] theorem setCourse_pins (s : State) (c : Fin 64) (v : CourseSt) : (setCourse s c v).pins = s.pins := rfl
@[simp] theorem setCourse_adminQ (s : State) (c : Fin 64) (v : CourseSt) : (setCourse s c v).adminQ = s.adminQ := rfl
@[simp] theorem setCourse_refused (s : State) (c : Fin 64) (v : CourseSt) : (setCourse s c v).refused = s.refused := rfl
@[simp] theorem setCourse_startup (s : State) (c : Fin 64) (v : CourseSt) : (setCourse s c v).startup = s.startup := rfl
@[simp] theorem setCourse_keysGone (s : State) (c : Fin 64) (v : CourseSt) : (setCourse s c v).keysGone = s.keysGone := rfl
@[simp] theorem setCourse_ownerCk (s : State) (c : Fin 64) (v : CourseSt) : (setCourse s c v).ownerCk = s.ownerCk := rfl
@[simp] theorem setCourse_ownerKey (s : State) (c : Fin 64) (v : CourseSt) : (setCourse s c v).ownerKey = s.ownerKey := rfl
@[simp] theorem setCourse_lcChanged (s : State) (c : Fin 64) (v : CourseSt) : (setCourse s c v).lcChanged = s.lcChanged := rfl
@[simp] theorem setCourse_vault (s : State) (c : Fin 64) (v : CourseSt) : (setCourse s c v).vault = s.vault := rfl
@[simp] theorem setCourse_firmware (s : State) (c : Fin 64) (v : CourseSt) : (setCourse s c v).firmware = s.firmware := rfl
@[simp] theorem setCourse_caldata (s : State) (c : Fin 64) (v : CourseSt) : (setCourse s c v).caldata = s.caldata := rfl
@[simp] theorem setCourse_forced (s : State) (c : Fin 64) (v : CourseSt) : (setCourse s c v).forced = s.forced := rfl
@[simp] theorem setCourse_fullBoot (s : State) (c : Fin 64) (v : CourseSt) : (setCourse s c v).fullBoot = s.fullBoot := rfl
@[simp] theorem setCourse_lifecycle (s : State) (c : Fin 64) (v : CourseSt) : (setCourse s c v).lifecycle = s.lifecycle := rfl
@[simp] theorem setCourse_keepLink (s : State) (c : Fin 64) (v : CourseSt) : (setCourse s c v).keepLink = s.keepLink := rfl
@[simp] theorem setCourse_policy (s : State) (c : Fin 64) (v : CourseSt) : (setCourse s c v).policy = s.policy := rfl
@[simp] theorem setCourse_passes (s : State) (c : Fin 64) (v : CourseSt) : (setCourse s c v).passes = s.passes := rfl
@[simp] theorem setCourse_tested (s : State) (c : Fin 64) (v : CourseSt) : (setCourse s c v).tested = s.tested := rfl
@[simp] theorem setCourse_highMs (s : State) (c : Fin 64) (v : CourseSt) : (setCourse s c v).highMs = s.highMs := rfl
@[simp] theorem setCourse_gaps (s : State) (c : Fin 64) (v : CourseSt) : (setCourse s c v).gaps = s.gaps := rfl
@[simp] theorem setCourse_margins (s : State) (c : Fin 64) (v : CourseSt) : (setCourse s c v).margins = s.margins := rfl
@[simp] theorem setCourse_brown (s : State) (c : Fin 64) (v : CourseSt) : (setCourse s c v).brown = s.brown := rfl
@[simp] theorem setCourse_adjacent (s : State) (c : Fin 64) (v : CourseSt) : (setCourse s c v).adjacent = s.adjacent := rfl
@[simp] theorem setCourse_lows (s : State) (c : Fin 64) (v : CourseSt) : (setCourse s c v).lows = s.lows := rfl
@[simp] theorem setCourse_uncorr (s : State) (c : Fin 64) (v : CourseSt) : (setCourse s c v).uncorr = s.uncorr := rfl
@[simp] theorem setCourse_corr (s : State) (c : Fin 64) (v : CourseSt) : (setCourse s c v).corr = s.corr := rfl
@[simp] theorem setCourse_fwSwitch (s : State) (c : Fin 64) (v : CourseSt) : (setCourse s c v).fwSwitch = s.fwSwitch := rfl
@[simp] theorem setCourse_watchdog (s : State) (c : Fin 64) (v : CourseSt) : (setCourse s c v).watchdog = s.watchdog := rfl
@[simp] theorem setCourse_patchLoad (s : State) (c : Fin 64) (v : CourseSt) : (setCourse s c v).patchLoad = s.patchLoad := rfl
@[simp] theorem setCourse_nonce (s : State) (c : Fin 64) (v : CourseSt) : (setCourse s c v).nonce = s.nonce := rfl
@[simp] theorem setCourse_jtag (s : State) (c : Fin 64) (v : CourseSt) : (setCourse s c v).jtag = s.jtag := rfl
@[simp] theorem setCourse_bar4 (s : State) (c : Fin 64) (v : CourseSt) : (setCourse s c v).bar4 = s.bar4 := rfl
@[simp] theorem setCourse_bootPass (s : State) (c : Fin 64) (v : CourseSt) : (setCourse s c v).bootPass = s.bootPass := rfl

/-! ### setChan changes `courses` alone -/

@[simp] theorem setChan_pending (s : State) (c : Fin 64) (n : Fin 4) (v : Chan) : (setChan s c n v).pending = s.pending := rfl
@[simp] theorem setChan_mode (s : State) (c : Fin 64) (n : Fin 4) (v : Chan) : (setChan s c n v).mode = s.mode := rfl
@[simp] theorem setChan_free (s : State) (c : Fin 64) (n : Fin 4) (v : Chan) : (setChan s c n v).free = s.free := rfl
@[simp] theorem setChan_regs (s : State) (c : Fin 64) (n : Fin 4) (v : Chan) : (setChan s c n v).regs = s.regs := rfl
@[simp] theorem setChan_epoch (s : State) (c : Fin 64) (n : Fin 4) (v : Chan) : (setChan s c n v).epoch = s.epoch := rfl
@[simp] theorem setChan_log (s : State) (c : Fin 64) (n : Fin 4) (v : Chan) : (setChan s c n v).log = s.log := rfl
@[simp] theorem setChan_logNext (s : State) (c : Fin 64) (n : Fin 4) (v : Chan) : (setChan s c n v).logNext = s.logNext := rfl
@[simp] theorem setChan_logDone (s : State) (c : Fin 64) (n : Fin 4) (v : Chan) : (setChan s c n v).logDone = s.logDone := rfl
@[simp] theorem setChan_folded (s : State) (c : Fin 64) (n : Fin 4) (v : Chan) : (setChan s c n v).folded = s.folded := rfl
@[simp] theorem setChan_bows (s : State) (c : Fin 64) (n : Fin 4) (v : Chan) : (setChan s c n v).bows = s.bows := rfl
@[simp] theorem setChan_pe (s : State) (c : Fin 64) (n : Fin 4) (v : Chan) : (setChan s c n v).pe = s.pe := rfl
@[simp] theorem setChan_peErr (s : State) (c : Fin 64) (n : Fin 4) (v : Chan) : (setChan s c n v).peErr = s.peErr := rfl
@[simp] theorem setChan_scrErr (s : State) (c : Fin 64) (n : Fin 4) (v : Chan) : (setChan s c n v).scrErr = s.scrErr := rfl
@[simp] theorem setChan_pcourse (s : State) (c : Fin 64) (n : Fin 4) (v : Chan) : (setChan s c n v).pcourse = s.pcourse := rfl
@[simp] theorem setChan_lmap (s : State) (c : Fin 64) (n : Fin 4) (v : Chan) : (setChan s c n v).lmap = s.lmap := rfl
@[simp] theorem setChan_migration (s : State) (c : Fin 64) (n : Fin 4) (v : Chan) : (setChan s c n v).migration = s.migration := rfl
@[simp] theorem setChan_flight (s : State) (c : Fin 64) (n : Fin 4) (v : Chan) : (setChan s c n v).flight = s.flight := rfl
@[simp] theorem setChan_heldBack (s : State) (c : Fin 64) (n : Fin 4) (v : Chan) : (setChan s c n v).heldBack = s.heldBack := rfl
@[simp] theorem setChan_torus (s : State) (c : Fin 64) (n : Fin 4) (v : Chan) : (setChan s c n v).torus = s.torus := rfl
@[simp] theorem setChan_peers (s : State) (c : Fin 64) (n : Fin 4) (v : Chan) : (setChan s c n v).peers = s.peers := rfl
@[simp] theorem setChan_fp (s : State) (c : Fin 64) (n : Fin 4) (v : Chan) : (setChan s c n v).fp = s.fp := rfl
@[simp] theorem setChan_fabLoad (s : State) (c : Fin 64) (n : Fin 4) (v : Chan) : (setChan s c n v).fabLoad = s.fabLoad := rfl
@[simp] theorem setChan_fabGlobal (s : State) (c : Fin 64) (n : Fin 4) (v : Chan) : (setChan s c n v).fabGlobal = s.fabGlobal := rfl
@[simp] theorem setChan_fabLive (s : State) (c : Fin 64) (n : Fin 4) (v : Chan) : (setChan s c n v).fabLive = s.fabLive := rfl
@[simp] theorem setChan_snap (s : State) (c : Fin 64) (n : Fin 4) (v : Chan) : (setChan s c n v).snap = s.snap := rfl
@[simp] theorem setChan_fab (s : State) (c : Fin 64) (n : Fin 4) (v : Chan) : (setChan s c n v).fab = s.fab := rfl
@[simp] theorem setChan_store (s : State) (c : Fin 64) (n : Fin 4) (v : Chan) : (setChan s c n v).store = s.store := rfl
@[simp] theorem setChan_shadow (s : State) (c : Fin 64) (n : Fin 4) (v : Chan) : (setChan s c n v).shadow = s.shadow := rfl
@[simp] theorem setChan_storeErr (s : State) (c : Fin 64) (n : Fin 4) (v : Chan) : (setChan s c n v).storeErr = s.storeErr := rfl
@[simp] theorem setChan_lease (s : State) (c : Fin 64) (n : Fin 4) (v : Chan) : (setChan s c n v).lease = s.lease := rfl
@[simp] theorem setChan_scrubRow (s : State) (c : Fin 64) (n : Fin 4) (v : Chan) : (setChan s c n v).scrubRow = s.scrubRow := rfl
@[simp] theorem setChan_scrubLeft (s : State) (c : Fin 64) (n : Fin 4) (v : Chan) : (setChan s c n v).scrubLeft = s.scrubLeft := rfl
@[simp] theorem setChan_wipeEnd (s : State) (c : Fin 64) (n : Fin 4) (v : Chan) : (setChan s c n v).wipeEnd = s.wipeEnd := rfl
@[simp] theorem setChan_clearEnd (s : State) (c : Fin 64) (n : Fin 4) (v : Chan) : (setChan s c n v).clearEnd = s.clearEnd := rfl
@[simp] theorem setChan_dresult (s : State) (c : Fin 64) (n : Fin 4) (v : Chan) : (setChan s c n v).dresult = s.dresult := rfl
@[simp] theorem setChan_reconfig (s : State) (c : Fin 64) (n : Fin 4) (v : Chan) : (setChan s c n v).reconfig = s.reconfig := rfl
@[simp] theorem setChan_idMove (s : State) (c : Fin 64) (n : Fin 4) (v : Chan) : (setChan s c n v).idMove = s.idMove := rfl
@[simp] theorem setChan_host (s : State) (c : Fin 64) (n : Fin 4) (v : Chan) : (setChan s c n v).host = s.host := rfl
@[simp] theorem setChan_msix (s : State) (c : Fin 64) (n : Fin 4) (v : Chan) : (setChan s c n v).msix = s.msix := rfl
@[simp] theorem setChan_msixPend (s : State) (c : Fin 64) (n : Fin 4) (v : Chan) : (setChan s c n v).msixPend = s.msixPend := rfl
@[simp] theorem setChan_sq (s : State) (c : Fin 64) (n : Fin 4) (v : Chan) : (setChan s c n v).sq = s.sq := rfl
@[simp] theorem setChan_cq (s : State) (c : Fin 64) (n : Fin 4) (v : Chan) : (setChan s c n v).cq = s.cq := rfl
@[simp] theorem setChan_st (s : State) (c : Fin 64) (n : Fin 4) (v : Chan) : (setChan s c n v).st = s.st := rfl
@[simp] theorem setChan_accepted (s : State) (c : Fin 64) (n : Fin 4) (v : Chan) : (setChan s c n v).accepted = s.accepted := rfl
@[simp] theorem setChan_abortWaits (s : State) (c : Fin 64) (n : Fin 4) (v : Chan) : (setChan s c n v).abortWaits = s.abortWaits := rfl
@[simp] theorem setChan_movers (s : State) (c : Fin 64) (n : Fin 4) (v : Chan) : (setChan s c n v).movers = s.movers := rfl
@[simp] theorem setChan_ackWaits (s : State) (c : Fin 64) (n : Fin 4) (v : Chan) : (setChan s c n v).ackWaits = s.ackWaits := rfl
@[simp] theorem setChan_before (s : State) (c : Fin 64) (n : Fin 4) (v : Chan) : (setChan s c n v).before = s.before := rfl
@[simp] theorem setChan_guard (s : State) (c : Fin 64) (n : Fin 4) (v : Chan) : (setChan s c n v).guard = s.guard := rfl
@[simp] theorem setChan_refs (s : State) (c : Fin 64) (n : Fin 4) (v : Chan) : (setChan s c n v).refs = s.refs := rfl
@[simp] theorem setChan_sched (s : State) (c : Fin 64) (n : Fin 4) (v : Chan) : (setChan s c n v).sched = s.sched := rfl
@[simp] theorem setChan_nextArm (s : State) (c : Fin 64) (n : Fin 4) (v : Chan) : (setChan s c n v).nextArm = s.nextArm := rfl
@[simp] theorem setChan_timers (s : State) (c : Fin 64) (n : Fin 4) (v : Chan) : (setChan s c n v).timers = s.timers := rfl
@[simp] theorem setChan_ev (s : State) (c : Fin 64) (n : Fin 4) (v : Chan) : (setChan s c n v).ev = s.ev := rfl
@[simp] theorem setChan_pulse (s : State) (c : Fin 64) (n : Fin 4) (v : Chan) : (setChan s c n v).pulse = s.pulse := rfl
@[simp] theorem setChan_etio (s : State) (c : Fin 64) (n : Fin 4) (v : Chan) : (setChan s c n v).etio = s.etio := rfl
@[simp] theorem setChan_etioLive (s : State) (c : Fin 64) (n : Fin 4) (v : Chan) : (setChan s c n v).etioLive = s.etioLive := rfl
@[simp] theorem setChan_frac (s : State) (c : Fin 64) (n : Fin 4) (v : Chan) : (setChan s c n v).frac = s.frac := rfl
@[simp] theorem setChan_ppsRun (s : State) (c : Fin 64) (n : Fin 4) (v : Chan) : (setChan s c n v).ppsRun = s.ppsRun := rfl
@[simp] theorem setChan_ppsSeen (s : State) (c : Fin 64) (n : Fin 4) (v : Chan) : (setChan s c n v).ppsSeen = s.ppsSeen := rfl
@[simp] theorem setChan_faults (s : State) (c : Fin 64) (n : Fin 4) (v : Chan) : (setChan s c n v).faults = s.faults := rfl
@[simp] theorem setChan_bootFailed (s : State) (c : Fin 64) (n : Fin 4) (v : Chan) : (setChan s c n v).bootFailed = s.bootFailed := rfl
@[simp] theorem setChan_pins (s : State) (c : Fin 64) (n : Fin 4) (v : Chan) : (setChan s c n v).pins = s.pins := rfl
@[simp] theorem setChan_adminQ (s : State) (c : Fin 64) (n : Fin 4) (v : Chan) : (setChan s c n v).adminQ = s.adminQ := rfl
@[simp] theorem setChan_refused (s : State) (c : Fin 64) (n : Fin 4) (v : Chan) : (setChan s c n v).refused = s.refused := rfl
@[simp] theorem setChan_startup (s : State) (c : Fin 64) (n : Fin 4) (v : Chan) : (setChan s c n v).startup = s.startup := rfl
@[simp] theorem setChan_keysGone (s : State) (c : Fin 64) (n : Fin 4) (v : Chan) : (setChan s c n v).keysGone = s.keysGone := rfl
@[simp] theorem setChan_ownerCk (s : State) (c : Fin 64) (n : Fin 4) (v : Chan) : (setChan s c n v).ownerCk = s.ownerCk := rfl
@[simp] theorem setChan_ownerKey (s : State) (c : Fin 64) (n : Fin 4) (v : Chan) : (setChan s c n v).ownerKey = s.ownerKey := rfl
@[simp] theorem setChan_lcChanged (s : State) (c : Fin 64) (n : Fin 4) (v : Chan) : (setChan s c n v).lcChanged = s.lcChanged := rfl
@[simp] theorem setChan_vault (s : State) (c : Fin 64) (n : Fin 4) (v : Chan) : (setChan s c n v).vault = s.vault := rfl
@[simp] theorem setChan_firmware (s : State) (c : Fin 64) (n : Fin 4) (v : Chan) : (setChan s c n v).firmware = s.firmware := rfl
@[simp] theorem setChan_caldata (s : State) (c : Fin 64) (n : Fin 4) (v : Chan) : (setChan s c n v).caldata = s.caldata := rfl
@[simp] theorem setChan_forced (s : State) (c : Fin 64) (n : Fin 4) (v : Chan) : (setChan s c n v).forced = s.forced := rfl
@[simp] theorem setChan_fullBoot (s : State) (c : Fin 64) (n : Fin 4) (v : Chan) : (setChan s c n v).fullBoot = s.fullBoot := rfl
@[simp] theorem setChan_lifecycle (s : State) (c : Fin 64) (n : Fin 4) (v : Chan) : (setChan s c n v).lifecycle = s.lifecycle := rfl
@[simp] theorem setChan_keepLink (s : State) (c : Fin 64) (n : Fin 4) (v : Chan) : (setChan s c n v).keepLink = s.keepLink := rfl
@[simp] theorem setChan_policy (s : State) (c : Fin 64) (n : Fin 4) (v : Chan) : (setChan s c n v).policy = s.policy := rfl
@[simp] theorem setChan_passes (s : State) (c : Fin 64) (n : Fin 4) (v : Chan) : (setChan s c n v).passes = s.passes := rfl
@[simp] theorem setChan_tested (s : State) (c : Fin 64) (n : Fin 4) (v : Chan) : (setChan s c n v).tested = s.tested := rfl
@[simp] theorem setChan_highMs (s : State) (c : Fin 64) (n : Fin 4) (v : Chan) : (setChan s c n v).highMs = s.highMs := rfl
@[simp] theorem setChan_gaps (s : State) (c : Fin 64) (n : Fin 4) (v : Chan) : (setChan s c n v).gaps = s.gaps := rfl
@[simp] theorem setChan_margins (s : State) (c : Fin 64) (n : Fin 4) (v : Chan) : (setChan s c n v).margins = s.margins := rfl
@[simp] theorem setChan_brown (s : State) (c : Fin 64) (n : Fin 4) (v : Chan) : (setChan s c n v).brown = s.brown := rfl
@[simp] theorem setChan_adjacent (s : State) (c : Fin 64) (n : Fin 4) (v : Chan) : (setChan s c n v).adjacent = s.adjacent := rfl
@[simp] theorem setChan_lows (s : State) (c : Fin 64) (n : Fin 4) (v : Chan) : (setChan s c n v).lows = s.lows := rfl
@[simp] theorem setChan_uncorr (s : State) (c : Fin 64) (n : Fin 4) (v : Chan) : (setChan s c n v).uncorr = s.uncorr := rfl
@[simp] theorem setChan_corr (s : State) (c : Fin 64) (n : Fin 4) (v : Chan) : (setChan s c n v).corr = s.corr := rfl
@[simp] theorem setChan_fwSwitch (s : State) (c : Fin 64) (n : Fin 4) (v : Chan) : (setChan s c n v).fwSwitch = s.fwSwitch := rfl
@[simp] theorem setChan_watchdog (s : State) (c : Fin 64) (n : Fin 4) (v : Chan) : (setChan s c n v).watchdog = s.watchdog := rfl
@[simp] theorem setChan_patchLoad (s : State) (c : Fin 64) (n : Fin 4) (v : Chan) : (setChan s c n v).patchLoad = s.patchLoad := rfl
@[simp] theorem setChan_nonce (s : State) (c : Fin 64) (n : Fin 4) (v : Chan) : (setChan s c n v).nonce = s.nonce := rfl
@[simp] theorem setChan_jtag (s : State) (c : Fin 64) (n : Fin 4) (v : Chan) : (setChan s c n v).jtag = s.jtag := rfl
@[simp] theorem setChan_bar4 (s : State) (c : Fin 64) (n : Fin 4) (v : Chan) : (setChan s c n v).bar4 = s.bar4 := rfl
@[simp] theorem setChan_bootPass (s : State) (c : Fin 64) (n : Fin 4) (v : Chan) : (setChan s c n v).bootPass = s.bootPass := rfl

/-! ### appendLog changes `log` and `logNext` alone -/

@[simp] theorem appendLog_pending (s : State) (e : LogEntry) : (appendLog s e).pending = s.pending := rfl
@[simp] theorem appendLog_mode (s : State) (e : LogEntry) : (appendLog s e).mode = s.mode := rfl
@[simp] theorem appendLog_free (s : State) (e : LogEntry) : (appendLog s e).free = s.free := rfl
@[simp] theorem appendLog_regs (s : State) (e : LogEntry) : (appendLog s e).regs = s.regs := rfl
@[simp] theorem appendLog_epoch (s : State) (e : LogEntry) : (appendLog s e).epoch = s.epoch := rfl
@[simp] theorem appendLog_logDone (s : State) (e : LogEntry) : (appendLog s e).logDone = s.logDone := rfl
@[simp] theorem appendLog_folded (s : State) (e : LogEntry) : (appendLog s e).folded = s.folded := rfl
@[simp] theorem appendLog_bows (s : State) (e : LogEntry) : (appendLog s e).bows = s.bows := rfl
@[simp] theorem appendLog_pe (s : State) (e : LogEntry) : (appendLog s e).pe = s.pe := rfl
@[simp] theorem appendLog_peErr (s : State) (e : LogEntry) : (appendLog s e).peErr = s.peErr := rfl
@[simp] theorem appendLog_scrErr (s : State) (e : LogEntry) : (appendLog s e).scrErr = s.scrErr := rfl
@[simp] theorem appendLog_courses (s : State) (e : LogEntry) : (appendLog s e).courses = s.courses := rfl
@[simp] theorem appendLog_pcourse (s : State) (e : LogEntry) : (appendLog s e).pcourse = s.pcourse := rfl
@[simp] theorem appendLog_lmap (s : State) (e : LogEntry) : (appendLog s e).lmap = s.lmap := rfl
@[simp] theorem appendLog_migration (s : State) (e : LogEntry) : (appendLog s e).migration = s.migration := rfl
@[simp] theorem appendLog_flight (s : State) (e : LogEntry) : (appendLog s e).flight = s.flight := rfl
@[simp] theorem appendLog_heldBack (s : State) (e : LogEntry) : (appendLog s e).heldBack = s.heldBack := rfl
@[simp] theorem appendLog_torus (s : State) (e : LogEntry) : (appendLog s e).torus = s.torus := rfl
@[simp] theorem appendLog_peers (s : State) (e : LogEntry) : (appendLog s e).peers = s.peers := rfl
@[simp] theorem appendLog_fp (s : State) (e : LogEntry) : (appendLog s e).fp = s.fp := rfl
@[simp] theorem appendLog_fabLoad (s : State) (e : LogEntry) : (appendLog s e).fabLoad = s.fabLoad := rfl
@[simp] theorem appendLog_fabGlobal (s : State) (e : LogEntry) : (appendLog s e).fabGlobal = s.fabGlobal := rfl
@[simp] theorem appendLog_fabLive (s : State) (e : LogEntry) : (appendLog s e).fabLive = s.fabLive := rfl
@[simp] theorem appendLog_snap (s : State) (e : LogEntry) : (appendLog s e).snap = s.snap := rfl
@[simp] theorem appendLog_fab (s : State) (e : LogEntry) : (appendLog s e).fab = s.fab := rfl
@[simp] theorem appendLog_store (s : State) (e : LogEntry) : (appendLog s e).store = s.store := rfl
@[simp] theorem appendLog_shadow (s : State) (e : LogEntry) : (appendLog s e).shadow = s.shadow := rfl
@[simp] theorem appendLog_storeErr (s : State) (e : LogEntry) : (appendLog s e).storeErr = s.storeErr := rfl
@[simp] theorem appendLog_lease (s : State) (e : LogEntry) : (appendLog s e).lease = s.lease := rfl
@[simp] theorem appendLog_scrubRow (s : State) (e : LogEntry) : (appendLog s e).scrubRow = s.scrubRow := rfl
@[simp] theorem appendLog_scrubLeft (s : State) (e : LogEntry) : (appendLog s e).scrubLeft = s.scrubLeft := rfl
@[simp] theorem appendLog_wipeEnd (s : State) (e : LogEntry) : (appendLog s e).wipeEnd = s.wipeEnd := rfl
@[simp] theorem appendLog_clearEnd (s : State) (e : LogEntry) : (appendLog s e).clearEnd = s.clearEnd := rfl
@[simp] theorem appendLog_dresult (s : State) (e : LogEntry) : (appendLog s e).dresult = s.dresult := rfl
@[simp] theorem appendLog_reconfig (s : State) (e : LogEntry) : (appendLog s e).reconfig = s.reconfig := rfl
@[simp] theorem appendLog_idMove (s : State) (e : LogEntry) : (appendLog s e).idMove = s.idMove := rfl
@[simp] theorem appendLog_host (s : State) (e : LogEntry) : (appendLog s e).host = s.host := rfl
@[simp] theorem appendLog_msix (s : State) (e : LogEntry) : (appendLog s e).msix = s.msix := rfl
@[simp] theorem appendLog_msixPend (s : State) (e : LogEntry) : (appendLog s e).msixPend = s.msixPend := rfl
@[simp] theorem appendLog_sq (s : State) (e : LogEntry) : (appendLog s e).sq = s.sq := rfl
@[simp] theorem appendLog_cq (s : State) (e : LogEntry) : (appendLog s e).cq = s.cq := rfl
@[simp] theorem appendLog_st (s : State) (e : LogEntry) : (appendLog s e).st = s.st := rfl
@[simp] theorem appendLog_accepted (s : State) (e : LogEntry) : (appendLog s e).accepted = s.accepted := rfl
@[simp] theorem appendLog_abortWaits (s : State) (e : LogEntry) : (appendLog s e).abortWaits = s.abortWaits := rfl
@[simp] theorem appendLog_movers (s : State) (e : LogEntry) : (appendLog s e).movers = s.movers := rfl
@[simp] theorem appendLog_ackWaits (s : State) (e : LogEntry) : (appendLog s e).ackWaits = s.ackWaits := rfl
@[simp] theorem appendLog_before (s : State) (e : LogEntry) : (appendLog s e).before = s.before := rfl
@[simp] theorem appendLog_guard (s : State) (e : LogEntry) : (appendLog s e).guard = s.guard := rfl
@[simp] theorem appendLog_refs (s : State) (e : LogEntry) : (appendLog s e).refs = s.refs := rfl
@[simp] theorem appendLog_sched (s : State) (e : LogEntry) : (appendLog s e).sched = s.sched := rfl
@[simp] theorem appendLog_nextArm (s : State) (e : LogEntry) : (appendLog s e).nextArm = s.nextArm := rfl
@[simp] theorem appendLog_timers (s : State) (e : LogEntry) : (appendLog s e).timers = s.timers := rfl
@[simp] theorem appendLog_ev (s : State) (e : LogEntry) : (appendLog s e).ev = s.ev := rfl
@[simp] theorem appendLog_pulse (s : State) (e : LogEntry) : (appendLog s e).pulse = s.pulse := rfl
@[simp] theorem appendLog_etio (s : State) (e : LogEntry) : (appendLog s e).etio = s.etio := rfl
@[simp] theorem appendLog_etioLive (s : State) (e : LogEntry) : (appendLog s e).etioLive = s.etioLive := rfl
@[simp] theorem appendLog_frac (s : State) (e : LogEntry) : (appendLog s e).frac = s.frac := rfl
@[simp] theorem appendLog_ppsRun (s : State) (e : LogEntry) : (appendLog s e).ppsRun = s.ppsRun := rfl
@[simp] theorem appendLog_ppsSeen (s : State) (e : LogEntry) : (appendLog s e).ppsSeen = s.ppsSeen := rfl
@[simp] theorem appendLog_faults (s : State) (e : LogEntry) : (appendLog s e).faults = s.faults := rfl
@[simp] theorem appendLog_bootFailed (s : State) (e : LogEntry) : (appendLog s e).bootFailed = s.bootFailed := rfl
@[simp] theorem appendLog_pins (s : State) (e : LogEntry) : (appendLog s e).pins = s.pins := rfl
@[simp] theorem appendLog_adminQ (s : State) (e : LogEntry) : (appendLog s e).adminQ = s.adminQ := rfl
@[simp] theorem appendLog_refused (s : State) (e : LogEntry) : (appendLog s e).refused = s.refused := rfl
@[simp] theorem appendLog_startup (s : State) (e : LogEntry) : (appendLog s e).startup = s.startup := rfl
@[simp] theorem appendLog_keysGone (s : State) (e : LogEntry) : (appendLog s e).keysGone = s.keysGone := rfl
@[simp] theorem appendLog_ownerCk (s : State) (e : LogEntry) : (appendLog s e).ownerCk = s.ownerCk := rfl
@[simp] theorem appendLog_ownerKey (s : State) (e : LogEntry) : (appendLog s e).ownerKey = s.ownerKey := rfl
@[simp] theorem appendLog_lcChanged (s : State) (e : LogEntry) : (appendLog s e).lcChanged = s.lcChanged := rfl
@[simp] theorem appendLog_vault (s : State) (e : LogEntry) : (appendLog s e).vault = s.vault := rfl
@[simp] theorem appendLog_firmware (s : State) (e : LogEntry) : (appendLog s e).firmware = s.firmware := rfl
@[simp] theorem appendLog_caldata (s : State) (e : LogEntry) : (appendLog s e).caldata = s.caldata := rfl
@[simp] theorem appendLog_forced (s : State) (e : LogEntry) : (appendLog s e).forced = s.forced := rfl
@[simp] theorem appendLog_fullBoot (s : State) (e : LogEntry) : (appendLog s e).fullBoot = s.fullBoot := rfl
@[simp] theorem appendLog_lifecycle (s : State) (e : LogEntry) : (appendLog s e).lifecycle = s.lifecycle := rfl
@[simp] theorem appendLog_keepLink (s : State) (e : LogEntry) : (appendLog s e).keepLink = s.keepLink := rfl
@[simp] theorem appendLog_policy (s : State) (e : LogEntry) : (appendLog s e).policy = s.policy := rfl
@[simp] theorem appendLog_passes (s : State) (e : LogEntry) : (appendLog s e).passes = s.passes := rfl
@[simp] theorem appendLog_tested (s : State) (e : LogEntry) : (appendLog s e).tested = s.tested := rfl
@[simp] theorem appendLog_highMs (s : State) (e : LogEntry) : (appendLog s e).highMs = s.highMs := rfl
@[simp] theorem appendLog_gaps (s : State) (e : LogEntry) : (appendLog s e).gaps = s.gaps := rfl
@[simp] theorem appendLog_margins (s : State) (e : LogEntry) : (appendLog s e).margins = s.margins := rfl
@[simp] theorem appendLog_brown (s : State) (e : LogEntry) : (appendLog s e).brown = s.brown := rfl
@[simp] theorem appendLog_adjacent (s : State) (e : LogEntry) : (appendLog s e).adjacent = s.adjacent := rfl
@[simp] theorem appendLog_lows (s : State) (e : LogEntry) : (appendLog s e).lows = s.lows := rfl
@[simp] theorem appendLog_uncorr (s : State) (e : LogEntry) : (appendLog s e).uncorr = s.uncorr := rfl
@[simp] theorem appendLog_corr (s : State) (e : LogEntry) : (appendLog s e).corr = s.corr := rfl
@[simp] theorem appendLog_fwSwitch (s : State) (e : LogEntry) : (appendLog s e).fwSwitch = s.fwSwitch := rfl
@[simp] theorem appendLog_watchdog (s : State) (e : LogEntry) : (appendLog s e).watchdog = s.watchdog := rfl
@[simp] theorem appendLog_patchLoad (s : State) (e : LogEntry) : (appendLog s e).patchLoad = s.patchLoad := rfl
@[simp] theorem appendLog_nonce (s : State) (e : LogEntry) : (appendLog s e).nonce = s.nonce := rfl
@[simp] theorem appendLog_jtag (s : State) (e : LogEntry) : (appendLog s e).jtag = s.jtag := rfl
@[simp] theorem appendLog_bar4 (s : State) (e : LogEntry) : (appendLog s e).bar4 = s.bar4 := rfl
@[simp] theorem appendLog_bootPass (s : State) (e : LogEntry) : (appendLog s e).bootPass = s.bootPass := rfl

/-! ### logEvent changes the Logbook alone -/

theorem endFold_cases (s : State) (a b : BitVec 16) :
    ∃ l n f, endFold s a b = { s with log := l, logNext := n, folded := f } := by
  unfold endFold
  split
  · split <;> exact ⟨_, _, _, rfl⟩
  · exact ⟨_, _, _, rfl⟩

/-- Everything a Logbook entry can do. -/
theorem logEvent_cases (s : State) (a b : BitVec 16) (st : Status) (d : BitVec 24) :
    ∃ l n f, logEvent s a b st d = { s with log := l, logNext := n, folded := f } := by
  unfold logEvent
  split
  · split
    · exact ⟨_, _, _, rfl⟩
    · split <;> exact ⟨_, _, _, rfl⟩
  · exact ⟨_, _, _, rfl⟩

/-- Everything a message can do: it is sent, or its pending bit sets. -/
theorem sendMsix_cases (s : State) (v : BitVec 6) :
    ∃ m p, sendMsix s v = { s with msix := m, msixPend := p } := by
  unfold sendMsix
  split <;> exact ⟨_, _, rfl⟩

/-- Everything an event of HIF_EVENT can do. -/
theorem hifEvent_cases (s : State) (bit : Nat) :
    ∃ r m p, hifEvent s bit = { s with regs := r, msix := m, msixPend := p } := by
  unfold hifEvent
  split
  · exact ⟨_, _, _, rfl⟩
  · split
    · obtain ⟨m, p, h⟩ := sendMsix_cases (setRegBits s 0x1008 bit bit 1) 0
      exact ⟨_, m, p, h⟩
    · exact ⟨_, _, _, rfl⟩

/-- Everything a change of the operating mode can do. -/
theorem setMode_cases (s : State) (m : Mode) :
    ∃ md p r x y l n f, setMode s m =
      { s with mode := md, pins := p, regs := r, msix := x, msixPend := y, log := l, logNext := n, folded := f } := by
  unfold setMode
  split
  · exact ⟨_, _, _, _, _, _, _, _, rfl⟩
  · obtain ⟨r, x, y, hh⟩ := hifEvent_cases (settlePins { s with mode := m }) 4
    rw [hh]
    obtain ⟨l, n, f, hl⟩ := logEvent_cases (setRegBits { settlePins { s with mode := m } with regs := r, msix := x, msixPend := y } 0x1004 3 0
      (modeCode m)) 0 0x0001 stOK (BitVec.ofNat 24 (modeCode m + 16 * modeCode s.mode))
    exact ⟨_, _, _, _, _, _, _, _, hl⟩

@[simp] theorem logEvent_pending (s : State) (a b : BitVec 16) (st : Status) (d : BitVec 24) :
    (logEvent s a b st d).pending = s.pending := by
  obtain ⟨l, n, f, h⟩ := logEvent_cases s a b st d
  rw [h]
@[simp] theorem logEvent_mode (s : State) (a b : BitVec 16) (st : Status) (d : BitVec 24) :
    (logEvent s a b st d).mode = s.mode := by
  obtain ⟨l, n, f, h⟩ := logEvent_cases s a b st d
  rw [h]
@[simp] theorem logEvent_free (s : State) (a b : BitVec 16) (st : Status) (d : BitVec 24) :
    (logEvent s a b st d).free = s.free := by
  obtain ⟨l, n, f, h⟩ := logEvent_cases s a b st d
  rw [h]
@[simp] theorem logEvent_regs (s : State) (a b : BitVec 16) (st : Status) (d : BitVec 24) :
    (logEvent s a b st d).regs = s.regs := by
  obtain ⟨l, n, f, h⟩ := logEvent_cases s a b st d
  rw [h]
@[simp] theorem logEvent_epoch (s : State) (a b : BitVec 16) (st : Status) (d : BitVec 24) :
    (logEvent s a b st d).epoch = s.epoch := by
  obtain ⟨l, n, f, h⟩ := logEvent_cases s a b st d
  rw [h]
@[simp] theorem logEvent_logDone (s : State) (a b : BitVec 16) (st : Status) (d : BitVec 24) :
    (logEvent s a b st d).logDone = s.logDone := by
  obtain ⟨l, n, f, h⟩ := logEvent_cases s a b st d
  rw [h]
@[simp] theorem logEvent_bows (s : State) (a b : BitVec 16) (st : Status) (d : BitVec 24) :
    (logEvent s a b st d).bows = s.bows := by
  obtain ⟨l, n, f, h⟩ := logEvent_cases s a b st d
  rw [h]
@[simp] theorem logEvent_pe (s : State) (a b : BitVec 16) (st : Status) (d : BitVec 24) :
    (logEvent s a b st d).pe = s.pe := by
  obtain ⟨l, n, f, h⟩ := logEvent_cases s a b st d
  rw [h]
@[simp] theorem logEvent_peErr (s : State) (a b : BitVec 16) (st : Status) (d : BitVec 24) :
    (logEvent s a b st d).peErr = s.peErr := by
  obtain ⟨l, n, f, h⟩ := logEvent_cases s a b st d
  rw [h]
@[simp] theorem logEvent_scrErr (s : State) (a b : BitVec 16) (st : Status) (d : BitVec 24) :
    (logEvent s a b st d).scrErr = s.scrErr := by
  obtain ⟨l, n, f, h⟩ := logEvent_cases s a b st d
  rw [h]
@[simp] theorem logEvent_courses (s : State) (a b : BitVec 16) (st : Status) (d : BitVec 24) :
    (logEvent s a b st d).courses = s.courses := by
  obtain ⟨l, n, f, h⟩ := logEvent_cases s a b st d
  rw [h]
@[simp] theorem logEvent_pcourse (s : State) (a b : BitVec 16) (st : Status) (d : BitVec 24) :
    (logEvent s a b st d).pcourse = s.pcourse := by
  obtain ⟨l, n, f, h⟩ := logEvent_cases s a b st d
  rw [h]
@[simp] theorem logEvent_lmap (s : State) (a b : BitVec 16) (st : Status) (d : BitVec 24) :
    (logEvent s a b st d).lmap = s.lmap := by
  obtain ⟨l, n, f, h⟩ := logEvent_cases s a b st d
  rw [h]
@[simp] theorem logEvent_migration (s : State) (a b : BitVec 16) (st : Status) (d : BitVec 24) :
    (logEvent s a b st d).migration = s.migration := by
  obtain ⟨l, n, f, h⟩ := logEvent_cases s a b st d
  rw [h]
@[simp] theorem logEvent_flight (s : State) (a b : BitVec 16) (st : Status) (d : BitVec 24) :
    (logEvent s a b st d).flight = s.flight := by
  obtain ⟨l, n, f, h⟩ := logEvent_cases s a b st d
  rw [h]
@[simp] theorem logEvent_heldBack (s : State) (a b : BitVec 16) (st : Status) (d : BitVec 24) :
    (logEvent s a b st d).heldBack = s.heldBack := by
  obtain ⟨l, n, f, h⟩ := logEvent_cases s a b st d
  rw [h]
@[simp] theorem logEvent_torus (s : State) (a b : BitVec 16) (st : Status) (d : BitVec 24) :
    (logEvent s a b st d).torus = s.torus := by
  obtain ⟨l, n, f, h⟩ := logEvent_cases s a b st d
  rw [h]
@[simp] theorem logEvent_peers (s : State) (a b : BitVec 16) (st : Status) (d : BitVec 24) :
    (logEvent s a b st d).peers = s.peers := by
  obtain ⟨l, n, f, h⟩ := logEvent_cases s a b st d
  rw [h]
@[simp] theorem logEvent_fp (s : State) (a b : BitVec 16) (st : Status) (d : BitVec 24) :
    (logEvent s a b st d).fp = s.fp := by
  obtain ⟨l, n, f, h⟩ := logEvent_cases s a b st d
  rw [h]
@[simp] theorem logEvent_fabLoad (s : State) (a b : BitVec 16) (st : Status) (d : BitVec 24) :
    (logEvent s a b st d).fabLoad = s.fabLoad := by
  obtain ⟨l, n, f, h⟩ := logEvent_cases s a b st d
  rw [h]
@[simp] theorem logEvent_fabGlobal (s : State) (a b : BitVec 16) (st : Status) (d : BitVec 24) :
    (logEvent s a b st d).fabGlobal = s.fabGlobal := by
  obtain ⟨l, n, f, h⟩ := logEvent_cases s a b st d
  rw [h]
@[simp] theorem logEvent_fabLive (s : State) (a b : BitVec 16) (st : Status) (d : BitVec 24) :
    (logEvent s a b st d).fabLive = s.fabLive := by
  obtain ⟨l, n, f, h⟩ := logEvent_cases s a b st d
  rw [h]
@[simp] theorem logEvent_snap (s : State) (a b : BitVec 16) (st : Status) (d : BitVec 24) :
    (logEvent s a b st d).snap = s.snap := by
  obtain ⟨l, n, f, h⟩ := logEvent_cases s a b st d
  rw [h]
@[simp] theorem logEvent_fab (s : State) (a b : BitVec 16) (st : Status) (d : BitVec 24) :
    (logEvent s a b st d).fab = s.fab := by
  obtain ⟨l, n, f, h⟩ := logEvent_cases s a b st d
  rw [h]
@[simp] theorem logEvent_store (s : State) (a b : BitVec 16) (st : Status) (d : BitVec 24) :
    (logEvent s a b st d).store = s.store := by
  obtain ⟨l, n, f, h⟩ := logEvent_cases s a b st d
  rw [h]
@[simp] theorem logEvent_shadow (s : State) (a b : BitVec 16) (st : Status) (d : BitVec 24) :
    (logEvent s a b st d).shadow = s.shadow := by
  obtain ⟨l, n, f, h⟩ := logEvent_cases s a b st d
  rw [h]
@[simp] theorem logEvent_storeErr (s : State) (a b : BitVec 16) (st : Status) (d : BitVec 24) :
    (logEvent s a b st d).storeErr = s.storeErr := by
  obtain ⟨l, n, f, h⟩ := logEvent_cases s a b st d
  rw [h]
@[simp] theorem logEvent_lease (s : State) (a b : BitVec 16) (st : Status) (d : BitVec 24) :
    (logEvent s a b st d).lease = s.lease := by
  obtain ⟨l, n, f, h⟩ := logEvent_cases s a b st d
  rw [h]
@[simp] theorem logEvent_scrubRow (s : State) (a b : BitVec 16) (st : Status) (d : BitVec 24) :
    (logEvent s a b st d).scrubRow = s.scrubRow := by
  obtain ⟨l, n, f, h⟩ := logEvent_cases s a b st d
  rw [h]
@[simp] theorem logEvent_scrubLeft (s : State) (a b : BitVec 16) (st : Status) (d : BitVec 24) :
    (logEvent s a b st d).scrubLeft = s.scrubLeft := by
  obtain ⟨l, n, f, h⟩ := logEvent_cases s a b st d
  rw [h]
@[simp] theorem logEvent_wipeEnd (s : State) (a b : BitVec 16) (st : Status) (d : BitVec 24) :
    (logEvent s a b st d).wipeEnd = s.wipeEnd := by
  obtain ⟨l, n, f, h⟩ := logEvent_cases s a b st d
  rw [h]
@[simp] theorem logEvent_clearEnd (s : State) (a b : BitVec 16) (st : Status) (d : BitVec 24) :
    (logEvent s a b st d).clearEnd = s.clearEnd := by
  obtain ⟨l, n, f, h⟩ := logEvent_cases s a b st d
  rw [h]
@[simp] theorem logEvent_dresult (s : State) (a b : BitVec 16) (st : Status) (d : BitVec 24) :
    (logEvent s a b st d).dresult = s.dresult := by
  obtain ⟨l, n, f, h⟩ := logEvent_cases s a b st d
  rw [h]
@[simp] theorem logEvent_reconfig (s : State) (a b : BitVec 16) (st : Status) (d : BitVec 24) :
    (logEvent s a b st d).reconfig = s.reconfig := by
  obtain ⟨l, n, f, h⟩ := logEvent_cases s a b st d
  rw [h]
@[simp] theorem logEvent_idMove (s : State) (a b : BitVec 16) (st : Status) (d : BitVec 24) :
    (logEvent s a b st d).idMove = s.idMove := by
  obtain ⟨l, n, f, h⟩ := logEvent_cases s a b st d
  rw [h]
@[simp] theorem logEvent_host (s : State) (a b : BitVec 16) (st : Status) (d : BitVec 24) :
    (logEvent s a b st d).host = s.host := by
  obtain ⟨l, n, f, h⟩ := logEvent_cases s a b st d
  rw [h]
@[simp] theorem logEvent_msix (s : State) (a b : BitVec 16) (st : Status) (d : BitVec 24) :
    (logEvent s a b st d).msix = s.msix := by
  obtain ⟨l, n, f, h⟩ := logEvent_cases s a b st d
  rw [h]
@[simp] theorem logEvent_msixPend (s : State) (a b : BitVec 16) (st : Status) (d : BitVec 24) :
    (logEvent s a b st d).msixPend = s.msixPend := by
  obtain ⟨l, n, f, h⟩ := logEvent_cases s a b st d
  rw [h]
@[simp] theorem logEvent_sq (s : State) (a b : BitVec 16) (st : Status) (d : BitVec 24) :
    (logEvent s a b st d).sq = s.sq := by
  obtain ⟨l, n, f, h⟩ := logEvent_cases s a b st d
  rw [h]
@[simp] theorem logEvent_cq (s : State) (a b : BitVec 16) (st : Status) (d : BitVec 24) :
    (logEvent s a b st d).cq = s.cq := by
  obtain ⟨l, n, f, h⟩ := logEvent_cases s a b st d
  rw [h]
@[simp] theorem logEvent_st (s : State) (a b : BitVec 16) (st : Status) (d : BitVec 24) :
    (logEvent s a b st d).st = s.st := by
  obtain ⟨l, n, f, h⟩ := logEvent_cases s a b st d
  rw [h]
@[simp] theorem logEvent_accepted (s : State) (a b : BitVec 16) (st : Status) (d : BitVec 24) :
    (logEvent s a b st d).accepted = s.accepted := by
  obtain ⟨l, n, f, h⟩ := logEvent_cases s a b st d
  rw [h]
@[simp] theorem logEvent_abortWaits (s : State) (a b : BitVec 16) (st : Status) (d : BitVec 24) :
    (logEvent s a b st d).abortWaits = s.abortWaits := by
  obtain ⟨l, n, f, h⟩ := logEvent_cases s a b st d
  rw [h]
@[simp] theorem logEvent_movers (s : State) (a b : BitVec 16) (st : Status) (d : BitVec 24) :
    (logEvent s a b st d).movers = s.movers := by
  obtain ⟨l, n, f, h⟩ := logEvent_cases s a b st d
  rw [h]
@[simp] theorem logEvent_ackWaits (s : State) (a b : BitVec 16) (st : Status) (d : BitVec 24) :
    (logEvent s a b st d).ackWaits = s.ackWaits := by
  obtain ⟨l, n, f, h⟩ := logEvent_cases s a b st d
  rw [h]
@[simp] theorem logEvent_before (s : State) (a b : BitVec 16) (st : Status) (d : BitVec 24) :
    (logEvent s a b st d).before = s.before := by
  obtain ⟨l, n, f, h⟩ := logEvent_cases s a b st d
  rw [h]
@[simp] theorem logEvent_guard (s : State) (a b : BitVec 16) (st : Status) (d : BitVec 24) :
    (logEvent s a b st d).guard = s.guard := by
  obtain ⟨l, n, f, h⟩ := logEvent_cases s a b st d
  rw [h]
@[simp] theorem logEvent_refs (s : State) (a b : BitVec 16) (st : Status) (d : BitVec 24) :
    (logEvent s a b st d).refs = s.refs := by
  obtain ⟨l, n, f, h⟩ := logEvent_cases s a b st d
  rw [h]
@[simp] theorem logEvent_sched (s : State) (a b : BitVec 16) (st : Status) (d : BitVec 24) :
    (logEvent s a b st d).sched = s.sched := by
  obtain ⟨l, n, f, h⟩ := logEvent_cases s a b st d
  rw [h]
@[simp] theorem logEvent_nextArm (s : State) (a b : BitVec 16) (st : Status) (d : BitVec 24) :
    (logEvent s a b st d).nextArm = s.nextArm := by
  obtain ⟨l, n, f, h⟩ := logEvent_cases s a b st d
  rw [h]
@[simp] theorem logEvent_timers (s : State) (a b : BitVec 16) (st : Status) (d : BitVec 24) :
    (logEvent s a b st d).timers = s.timers := by
  obtain ⟨l, n, f, h⟩ := logEvent_cases s a b st d
  rw [h]
@[simp] theorem logEvent_ev (s : State) (a b : BitVec 16) (st : Status) (d : BitVec 24) :
    (logEvent s a b st d).ev = s.ev := by
  obtain ⟨l, n, f, h⟩ := logEvent_cases s a b st d
  rw [h]
@[simp] theorem logEvent_pulse (s : State) (a b : BitVec 16) (st : Status) (d : BitVec 24) :
    (logEvent s a b st d).pulse = s.pulse := by
  obtain ⟨l, n, f, h⟩ := logEvent_cases s a b st d
  rw [h]
@[simp] theorem logEvent_etio (s : State) (a b : BitVec 16) (st : Status) (d : BitVec 24) :
    (logEvent s a b st d).etio = s.etio := by
  obtain ⟨l, n, f, h⟩ := logEvent_cases s a b st d
  rw [h]
@[simp] theorem logEvent_etioLive (s : State) (a b : BitVec 16) (st : Status) (d : BitVec 24) :
    (logEvent s a b st d).etioLive = s.etioLive := by
  obtain ⟨l, n, f, h⟩ := logEvent_cases s a b st d
  rw [h]
@[simp] theorem logEvent_frac (s : State) (a b : BitVec 16) (st : Status) (d : BitVec 24) :
    (logEvent s a b st d).frac = s.frac := by
  obtain ⟨l, n, f, h⟩ := logEvent_cases s a b st d
  rw [h]
@[simp] theorem logEvent_ppsRun (s : State) (a b : BitVec 16) (st : Status) (d : BitVec 24) :
    (logEvent s a b st d).ppsRun = s.ppsRun := by
  obtain ⟨l, n, f, h⟩ := logEvent_cases s a b st d
  rw [h]
@[simp] theorem logEvent_ppsSeen (s : State) (a b : BitVec 16) (st : Status) (d : BitVec 24) :
    (logEvent s a b st d).ppsSeen = s.ppsSeen := by
  obtain ⟨l, n, f, h⟩ := logEvent_cases s a b st d
  rw [h]
@[simp] theorem logEvent_faults (s : State) (a b : BitVec 16) (st : Status) (d : BitVec 24) :
    (logEvent s a b st d).faults = s.faults := by
  obtain ⟨l, n, f, h⟩ := logEvent_cases s a b st d
  rw [h]
@[simp] theorem logEvent_bootFailed (s : State) (a b : BitVec 16) (st : Status) (d : BitVec 24) :
    (logEvent s a b st d).bootFailed = s.bootFailed := by
  obtain ⟨l, n, f, h⟩ := logEvent_cases s a b st d
  rw [h]
@[simp] theorem logEvent_pins (s : State) (a b : BitVec 16) (st : Status) (d : BitVec 24) :
    (logEvent s a b st d).pins = s.pins := by
  obtain ⟨l, n, f, h⟩ := logEvent_cases s a b st d
  rw [h]
@[simp] theorem logEvent_adminQ (s : State) (a b : BitVec 16) (st : Status) (d : BitVec 24) :
    (logEvent s a b st d).adminQ = s.adminQ := by
  obtain ⟨l, n, f, h⟩ := logEvent_cases s a b st d
  rw [h]
@[simp] theorem logEvent_refused (s : State) (a b : BitVec 16) (st : Status) (d : BitVec 24) :
    (logEvent s a b st d).refused = s.refused := by
  obtain ⟨l, n, f, h⟩ := logEvent_cases s a b st d
  rw [h]
@[simp] theorem logEvent_startup (s : State) (a b : BitVec 16) (st : Status) (d : BitVec 24) :
    (logEvent s a b st d).startup = s.startup := by
  obtain ⟨l, n, f, h⟩ := logEvent_cases s a b st d
  rw [h]
@[simp] theorem logEvent_keysGone (s : State) (a b : BitVec 16) (st : Status) (d : BitVec 24) :
    (logEvent s a b st d).keysGone = s.keysGone := by
  obtain ⟨l, n, f, h⟩ := logEvent_cases s a b st d
  rw [h]
@[simp] theorem logEvent_ownerCk (s : State) (a b : BitVec 16) (st : Status) (d : BitVec 24) :
    (logEvent s a b st d).ownerCk = s.ownerCk := by
  obtain ⟨l, n, f, h⟩ := logEvent_cases s a b st d
  rw [h]
@[simp] theorem logEvent_ownerKey (s : State) (a b : BitVec 16) (st : Status) (d : BitVec 24) :
    (logEvent s a b st d).ownerKey = s.ownerKey := by
  obtain ⟨l, n, f, h⟩ := logEvent_cases s a b st d
  rw [h]
@[simp] theorem logEvent_lcChanged (s : State) (a b : BitVec 16) (st : Status) (d : BitVec 24) :
    (logEvent s a b st d).lcChanged = s.lcChanged := by
  obtain ⟨l, n, f, h⟩ := logEvent_cases s a b st d
  rw [h]
@[simp] theorem logEvent_vault (s : State) (a b : BitVec 16) (st : Status) (d : BitVec 24) :
    (logEvent s a b st d).vault = s.vault := by
  obtain ⟨l, n, f, h⟩ := logEvent_cases s a b st d
  rw [h]
@[simp] theorem logEvent_firmware (s : State) (a b : BitVec 16) (st : Status) (d : BitVec 24) :
    (logEvent s a b st d).firmware = s.firmware := by
  obtain ⟨l, n, f, h⟩ := logEvent_cases s a b st d
  rw [h]
@[simp] theorem logEvent_caldata (s : State) (a b : BitVec 16) (st : Status) (d : BitVec 24) :
    (logEvent s a b st d).caldata = s.caldata := by
  obtain ⟨l, n, f, h⟩ := logEvent_cases s a b st d
  rw [h]
@[simp] theorem logEvent_forced (s : State) (a b : BitVec 16) (st : Status) (d : BitVec 24) :
    (logEvent s a b st d).forced = s.forced := by
  obtain ⟨l, n, f, h⟩ := logEvent_cases s a b st d
  rw [h]
@[simp] theorem logEvent_fullBoot (s : State) (a b : BitVec 16) (st : Status) (d : BitVec 24) :
    (logEvent s a b st d).fullBoot = s.fullBoot := by
  obtain ⟨l, n, f, h⟩ := logEvent_cases s a b st d
  rw [h]
@[simp] theorem logEvent_lifecycle (s : State) (a b : BitVec 16) (st : Status) (d : BitVec 24) :
    (logEvent s a b st d).lifecycle = s.lifecycle := by
  obtain ⟨l, n, f, h⟩ := logEvent_cases s a b st d
  rw [h]
@[simp] theorem logEvent_keepLink (s : State) (a b : BitVec 16) (st : Status) (d : BitVec 24) :
    (logEvent s a b st d).keepLink = s.keepLink := by
  obtain ⟨l, n, f, h⟩ := logEvent_cases s a b st d
  rw [h]
@[simp] theorem logEvent_policy (s : State) (a b : BitVec 16) (st : Status) (d : BitVec 24) :
    (logEvent s a b st d).policy = s.policy := by
  obtain ⟨l, n, f, h⟩ := logEvent_cases s a b st d
  rw [h]
@[simp] theorem logEvent_passes (s : State) (a b : BitVec 16) (st : Status) (d : BitVec 24) :
    (logEvent s a b st d).passes = s.passes := by
  obtain ⟨l, n, f, h⟩ := logEvent_cases s a b st d
  rw [h]
@[simp] theorem logEvent_tested (s : State) (a b : BitVec 16) (st : Status) (d : BitVec 24) :
    (logEvent s a b st d).tested = s.tested := by
  obtain ⟨l, n, f, h⟩ := logEvent_cases s a b st d
  rw [h]
@[simp] theorem logEvent_highMs (s : State) (a b : BitVec 16) (st : Status) (d : BitVec 24) :
    (logEvent s a b st d).highMs = s.highMs := by
  obtain ⟨l, n, f, h⟩ := logEvent_cases s a b st d
  rw [h]
@[simp] theorem logEvent_gaps (s : State) (a b : BitVec 16) (st : Status) (d : BitVec 24) :
    (logEvent s a b st d).gaps = s.gaps := by
  obtain ⟨l, n, f, h⟩ := logEvent_cases s a b st d
  rw [h]
@[simp] theorem logEvent_margins (s : State) (a b : BitVec 16) (st : Status) (d : BitVec 24) :
    (logEvent s a b st d).margins = s.margins := by
  obtain ⟨l, n, f, h⟩ := logEvent_cases s a b st d
  rw [h]
@[simp] theorem logEvent_brown (s : State) (a b : BitVec 16) (st : Status) (d : BitVec 24) :
    (logEvent s a b st d).brown = s.brown := by
  obtain ⟨l, n, f, h⟩ := logEvent_cases s a b st d
  rw [h]
@[simp] theorem logEvent_adjacent (s : State) (a b : BitVec 16) (st : Status) (d : BitVec 24) :
    (logEvent s a b st d).adjacent = s.adjacent := by
  obtain ⟨l, n, f, h⟩ := logEvent_cases s a b st d
  rw [h]
@[simp] theorem logEvent_lows (s : State) (a b : BitVec 16) (st : Status) (d : BitVec 24) :
    (logEvent s a b st d).lows = s.lows := by
  obtain ⟨l, n, f, h⟩ := logEvent_cases s a b st d
  rw [h]
@[simp] theorem logEvent_uncorr (s : State) (a b : BitVec 16) (st : Status) (d : BitVec 24) :
    (logEvent s a b st d).uncorr = s.uncorr := by
  obtain ⟨l, n, f, h⟩ := logEvent_cases s a b st d
  rw [h]
@[simp] theorem logEvent_corr (s : State) (a b : BitVec 16) (st : Status) (d : BitVec 24) :
    (logEvent s a b st d).corr = s.corr := by
  obtain ⟨l, n, f, h⟩ := logEvent_cases s a b st d
  rw [h]
@[simp] theorem logEvent_fwSwitch (s : State) (a b : BitVec 16) (st : Status) (d : BitVec 24) :
    (logEvent s a b st d).fwSwitch = s.fwSwitch := by
  obtain ⟨l, n, f, h⟩ := logEvent_cases s a b st d
  rw [h]
@[simp] theorem logEvent_watchdog (s : State) (a b : BitVec 16) (st : Status) (d : BitVec 24) :
    (logEvent s a b st d).watchdog = s.watchdog := by
  obtain ⟨l, n, f, h⟩ := logEvent_cases s a b st d
  rw [h]
@[simp] theorem logEvent_patchLoad (s : State) (a b : BitVec 16) (st : Status) (d : BitVec 24) :
    (logEvent s a b st d).patchLoad = s.patchLoad := by
  obtain ⟨l, n, f, h⟩ := logEvent_cases s a b st d
  rw [h]
@[simp] theorem logEvent_nonce (s : State) (a b : BitVec 16) (st : Status) (d : BitVec 24) :
    (logEvent s a b st d).nonce = s.nonce := by
  obtain ⟨l, n, f, h⟩ := logEvent_cases s a b st d
  rw [h]
@[simp] theorem logEvent_jtag (s : State) (a b : BitVec 16) (st : Status) (d : BitVec 24) :
    (logEvent s a b st d).jtag = s.jtag := by
  obtain ⟨l, n, f, h⟩ := logEvent_cases s a b st d
  rw [h]
@[simp] theorem logEvent_bar4 (s : State) (a b : BitVec 16) (st : Status) (d : BitVec 24) :
    (logEvent s a b st d).bar4 = s.bar4 := by
  obtain ⟨l, n, f, h⟩ := logEvent_cases s a b st d
  rw [h]
@[simp] theorem logEvent_bootPass (s : State) (a b : BitVec 16) (st : Status) (d : BitVec 24) :
    (logEvent s a b st d).bootPass = s.bootPass := by
  obtain ⟨l, n, f, h⟩ := logEvent_cases s a b st d
  rw [h]

@[simp] theorem sendMsix_pending (s : State) (v : BitVec 6) : (sendMsix s v).pending = s.pending := by
  unfold sendMsix
  split <;> rfl
@[simp] theorem sendMsix_mode (s : State) (v : BitVec 6) : (sendMsix s v).mode = s.mode := by
  unfold sendMsix
  split <;> rfl
@[simp] theorem sendMsix_free (s : State) (v : BitVec 6) : (sendMsix s v).free = s.free := by
  unfold sendMsix
  split <;> rfl
@[simp] theorem sendMsix_regs (s : State) (v : BitVec 6) : (sendMsix s v).regs = s.regs := by
  unfold sendMsix
  split <;> rfl
@[simp] theorem sendMsix_epoch (s : State) (v : BitVec 6) : (sendMsix s v).epoch = s.epoch := by
  unfold sendMsix
  split <;> rfl
@[simp] theorem sendMsix_log (s : State) (v : BitVec 6) : (sendMsix s v).log = s.log := by
  unfold sendMsix
  split <;> rfl
@[simp] theorem sendMsix_logNext (s : State) (v : BitVec 6) : (sendMsix s v).logNext = s.logNext := by
  unfold sendMsix
  split <;> rfl
@[simp] theorem sendMsix_logDone (s : State) (v : BitVec 6) : (sendMsix s v).logDone = s.logDone := by
  unfold sendMsix
  split <;> rfl
@[simp] theorem sendMsix_folded (s : State) (v : BitVec 6) : (sendMsix s v).folded = s.folded := by
  unfold sendMsix
  split <;> rfl
@[simp] theorem sendMsix_bows (s : State) (v : BitVec 6) : (sendMsix s v).bows = s.bows := by
  unfold sendMsix
  split <;> rfl
@[simp] theorem sendMsix_pe (s : State) (v : BitVec 6) : (sendMsix s v).pe = s.pe := by
  unfold sendMsix
  split <;> rfl
@[simp] theorem sendMsix_peErr (s : State) (v : BitVec 6) : (sendMsix s v).peErr = s.peErr := by
  unfold sendMsix
  split <;> rfl
@[simp] theorem sendMsix_scrErr (s : State) (v : BitVec 6) : (sendMsix s v).scrErr = s.scrErr := by
  unfold sendMsix
  split <;> rfl
@[simp] theorem sendMsix_courses (s : State) (v : BitVec 6) : (sendMsix s v).courses = s.courses := by
  unfold sendMsix
  split <;> rfl
@[simp] theorem sendMsix_pcourse (s : State) (v : BitVec 6) : (sendMsix s v).pcourse = s.pcourse := by
  unfold sendMsix
  split <;> rfl
@[simp] theorem sendMsix_lmap (s : State) (v : BitVec 6) : (sendMsix s v).lmap = s.lmap := by
  unfold sendMsix
  split <;> rfl
@[simp] theorem sendMsix_migration (s : State) (v : BitVec 6) : (sendMsix s v).migration = s.migration := by
  unfold sendMsix
  split <;> rfl
@[simp] theorem sendMsix_flight (s : State) (v : BitVec 6) : (sendMsix s v).flight = s.flight := by
  unfold sendMsix
  split <;> rfl
@[simp] theorem sendMsix_heldBack (s : State) (v : BitVec 6) : (sendMsix s v).heldBack = s.heldBack := by
  unfold sendMsix
  split <;> rfl
@[simp] theorem sendMsix_torus (s : State) (v : BitVec 6) : (sendMsix s v).torus = s.torus := by
  unfold sendMsix
  split <;> rfl
@[simp] theorem sendMsix_peers (s : State) (v : BitVec 6) : (sendMsix s v).peers = s.peers := by
  unfold sendMsix
  split <;> rfl
@[simp] theorem sendMsix_fp (s : State) (v : BitVec 6) : (sendMsix s v).fp = s.fp := by
  unfold sendMsix
  split <;> rfl
@[simp] theorem sendMsix_fabLoad (s : State) (v : BitVec 6) : (sendMsix s v).fabLoad = s.fabLoad := by
  unfold sendMsix
  split <;> rfl
@[simp] theorem sendMsix_fabGlobal (s : State) (v : BitVec 6) : (sendMsix s v).fabGlobal = s.fabGlobal := by
  unfold sendMsix
  split <;> rfl
@[simp] theorem sendMsix_fabLive (s : State) (v : BitVec 6) : (sendMsix s v).fabLive = s.fabLive := by
  unfold sendMsix
  split <;> rfl
@[simp] theorem sendMsix_snap (s : State) (v : BitVec 6) : (sendMsix s v).snap = s.snap := by
  unfold sendMsix
  split <;> rfl
@[simp] theorem sendMsix_fab (s : State) (v : BitVec 6) : (sendMsix s v).fab = s.fab := by
  unfold sendMsix
  split <;> rfl
@[simp] theorem sendMsix_store (s : State) (v : BitVec 6) : (sendMsix s v).store = s.store := by
  unfold sendMsix
  split <;> rfl
@[simp] theorem sendMsix_shadow (s : State) (v : BitVec 6) : (sendMsix s v).shadow = s.shadow := by
  unfold sendMsix
  split <;> rfl
@[simp] theorem sendMsix_storeErr (s : State) (v : BitVec 6) : (sendMsix s v).storeErr = s.storeErr := by
  unfold sendMsix
  split <;> rfl
@[simp] theorem sendMsix_lease (s : State) (v : BitVec 6) : (sendMsix s v).lease = s.lease := by
  unfold sendMsix
  split <;> rfl
@[simp] theorem sendMsix_scrubRow (s : State) (v : BitVec 6) : (sendMsix s v).scrubRow = s.scrubRow := by
  unfold sendMsix
  split <;> rfl
@[simp] theorem sendMsix_scrubLeft (s : State) (v : BitVec 6) : (sendMsix s v).scrubLeft = s.scrubLeft := by
  unfold sendMsix
  split <;> rfl
@[simp] theorem sendMsix_wipeEnd (s : State) (v : BitVec 6) : (sendMsix s v).wipeEnd = s.wipeEnd := by
  unfold sendMsix
  split <;> rfl
@[simp] theorem sendMsix_clearEnd (s : State) (v : BitVec 6) : (sendMsix s v).clearEnd = s.clearEnd := by
  unfold sendMsix
  split <;> rfl
@[simp] theorem sendMsix_dresult (s : State) (v : BitVec 6) : (sendMsix s v).dresult = s.dresult := by
  unfold sendMsix
  split <;> rfl
@[simp] theorem sendMsix_reconfig (s : State) (v : BitVec 6) : (sendMsix s v).reconfig = s.reconfig := by
  unfold sendMsix
  split <;> rfl
@[simp] theorem sendMsix_idMove (s : State) (v : BitVec 6) : (sendMsix s v).idMove = s.idMove := by
  unfold sendMsix
  split <;> rfl
@[simp] theorem sendMsix_host (s : State) (v : BitVec 6) : (sendMsix s v).host = s.host := by
  unfold sendMsix
  split <;> rfl
@[simp] theorem sendMsix_sq (s : State) (v : BitVec 6) : (sendMsix s v).sq = s.sq := by
  unfold sendMsix
  split <;> rfl
@[simp] theorem sendMsix_cq (s : State) (v : BitVec 6) : (sendMsix s v).cq = s.cq := by
  unfold sendMsix
  split <;> rfl
@[simp] theorem sendMsix_st (s : State) (v : BitVec 6) : (sendMsix s v).st = s.st := by
  unfold sendMsix
  split <;> rfl
@[simp] theorem sendMsix_accepted (s : State) (v : BitVec 6) : (sendMsix s v).accepted = s.accepted := by
  unfold sendMsix
  split <;> rfl
@[simp] theorem sendMsix_abortWaits (s : State) (v : BitVec 6) : (sendMsix s v).abortWaits = s.abortWaits := by
  unfold sendMsix
  split <;> rfl
@[simp] theorem sendMsix_movers (s : State) (v : BitVec 6) : (sendMsix s v).movers = s.movers := by
  unfold sendMsix
  split <;> rfl
@[simp] theorem sendMsix_ackWaits (s : State) (v : BitVec 6) : (sendMsix s v).ackWaits = s.ackWaits := by
  unfold sendMsix
  split <;> rfl
@[simp] theorem sendMsix_before (s : State) (v : BitVec 6) : (sendMsix s v).before = s.before := by
  unfold sendMsix
  split <;> rfl
@[simp] theorem sendMsix_guard (s : State) (v : BitVec 6) : (sendMsix s v).guard = s.guard := by
  unfold sendMsix
  split <;> rfl
@[simp] theorem sendMsix_refs (s : State) (v : BitVec 6) : (sendMsix s v).refs = s.refs := by
  unfold sendMsix
  split <;> rfl
@[simp] theorem sendMsix_sched (s : State) (v : BitVec 6) : (sendMsix s v).sched = s.sched := by
  unfold sendMsix
  split <;> rfl
@[simp] theorem sendMsix_nextArm (s : State) (v : BitVec 6) : (sendMsix s v).nextArm = s.nextArm := by
  unfold sendMsix
  split <;> rfl
@[simp] theorem sendMsix_timers (s : State) (v : BitVec 6) : (sendMsix s v).timers = s.timers := by
  unfold sendMsix
  split <;> rfl
@[simp] theorem sendMsix_ev (s : State) (v : BitVec 6) : (sendMsix s v).ev = s.ev := by
  unfold sendMsix
  split <;> rfl
@[simp] theorem sendMsix_pulse (s : State) (v : BitVec 6) : (sendMsix s v).pulse = s.pulse := by
  unfold sendMsix
  split <;> rfl
@[simp] theorem sendMsix_etio (s : State) (v : BitVec 6) : (sendMsix s v).etio = s.etio := by
  unfold sendMsix
  split <;> rfl
@[simp] theorem sendMsix_etioLive (s : State) (v : BitVec 6) : (sendMsix s v).etioLive = s.etioLive := by
  unfold sendMsix
  split <;> rfl
@[simp] theorem sendMsix_frac (s : State) (v : BitVec 6) : (sendMsix s v).frac = s.frac := by
  unfold sendMsix
  split <;> rfl
@[simp] theorem sendMsix_ppsRun (s : State) (v : BitVec 6) : (sendMsix s v).ppsRun = s.ppsRun := by
  unfold sendMsix
  split <;> rfl
@[simp] theorem sendMsix_ppsSeen (s : State) (v : BitVec 6) : (sendMsix s v).ppsSeen = s.ppsSeen := by
  unfold sendMsix
  split <;> rfl
@[simp] theorem sendMsix_faults (s : State) (v : BitVec 6) : (sendMsix s v).faults = s.faults := by
  unfold sendMsix
  split <;> rfl
@[simp] theorem sendMsix_bootFailed (s : State) (v : BitVec 6) : (sendMsix s v).bootFailed = s.bootFailed := by
  unfold sendMsix
  split <;> rfl
@[simp] theorem sendMsix_pins (s : State) (v : BitVec 6) : (sendMsix s v).pins = s.pins := by
  unfold sendMsix
  split <;> rfl
@[simp] theorem sendMsix_adminQ (s : State) (v : BitVec 6) : (sendMsix s v).adminQ = s.adminQ := by
  unfold sendMsix
  split <;> rfl
@[simp] theorem sendMsix_refused (s : State) (v : BitVec 6) : (sendMsix s v).refused = s.refused := by
  unfold sendMsix
  split <;> rfl
@[simp] theorem sendMsix_startup (s : State) (v : BitVec 6) : (sendMsix s v).startup = s.startup := by
  unfold sendMsix
  split <;> rfl
@[simp] theorem sendMsix_keysGone (s : State) (v : BitVec 6) : (sendMsix s v).keysGone = s.keysGone := by
  unfold sendMsix
  split <;> rfl
@[simp] theorem sendMsix_ownerCk (s : State) (v : BitVec 6) : (sendMsix s v).ownerCk = s.ownerCk := by
  unfold sendMsix
  split <;> rfl
@[simp] theorem sendMsix_ownerKey (s : State) (v : BitVec 6) : (sendMsix s v).ownerKey = s.ownerKey := by
  unfold sendMsix
  split <;> rfl
@[simp] theorem sendMsix_lcChanged (s : State) (v : BitVec 6) : (sendMsix s v).lcChanged = s.lcChanged := by
  unfold sendMsix
  split <;> rfl
@[simp] theorem sendMsix_vault (s : State) (v : BitVec 6) : (sendMsix s v).vault = s.vault := by
  unfold sendMsix
  split <;> rfl
@[simp] theorem sendMsix_firmware (s : State) (v : BitVec 6) : (sendMsix s v).firmware = s.firmware := by
  unfold sendMsix
  split <;> rfl
@[simp] theorem sendMsix_caldata (s : State) (v : BitVec 6) : (sendMsix s v).caldata = s.caldata := by
  unfold sendMsix
  split <;> rfl
@[simp] theorem sendMsix_forced (s : State) (v : BitVec 6) : (sendMsix s v).forced = s.forced := by
  unfold sendMsix
  split <;> rfl
@[simp] theorem sendMsix_fullBoot (s : State) (v : BitVec 6) : (sendMsix s v).fullBoot = s.fullBoot := by
  unfold sendMsix
  split <;> rfl
@[simp] theorem sendMsix_lifecycle (s : State) (v : BitVec 6) : (sendMsix s v).lifecycle = s.lifecycle := by
  unfold sendMsix
  split <;> rfl
@[simp] theorem sendMsix_keepLink (s : State) (v : BitVec 6) : (sendMsix s v).keepLink = s.keepLink := by
  unfold sendMsix
  split <;> rfl
@[simp] theorem sendMsix_policy (s : State) (v : BitVec 6) : (sendMsix s v).policy = s.policy := by
  unfold sendMsix
  split <;> rfl
@[simp] theorem sendMsix_passes (s : State) (v : BitVec 6) : (sendMsix s v).passes = s.passes := by
  unfold sendMsix
  split <;> rfl
@[simp] theorem sendMsix_tested (s : State) (v : BitVec 6) : (sendMsix s v).tested = s.tested := by
  unfold sendMsix
  split <;> rfl
@[simp] theorem sendMsix_highMs (s : State) (v : BitVec 6) : (sendMsix s v).highMs = s.highMs := by
  unfold sendMsix
  split <;> rfl
@[simp] theorem sendMsix_gaps (s : State) (v : BitVec 6) : (sendMsix s v).gaps = s.gaps := by
  unfold sendMsix
  split <;> rfl
@[simp] theorem sendMsix_margins (s : State) (v : BitVec 6) : (sendMsix s v).margins = s.margins := by
  unfold sendMsix
  split <;> rfl
@[simp] theorem sendMsix_brown (s : State) (v : BitVec 6) : (sendMsix s v).brown = s.brown := by
  unfold sendMsix
  split <;> rfl
@[simp] theorem sendMsix_adjacent (s : State) (v : BitVec 6) : (sendMsix s v).adjacent = s.adjacent := by
  unfold sendMsix
  split <;> rfl
@[simp] theorem sendMsix_lows (s : State) (v : BitVec 6) : (sendMsix s v).lows = s.lows := by
  unfold sendMsix
  split <;> rfl
@[simp] theorem sendMsix_uncorr (s : State) (v : BitVec 6) : (sendMsix s v).uncorr = s.uncorr := by
  unfold sendMsix
  split <;> rfl
@[simp] theorem sendMsix_corr (s : State) (v : BitVec 6) : (sendMsix s v).corr = s.corr := by
  unfold sendMsix
  split <;> rfl
@[simp] theorem sendMsix_fwSwitch (s : State) (v : BitVec 6) : (sendMsix s v).fwSwitch = s.fwSwitch := by
  unfold sendMsix
  split <;> rfl
@[simp] theorem sendMsix_watchdog (s : State) (v : BitVec 6) : (sendMsix s v).watchdog = s.watchdog := by
  unfold sendMsix
  split <;> rfl
@[simp] theorem sendMsix_patchLoad (s : State) (v : BitVec 6) : (sendMsix s v).patchLoad = s.patchLoad := by
  unfold sendMsix
  split <;> rfl
@[simp] theorem sendMsix_nonce (s : State) (v : BitVec 6) : (sendMsix s v).nonce = s.nonce := by
  unfold sendMsix
  split <;> rfl
@[simp] theorem sendMsix_jtag (s : State) (v : BitVec 6) : (sendMsix s v).jtag = s.jtag := by
  unfold sendMsix
  split <;> rfl
@[simp] theorem sendMsix_bar4 (s : State) (v : BitVec 6) : (sendMsix s v).bar4 = s.bar4 := by
  unfold sendMsix
  split <;> rfl
@[simp] theorem sendMsix_bootPass (s : State) (v : BitVec 6) : (sendMsix s v).bootPass = s.bootPass := by
  unfold sendMsix
  split <;> rfl

@[simp] theorem hifEvent_pending (s : State) (bit : Nat) : (hifEvent s bit).pending = s.pending := by
  obtain ⟨r, m, p, h⟩ := hifEvent_cases s bit
  rw [h]
@[simp] theorem hifEvent_mode (s : State) (bit : Nat) : (hifEvent s bit).mode = s.mode := by
  obtain ⟨r, m, p, h⟩ := hifEvent_cases s bit
  rw [h]
@[simp] theorem hifEvent_free (s : State) (bit : Nat) : (hifEvent s bit).free = s.free := by
  obtain ⟨r, m, p, h⟩ := hifEvent_cases s bit
  rw [h]
@[simp] theorem hifEvent_epoch (s : State) (bit : Nat) : (hifEvent s bit).epoch = s.epoch := by
  obtain ⟨r, m, p, h⟩ := hifEvent_cases s bit
  rw [h]
@[simp] theorem hifEvent_log (s : State) (bit : Nat) : (hifEvent s bit).log = s.log := by
  obtain ⟨r, m, p, h⟩ := hifEvent_cases s bit
  rw [h]
@[simp] theorem hifEvent_logNext (s : State) (bit : Nat) : (hifEvent s bit).logNext = s.logNext := by
  obtain ⟨r, m, p, h⟩ := hifEvent_cases s bit
  rw [h]
@[simp] theorem hifEvent_logDone (s : State) (bit : Nat) : (hifEvent s bit).logDone = s.logDone := by
  obtain ⟨r, m, p, h⟩ := hifEvent_cases s bit
  rw [h]
@[simp] theorem hifEvent_folded (s : State) (bit : Nat) : (hifEvent s bit).folded = s.folded := by
  obtain ⟨r, m, p, h⟩ := hifEvent_cases s bit
  rw [h]
@[simp] theorem hifEvent_bows (s : State) (bit : Nat) : (hifEvent s bit).bows = s.bows := by
  obtain ⟨r, m, p, h⟩ := hifEvent_cases s bit
  rw [h]
@[simp] theorem hifEvent_pe (s : State) (bit : Nat) : (hifEvent s bit).pe = s.pe := by
  obtain ⟨r, m, p, h⟩ := hifEvent_cases s bit
  rw [h]
@[simp] theorem hifEvent_peErr (s : State) (bit : Nat) : (hifEvent s bit).peErr = s.peErr := by
  obtain ⟨r, m, p, h⟩ := hifEvent_cases s bit
  rw [h]
@[simp] theorem hifEvent_scrErr (s : State) (bit : Nat) : (hifEvent s bit).scrErr = s.scrErr := by
  obtain ⟨r, m, p, h⟩ := hifEvent_cases s bit
  rw [h]
@[simp] theorem hifEvent_courses (s : State) (bit : Nat) : (hifEvent s bit).courses = s.courses := by
  obtain ⟨r, m, p, h⟩ := hifEvent_cases s bit
  rw [h]
@[simp] theorem hifEvent_pcourse (s : State) (bit : Nat) : (hifEvent s bit).pcourse = s.pcourse := by
  obtain ⟨r, m, p, h⟩ := hifEvent_cases s bit
  rw [h]
@[simp] theorem hifEvent_lmap (s : State) (bit : Nat) : (hifEvent s bit).lmap = s.lmap := by
  obtain ⟨r, m, p, h⟩ := hifEvent_cases s bit
  rw [h]
@[simp] theorem hifEvent_migration (s : State) (bit : Nat) : (hifEvent s bit).migration = s.migration := by
  obtain ⟨r, m, p, h⟩ := hifEvent_cases s bit
  rw [h]
@[simp] theorem hifEvent_flight (s : State) (bit : Nat) : (hifEvent s bit).flight = s.flight := by
  obtain ⟨r, m, p, h⟩ := hifEvent_cases s bit
  rw [h]
@[simp] theorem hifEvent_heldBack (s : State) (bit : Nat) : (hifEvent s bit).heldBack = s.heldBack := by
  obtain ⟨r, m, p, h⟩ := hifEvent_cases s bit
  rw [h]
@[simp] theorem hifEvent_torus (s : State) (bit : Nat) : (hifEvent s bit).torus = s.torus := by
  obtain ⟨r, m, p, h⟩ := hifEvent_cases s bit
  rw [h]
@[simp] theorem hifEvent_peers (s : State) (bit : Nat) : (hifEvent s bit).peers = s.peers := by
  obtain ⟨r, m, p, h⟩ := hifEvent_cases s bit
  rw [h]
@[simp] theorem hifEvent_fp (s : State) (bit : Nat) : (hifEvent s bit).fp = s.fp := by
  obtain ⟨r, m, p, h⟩ := hifEvent_cases s bit
  rw [h]
@[simp] theorem hifEvent_fabLoad (s : State) (bit : Nat) : (hifEvent s bit).fabLoad = s.fabLoad := by
  obtain ⟨r, m, p, h⟩ := hifEvent_cases s bit
  rw [h]
@[simp] theorem hifEvent_fabGlobal (s : State) (bit : Nat) : (hifEvent s bit).fabGlobal = s.fabGlobal := by
  obtain ⟨r, m, p, h⟩ := hifEvent_cases s bit
  rw [h]
@[simp] theorem hifEvent_fabLive (s : State) (bit : Nat) : (hifEvent s bit).fabLive = s.fabLive := by
  obtain ⟨r, m, p, h⟩ := hifEvent_cases s bit
  rw [h]
@[simp] theorem hifEvent_snap (s : State) (bit : Nat) : (hifEvent s bit).snap = s.snap := by
  obtain ⟨r, m, p, h⟩ := hifEvent_cases s bit
  rw [h]
@[simp] theorem hifEvent_fab (s : State) (bit : Nat) : (hifEvent s bit).fab = s.fab := by
  obtain ⟨r, m, p, h⟩ := hifEvent_cases s bit
  rw [h]
@[simp] theorem hifEvent_store (s : State) (bit : Nat) : (hifEvent s bit).store = s.store := by
  obtain ⟨r, m, p, h⟩ := hifEvent_cases s bit
  rw [h]
@[simp] theorem hifEvent_shadow (s : State) (bit : Nat) : (hifEvent s bit).shadow = s.shadow := by
  obtain ⟨r, m, p, h⟩ := hifEvent_cases s bit
  rw [h]
@[simp] theorem hifEvent_storeErr (s : State) (bit : Nat) : (hifEvent s bit).storeErr = s.storeErr := by
  obtain ⟨r, m, p, h⟩ := hifEvent_cases s bit
  rw [h]
@[simp] theorem hifEvent_lease (s : State) (bit : Nat) : (hifEvent s bit).lease = s.lease := by
  obtain ⟨r, m, p, h⟩ := hifEvent_cases s bit
  rw [h]
@[simp] theorem hifEvent_scrubRow (s : State) (bit : Nat) : (hifEvent s bit).scrubRow = s.scrubRow := by
  obtain ⟨r, m, p, h⟩ := hifEvent_cases s bit
  rw [h]
@[simp] theorem hifEvent_scrubLeft (s : State) (bit : Nat) : (hifEvent s bit).scrubLeft = s.scrubLeft := by
  obtain ⟨r, m, p, h⟩ := hifEvent_cases s bit
  rw [h]
@[simp] theorem hifEvent_wipeEnd (s : State) (bit : Nat) : (hifEvent s bit).wipeEnd = s.wipeEnd := by
  obtain ⟨r, m, p, h⟩ := hifEvent_cases s bit
  rw [h]
@[simp] theorem hifEvent_clearEnd (s : State) (bit : Nat) : (hifEvent s bit).clearEnd = s.clearEnd := by
  obtain ⟨r, m, p, h⟩ := hifEvent_cases s bit
  rw [h]
@[simp] theorem hifEvent_dresult (s : State) (bit : Nat) : (hifEvent s bit).dresult = s.dresult := by
  obtain ⟨r, m, p, h⟩ := hifEvent_cases s bit
  rw [h]
@[simp] theorem hifEvent_reconfig (s : State) (bit : Nat) : (hifEvent s bit).reconfig = s.reconfig := by
  obtain ⟨r, m, p, h⟩ := hifEvent_cases s bit
  rw [h]
@[simp] theorem hifEvent_idMove (s : State) (bit : Nat) : (hifEvent s bit).idMove = s.idMove := by
  obtain ⟨r, m, p, h⟩ := hifEvent_cases s bit
  rw [h]
@[simp] theorem hifEvent_host (s : State) (bit : Nat) : (hifEvent s bit).host = s.host := by
  obtain ⟨r, m, p, h⟩ := hifEvent_cases s bit
  rw [h]
@[simp] theorem hifEvent_sq (s : State) (bit : Nat) : (hifEvent s bit).sq = s.sq := by
  obtain ⟨r, m, p, h⟩ := hifEvent_cases s bit
  rw [h]
@[simp] theorem hifEvent_cq (s : State) (bit : Nat) : (hifEvent s bit).cq = s.cq := by
  obtain ⟨r, m, p, h⟩ := hifEvent_cases s bit
  rw [h]
@[simp] theorem hifEvent_st (s : State) (bit : Nat) : (hifEvent s bit).st = s.st := by
  obtain ⟨r, m, p, h⟩ := hifEvent_cases s bit
  rw [h]
@[simp] theorem hifEvent_accepted (s : State) (bit : Nat) : (hifEvent s bit).accepted = s.accepted := by
  obtain ⟨r, m, p, h⟩ := hifEvent_cases s bit
  rw [h]
@[simp] theorem hifEvent_abortWaits (s : State) (bit : Nat) : (hifEvent s bit).abortWaits = s.abortWaits := by
  obtain ⟨r, m, p, h⟩ := hifEvent_cases s bit
  rw [h]
@[simp] theorem hifEvent_movers (s : State) (bit : Nat) : (hifEvent s bit).movers = s.movers := by
  obtain ⟨r, m, p, h⟩ := hifEvent_cases s bit
  rw [h]
@[simp] theorem hifEvent_ackWaits (s : State) (bit : Nat) : (hifEvent s bit).ackWaits = s.ackWaits := by
  obtain ⟨r, m, p, h⟩ := hifEvent_cases s bit
  rw [h]
@[simp] theorem hifEvent_before (s : State) (bit : Nat) : (hifEvent s bit).before = s.before := by
  obtain ⟨r, m, p, h⟩ := hifEvent_cases s bit
  rw [h]
@[simp] theorem hifEvent_guard (s : State) (bit : Nat) : (hifEvent s bit).guard = s.guard := by
  obtain ⟨r, m, p, h⟩ := hifEvent_cases s bit
  rw [h]
@[simp] theorem hifEvent_refs (s : State) (bit : Nat) : (hifEvent s bit).refs = s.refs := by
  obtain ⟨r, m, p, h⟩ := hifEvent_cases s bit
  rw [h]
@[simp] theorem hifEvent_sched (s : State) (bit : Nat) : (hifEvent s bit).sched = s.sched := by
  obtain ⟨r, m, p, h⟩ := hifEvent_cases s bit
  rw [h]
@[simp] theorem hifEvent_nextArm (s : State) (bit : Nat) : (hifEvent s bit).nextArm = s.nextArm := by
  obtain ⟨r, m, p, h⟩ := hifEvent_cases s bit
  rw [h]
@[simp] theorem hifEvent_timers (s : State) (bit : Nat) : (hifEvent s bit).timers = s.timers := by
  obtain ⟨r, m, p, h⟩ := hifEvent_cases s bit
  rw [h]
@[simp] theorem hifEvent_ev (s : State) (bit : Nat) : (hifEvent s bit).ev = s.ev := by
  obtain ⟨r, m, p, h⟩ := hifEvent_cases s bit
  rw [h]
@[simp] theorem hifEvent_pulse (s : State) (bit : Nat) : (hifEvent s bit).pulse = s.pulse := by
  obtain ⟨r, m, p, h⟩ := hifEvent_cases s bit
  rw [h]
@[simp] theorem hifEvent_etio (s : State) (bit : Nat) : (hifEvent s bit).etio = s.etio := by
  obtain ⟨r, m, p, h⟩ := hifEvent_cases s bit
  rw [h]
@[simp] theorem hifEvent_etioLive (s : State) (bit : Nat) : (hifEvent s bit).etioLive = s.etioLive := by
  obtain ⟨r, m, p, h⟩ := hifEvent_cases s bit
  rw [h]
@[simp] theorem hifEvent_frac (s : State) (bit : Nat) : (hifEvent s bit).frac = s.frac := by
  obtain ⟨r, m, p, h⟩ := hifEvent_cases s bit
  rw [h]
@[simp] theorem hifEvent_ppsRun (s : State) (bit : Nat) : (hifEvent s bit).ppsRun = s.ppsRun := by
  obtain ⟨r, m, p, h⟩ := hifEvent_cases s bit
  rw [h]
@[simp] theorem hifEvent_ppsSeen (s : State) (bit : Nat) : (hifEvent s bit).ppsSeen = s.ppsSeen := by
  obtain ⟨r, m, p, h⟩ := hifEvent_cases s bit
  rw [h]
@[simp] theorem hifEvent_faults (s : State) (bit : Nat) : (hifEvent s bit).faults = s.faults := by
  obtain ⟨r, m, p, h⟩ := hifEvent_cases s bit
  rw [h]
@[simp] theorem hifEvent_bootFailed (s : State) (bit : Nat) : (hifEvent s bit).bootFailed = s.bootFailed := by
  obtain ⟨r, m, p, h⟩ := hifEvent_cases s bit
  rw [h]
@[simp] theorem hifEvent_pins (s : State) (bit : Nat) : (hifEvent s bit).pins = s.pins := by
  obtain ⟨r, m, p, h⟩ := hifEvent_cases s bit
  rw [h]
@[simp] theorem hifEvent_adminQ (s : State) (bit : Nat) : (hifEvent s bit).adminQ = s.adminQ := by
  obtain ⟨r, m, p, h⟩ := hifEvent_cases s bit
  rw [h]
@[simp] theorem hifEvent_refused (s : State) (bit : Nat) : (hifEvent s bit).refused = s.refused := by
  obtain ⟨r, m, p, h⟩ := hifEvent_cases s bit
  rw [h]
@[simp] theorem hifEvent_startup (s : State) (bit : Nat) : (hifEvent s bit).startup = s.startup := by
  obtain ⟨r, m, p, h⟩ := hifEvent_cases s bit
  rw [h]
@[simp] theorem hifEvent_keysGone (s : State) (bit : Nat) : (hifEvent s bit).keysGone = s.keysGone := by
  obtain ⟨r, m, p, h⟩ := hifEvent_cases s bit
  rw [h]
@[simp] theorem hifEvent_ownerCk (s : State) (bit : Nat) : (hifEvent s bit).ownerCk = s.ownerCk := by
  obtain ⟨r, m, p, h⟩ := hifEvent_cases s bit
  rw [h]
@[simp] theorem hifEvent_ownerKey (s : State) (bit : Nat) : (hifEvent s bit).ownerKey = s.ownerKey := by
  obtain ⟨r, m, p, h⟩ := hifEvent_cases s bit
  rw [h]
@[simp] theorem hifEvent_lcChanged (s : State) (bit : Nat) : (hifEvent s bit).lcChanged = s.lcChanged := by
  obtain ⟨r, m, p, h⟩ := hifEvent_cases s bit
  rw [h]
@[simp] theorem hifEvent_vault (s : State) (bit : Nat) : (hifEvent s bit).vault = s.vault := by
  obtain ⟨r, m, p, h⟩ := hifEvent_cases s bit
  rw [h]
@[simp] theorem hifEvent_firmware (s : State) (bit : Nat) : (hifEvent s bit).firmware = s.firmware := by
  obtain ⟨r, m, p, h⟩ := hifEvent_cases s bit
  rw [h]
@[simp] theorem hifEvent_caldata (s : State) (bit : Nat) : (hifEvent s bit).caldata = s.caldata := by
  obtain ⟨r, m, p, h⟩ := hifEvent_cases s bit
  rw [h]
@[simp] theorem hifEvent_forced (s : State) (bit : Nat) : (hifEvent s bit).forced = s.forced := by
  obtain ⟨r, m, p, h⟩ := hifEvent_cases s bit
  rw [h]
@[simp] theorem hifEvent_fullBoot (s : State) (bit : Nat) : (hifEvent s bit).fullBoot = s.fullBoot := by
  obtain ⟨r, m, p, h⟩ := hifEvent_cases s bit
  rw [h]
@[simp] theorem hifEvent_lifecycle (s : State) (bit : Nat) : (hifEvent s bit).lifecycle = s.lifecycle := by
  obtain ⟨r, m, p, h⟩ := hifEvent_cases s bit
  rw [h]
@[simp] theorem hifEvent_keepLink (s : State) (bit : Nat) : (hifEvent s bit).keepLink = s.keepLink := by
  obtain ⟨r, m, p, h⟩ := hifEvent_cases s bit
  rw [h]
@[simp] theorem hifEvent_policy (s : State) (bit : Nat) : (hifEvent s bit).policy = s.policy := by
  obtain ⟨r, m, p, h⟩ := hifEvent_cases s bit
  rw [h]
@[simp] theorem hifEvent_passes (s : State) (bit : Nat) : (hifEvent s bit).passes = s.passes := by
  obtain ⟨r, m, p, h⟩ := hifEvent_cases s bit
  rw [h]
@[simp] theorem hifEvent_tested (s : State) (bit : Nat) : (hifEvent s bit).tested = s.tested := by
  obtain ⟨r, m, p, h⟩ := hifEvent_cases s bit
  rw [h]
@[simp] theorem hifEvent_highMs (s : State) (bit : Nat) : (hifEvent s bit).highMs = s.highMs := by
  obtain ⟨r, m, p, h⟩ := hifEvent_cases s bit
  rw [h]
@[simp] theorem hifEvent_gaps (s : State) (bit : Nat) : (hifEvent s bit).gaps = s.gaps := by
  obtain ⟨r, m, p, h⟩ := hifEvent_cases s bit
  rw [h]
@[simp] theorem hifEvent_margins (s : State) (bit : Nat) : (hifEvent s bit).margins = s.margins := by
  obtain ⟨r, m, p, h⟩ := hifEvent_cases s bit
  rw [h]
@[simp] theorem hifEvent_brown (s : State) (bit : Nat) : (hifEvent s bit).brown = s.brown := by
  obtain ⟨r, m, p, h⟩ := hifEvent_cases s bit
  rw [h]
@[simp] theorem hifEvent_adjacent (s : State) (bit : Nat) : (hifEvent s bit).adjacent = s.adjacent := by
  obtain ⟨r, m, p, h⟩ := hifEvent_cases s bit
  rw [h]
@[simp] theorem hifEvent_lows (s : State) (bit : Nat) : (hifEvent s bit).lows = s.lows := by
  obtain ⟨r, m, p, h⟩ := hifEvent_cases s bit
  rw [h]
@[simp] theorem hifEvent_uncorr (s : State) (bit : Nat) : (hifEvent s bit).uncorr = s.uncorr := by
  obtain ⟨r, m, p, h⟩ := hifEvent_cases s bit
  rw [h]
@[simp] theorem hifEvent_corr (s : State) (bit : Nat) : (hifEvent s bit).corr = s.corr := by
  obtain ⟨r, m, p, h⟩ := hifEvent_cases s bit
  rw [h]
@[simp] theorem hifEvent_fwSwitch (s : State) (bit : Nat) : (hifEvent s bit).fwSwitch = s.fwSwitch := by
  obtain ⟨r, m, p, h⟩ := hifEvent_cases s bit
  rw [h]
@[simp] theorem hifEvent_watchdog (s : State) (bit : Nat) : (hifEvent s bit).watchdog = s.watchdog := by
  obtain ⟨r, m, p, h⟩ := hifEvent_cases s bit
  rw [h]
@[simp] theorem hifEvent_patchLoad (s : State) (bit : Nat) : (hifEvent s bit).patchLoad = s.patchLoad := by
  obtain ⟨r, m, p, h⟩ := hifEvent_cases s bit
  rw [h]
@[simp] theorem hifEvent_nonce (s : State) (bit : Nat) : (hifEvent s bit).nonce = s.nonce := by
  obtain ⟨r, m, p, h⟩ := hifEvent_cases s bit
  rw [h]
@[simp] theorem hifEvent_jtag (s : State) (bit : Nat) : (hifEvent s bit).jtag = s.jtag := by
  obtain ⟨r, m, p, h⟩ := hifEvent_cases s bit
  rw [h]
@[simp] theorem hifEvent_bar4 (s : State) (bit : Nat) : (hifEvent s bit).bar4 = s.bar4 := by
  obtain ⟨r, m, p, h⟩ := hifEvent_cases s bit
  rw [h]
@[simp] theorem hifEvent_bootPass (s : State) (bit : Nat) : (hifEvent s bit).bootPass = s.bootPass := by
  obtain ⟨r, m, p, h⟩ := hifEvent_cases s bit
  rw [h]

@[simp] theorem setMode_pending (s : State) (m : Mode) : (setMode s m).pending = s.pending := by
  obtain ⟨a, b, c, d, e, f, g, h, he⟩ := setMode_cases s m
  rw [he]
@[simp] theorem setMode_free (s : State) (m : Mode) : (setMode s m).free = s.free := by
  obtain ⟨a, b, c, d, e, f, g, h, he⟩ := setMode_cases s m
  rw [he]
@[simp] theorem setMode_epoch (s : State) (m : Mode) : (setMode s m).epoch = s.epoch := by
  obtain ⟨a, b, c, d, e, f, g, h, he⟩ := setMode_cases s m
  rw [he]
@[simp] theorem setMode_logDone (s : State) (m : Mode) : (setMode s m).logDone = s.logDone := by
  obtain ⟨a, b, c, d, e, f, g, h, he⟩ := setMode_cases s m
  rw [he]
@[simp] theorem setMode_bows (s : State) (m : Mode) : (setMode s m).bows = s.bows := by
  obtain ⟨a, b, c, d, e, f, g, h, he⟩ := setMode_cases s m
  rw [he]
@[simp] theorem setMode_pe (s : State) (m : Mode) : (setMode s m).pe = s.pe := by
  obtain ⟨a, b, c, d, e, f, g, h, he⟩ := setMode_cases s m
  rw [he]
@[simp] theorem setMode_peErr (s : State) (m : Mode) : (setMode s m).peErr = s.peErr := by
  obtain ⟨a, b, c, d, e, f, g, h, he⟩ := setMode_cases s m
  rw [he]
@[simp] theorem setMode_scrErr (s : State) (m : Mode) : (setMode s m).scrErr = s.scrErr := by
  obtain ⟨a, b, c, d, e, f, g, h, he⟩ := setMode_cases s m
  rw [he]
@[simp] theorem setMode_courses (s : State) (m : Mode) : (setMode s m).courses = s.courses := by
  obtain ⟨a, b, c, d, e, f, g, h, he⟩ := setMode_cases s m
  rw [he]
@[simp] theorem setMode_pcourse (s : State) (m : Mode) : (setMode s m).pcourse = s.pcourse := by
  obtain ⟨a, b, c, d, e, f, g, h, he⟩ := setMode_cases s m
  rw [he]
@[simp] theorem setMode_lmap (s : State) (m : Mode) : (setMode s m).lmap = s.lmap := by
  obtain ⟨a, b, c, d, e, f, g, h, he⟩ := setMode_cases s m
  rw [he]
@[simp] theorem setMode_migration (s : State) (m : Mode) : (setMode s m).migration = s.migration := by
  obtain ⟨a, b, c, d, e, f, g, h, he⟩ := setMode_cases s m
  rw [he]
@[simp] theorem setMode_flight (s : State) (m : Mode) : (setMode s m).flight = s.flight := by
  obtain ⟨a, b, c, d, e, f, g, h, he⟩ := setMode_cases s m
  rw [he]
@[simp] theorem setMode_heldBack (s : State) (m : Mode) : (setMode s m).heldBack = s.heldBack := by
  obtain ⟨a, b, c, d, e, f, g, h, he⟩ := setMode_cases s m
  rw [he]
@[simp] theorem setMode_torus (s : State) (m : Mode) : (setMode s m).torus = s.torus := by
  obtain ⟨a, b, c, d, e, f, g, h, he⟩ := setMode_cases s m
  rw [he]
@[simp] theorem setMode_peers (s : State) (m : Mode) : (setMode s m).peers = s.peers := by
  obtain ⟨a, b, c, d, e, f, g, h, he⟩ := setMode_cases s m
  rw [he]
@[simp] theorem setMode_fp (s : State) (m : Mode) : (setMode s m).fp = s.fp := by
  obtain ⟨a, b, c, d, e, f, g, h, he⟩ := setMode_cases s m
  rw [he]
@[simp] theorem setMode_fabLoad (s : State) (m : Mode) : (setMode s m).fabLoad = s.fabLoad := by
  obtain ⟨a, b, c, d, e, f, g, h, he⟩ := setMode_cases s m
  rw [he]
@[simp] theorem setMode_fabGlobal (s : State) (m : Mode) : (setMode s m).fabGlobal = s.fabGlobal := by
  obtain ⟨a, b, c, d, e, f, g, h, he⟩ := setMode_cases s m
  rw [he]
@[simp] theorem setMode_fabLive (s : State) (m : Mode) : (setMode s m).fabLive = s.fabLive := by
  obtain ⟨a, b, c, d, e, f, g, h, he⟩ := setMode_cases s m
  rw [he]
@[simp] theorem setMode_snap (s : State) (m : Mode) : (setMode s m).snap = s.snap := by
  obtain ⟨a, b, c, d, e, f, g, h, he⟩ := setMode_cases s m
  rw [he]
@[simp] theorem setMode_fab (s : State) (m : Mode) : (setMode s m).fab = s.fab := by
  obtain ⟨a, b, c, d, e, f, g, h, he⟩ := setMode_cases s m
  rw [he]
@[simp] theorem setMode_store (s : State) (m : Mode) : (setMode s m).store = s.store := by
  obtain ⟨a, b, c, d, e, f, g, h, he⟩ := setMode_cases s m
  rw [he]
@[simp] theorem setMode_shadow (s : State) (m : Mode) : (setMode s m).shadow = s.shadow := by
  obtain ⟨a, b, c, d, e, f, g, h, he⟩ := setMode_cases s m
  rw [he]
@[simp] theorem setMode_storeErr (s : State) (m : Mode) : (setMode s m).storeErr = s.storeErr := by
  obtain ⟨a, b, c, d, e, f, g, h, he⟩ := setMode_cases s m
  rw [he]
@[simp] theorem setMode_lease (s : State) (m : Mode) : (setMode s m).lease = s.lease := by
  obtain ⟨a, b, c, d, e, f, g, h, he⟩ := setMode_cases s m
  rw [he]
@[simp] theorem setMode_scrubRow (s : State) (m : Mode) : (setMode s m).scrubRow = s.scrubRow := by
  obtain ⟨a, b, c, d, e, f, g, h, he⟩ := setMode_cases s m
  rw [he]
@[simp] theorem setMode_scrubLeft (s : State) (m : Mode) : (setMode s m).scrubLeft = s.scrubLeft := by
  obtain ⟨a, b, c, d, e, f, g, h, he⟩ := setMode_cases s m
  rw [he]
@[simp] theorem setMode_wipeEnd (s : State) (m : Mode) : (setMode s m).wipeEnd = s.wipeEnd := by
  obtain ⟨a, b, c, d, e, f, g, h, he⟩ := setMode_cases s m
  rw [he]
@[simp] theorem setMode_clearEnd (s : State) (m : Mode) : (setMode s m).clearEnd = s.clearEnd := by
  obtain ⟨a, b, c, d, e, f, g, h, he⟩ := setMode_cases s m
  rw [he]
@[simp] theorem setMode_dresult (s : State) (m : Mode) : (setMode s m).dresult = s.dresult := by
  obtain ⟨a, b, c, d, e, f, g, h, he⟩ := setMode_cases s m
  rw [he]
@[simp] theorem setMode_reconfig (s : State) (m : Mode) : (setMode s m).reconfig = s.reconfig := by
  obtain ⟨a, b, c, d, e, f, g, h, he⟩ := setMode_cases s m
  rw [he]
@[simp] theorem setMode_idMove (s : State) (m : Mode) : (setMode s m).idMove = s.idMove := by
  obtain ⟨a, b, c, d, e, f, g, h, he⟩ := setMode_cases s m
  rw [he]
@[simp] theorem setMode_host (s : State) (m : Mode) : (setMode s m).host = s.host := by
  obtain ⟨a, b, c, d, e, f, g, h, he⟩ := setMode_cases s m
  rw [he]
@[simp] theorem setMode_sq (s : State) (m : Mode) : (setMode s m).sq = s.sq := by
  obtain ⟨a, b, c, d, e, f, g, h, he⟩ := setMode_cases s m
  rw [he]
@[simp] theorem setMode_cq (s : State) (m : Mode) : (setMode s m).cq = s.cq := by
  obtain ⟨a, b, c, d, e, f, g, h, he⟩ := setMode_cases s m
  rw [he]
@[simp] theorem setMode_st (s : State) (m : Mode) : (setMode s m).st = s.st := by
  obtain ⟨a, b, c, d, e, f, g, h, he⟩ := setMode_cases s m
  rw [he]
@[simp] theorem setMode_accepted (s : State) (m : Mode) : (setMode s m).accepted = s.accepted := by
  obtain ⟨a, b, c, d, e, f, g, h, he⟩ := setMode_cases s m
  rw [he]
@[simp] theorem setMode_abortWaits (s : State) (m : Mode) : (setMode s m).abortWaits = s.abortWaits := by
  obtain ⟨a, b, c, d, e, f, g, h, he⟩ := setMode_cases s m
  rw [he]
@[simp] theorem setMode_movers (s : State) (m : Mode) : (setMode s m).movers = s.movers := by
  obtain ⟨a, b, c, d, e, f, g, h, he⟩ := setMode_cases s m
  rw [he]
@[simp] theorem setMode_ackWaits (s : State) (m : Mode) : (setMode s m).ackWaits = s.ackWaits := by
  obtain ⟨a, b, c, d, e, f, g, h, he⟩ := setMode_cases s m
  rw [he]
@[simp] theorem setMode_before (s : State) (m : Mode) : (setMode s m).before = s.before := by
  obtain ⟨a, b, c, d, e, f, g, h, he⟩ := setMode_cases s m
  rw [he]
@[simp] theorem setMode_guard (s : State) (m : Mode) : (setMode s m).guard = s.guard := by
  obtain ⟨a, b, c, d, e, f, g, h, he⟩ := setMode_cases s m
  rw [he]
@[simp] theorem setMode_refs (s : State) (m : Mode) : (setMode s m).refs = s.refs := by
  obtain ⟨a, b, c, d, e, f, g, h, he⟩ := setMode_cases s m
  rw [he]
@[simp] theorem setMode_sched (s : State) (m : Mode) : (setMode s m).sched = s.sched := by
  obtain ⟨a, b, c, d, e, f, g, h, he⟩ := setMode_cases s m
  rw [he]
@[simp] theorem setMode_nextArm (s : State) (m : Mode) : (setMode s m).nextArm = s.nextArm := by
  obtain ⟨a, b, c, d, e, f, g, h, he⟩ := setMode_cases s m
  rw [he]
@[simp] theorem setMode_timers (s : State) (m : Mode) : (setMode s m).timers = s.timers := by
  obtain ⟨a, b, c, d, e, f, g, h, he⟩ := setMode_cases s m
  rw [he]
@[simp] theorem setMode_ev (s : State) (m : Mode) : (setMode s m).ev = s.ev := by
  obtain ⟨a, b, c, d, e, f, g, h, he⟩ := setMode_cases s m
  rw [he]
@[simp] theorem setMode_pulse (s : State) (m : Mode) : (setMode s m).pulse = s.pulse := by
  obtain ⟨a, b, c, d, e, f, g, h, he⟩ := setMode_cases s m
  rw [he]
@[simp] theorem setMode_etio (s : State) (m : Mode) : (setMode s m).etio = s.etio := by
  obtain ⟨a, b, c, d, e, f, g, h, he⟩ := setMode_cases s m
  rw [he]
@[simp] theorem setMode_etioLive (s : State) (m : Mode) : (setMode s m).etioLive = s.etioLive := by
  obtain ⟨a, b, c, d, e, f, g, h, he⟩ := setMode_cases s m
  rw [he]
@[simp] theorem setMode_frac (s : State) (m : Mode) : (setMode s m).frac = s.frac := by
  obtain ⟨a, b, c, d, e, f, g, h, he⟩ := setMode_cases s m
  rw [he]
@[simp] theorem setMode_ppsRun (s : State) (m : Mode) : (setMode s m).ppsRun = s.ppsRun := by
  obtain ⟨a, b, c, d, e, f, g, h, he⟩ := setMode_cases s m
  rw [he]
@[simp] theorem setMode_ppsSeen (s : State) (m : Mode) : (setMode s m).ppsSeen = s.ppsSeen := by
  obtain ⟨a, b, c, d, e, f, g, h, he⟩ := setMode_cases s m
  rw [he]
@[simp] theorem setMode_faults (s : State) (m : Mode) : (setMode s m).faults = s.faults := by
  obtain ⟨a, b, c, d, e, f, g, h, he⟩ := setMode_cases s m
  rw [he]
@[simp] theorem setMode_bootFailed (s : State) (m : Mode) : (setMode s m).bootFailed = s.bootFailed := by
  obtain ⟨a, b, c, d, e, f, g, h, he⟩ := setMode_cases s m
  rw [he]
@[simp] theorem setMode_adminQ (s : State) (m : Mode) : (setMode s m).adminQ = s.adminQ := by
  obtain ⟨a, b, c, d, e, f, g, h, he⟩ := setMode_cases s m
  rw [he]
@[simp] theorem setMode_refused (s : State) (m : Mode) : (setMode s m).refused = s.refused := by
  obtain ⟨a, b, c, d, e, f, g, h, he⟩ := setMode_cases s m
  rw [he]
@[simp] theorem setMode_startup (s : State) (m : Mode) : (setMode s m).startup = s.startup := by
  obtain ⟨a, b, c, d, e, f, g, h, he⟩ := setMode_cases s m
  rw [he]
@[simp] theorem setMode_keysGone (s : State) (m : Mode) : (setMode s m).keysGone = s.keysGone := by
  obtain ⟨a, b, c, d, e, f, g, h, he⟩ := setMode_cases s m
  rw [he]
@[simp] theorem setMode_ownerCk (s : State) (m : Mode) : (setMode s m).ownerCk = s.ownerCk := by
  obtain ⟨a, b, c, d, e, f, g, h, he⟩ := setMode_cases s m
  rw [he]
@[simp] theorem setMode_ownerKey (s : State) (m : Mode) : (setMode s m).ownerKey = s.ownerKey := by
  obtain ⟨a, b, c, d, e, f, g, h, he⟩ := setMode_cases s m
  rw [he]
@[simp] theorem setMode_lcChanged (s : State) (m : Mode) : (setMode s m).lcChanged = s.lcChanged := by
  obtain ⟨a, b, c, d, e, f, g, h, he⟩ := setMode_cases s m
  rw [he]
@[simp] theorem setMode_vault (s : State) (m : Mode) : (setMode s m).vault = s.vault := by
  obtain ⟨a, b, c, d, e, f, g, h, he⟩ := setMode_cases s m
  rw [he]
@[simp] theorem setMode_firmware (s : State) (m : Mode) : (setMode s m).firmware = s.firmware := by
  obtain ⟨a, b, c, d, e, f, g, h, he⟩ := setMode_cases s m
  rw [he]
@[simp] theorem setMode_caldata (s : State) (m : Mode) : (setMode s m).caldata = s.caldata := by
  obtain ⟨a, b, c, d, e, f, g, h, he⟩ := setMode_cases s m
  rw [he]
@[simp] theorem setMode_forced (s : State) (m : Mode) : (setMode s m).forced = s.forced := by
  obtain ⟨a, b, c, d, e, f, g, h, he⟩ := setMode_cases s m
  rw [he]
@[simp] theorem setMode_fullBoot (s : State) (m : Mode) : (setMode s m).fullBoot = s.fullBoot := by
  obtain ⟨a, b, c, d, e, f, g, h, he⟩ := setMode_cases s m
  rw [he]
@[simp] theorem setMode_lifecycle (s : State) (m : Mode) : (setMode s m).lifecycle = s.lifecycle := by
  obtain ⟨a, b, c, d, e, f, g, h, he⟩ := setMode_cases s m
  rw [he]
@[simp] theorem setMode_keepLink (s : State) (m : Mode) : (setMode s m).keepLink = s.keepLink := by
  obtain ⟨a, b, c, d, e, f, g, h, he⟩ := setMode_cases s m
  rw [he]
@[simp] theorem setMode_policy (s : State) (m : Mode) : (setMode s m).policy = s.policy := by
  obtain ⟨a, b, c, d, e, f, g, h, he⟩ := setMode_cases s m
  rw [he]
@[simp] theorem setMode_passes (s : State) (m : Mode) : (setMode s m).passes = s.passes := by
  obtain ⟨a, b, c, d, e, f, g, h, he⟩ := setMode_cases s m
  rw [he]
@[simp] theorem setMode_tested (s : State) (m : Mode) : (setMode s m).tested = s.tested := by
  obtain ⟨a, b, c, d, e, f, g, h, he⟩ := setMode_cases s m
  rw [he]
@[simp] theorem setMode_highMs (s : State) (m : Mode) : (setMode s m).highMs = s.highMs := by
  obtain ⟨a, b, c, d, e, f, g, h, he⟩ := setMode_cases s m
  rw [he]
@[simp] theorem setMode_gaps (s : State) (m : Mode) : (setMode s m).gaps = s.gaps := by
  obtain ⟨a, b, c, d, e, f, g, h, he⟩ := setMode_cases s m
  rw [he]
@[simp] theorem setMode_margins (s : State) (m : Mode) : (setMode s m).margins = s.margins := by
  obtain ⟨a, b, c, d, e, f, g, h, he⟩ := setMode_cases s m
  rw [he]
@[simp] theorem setMode_brown (s : State) (m : Mode) : (setMode s m).brown = s.brown := by
  obtain ⟨a, b, c, d, e, f, g, h, he⟩ := setMode_cases s m
  rw [he]
@[simp] theorem setMode_adjacent (s : State) (m : Mode) : (setMode s m).adjacent = s.adjacent := by
  obtain ⟨a, b, c, d, e, f, g, h, he⟩ := setMode_cases s m
  rw [he]
@[simp] theorem setMode_lows (s : State) (m : Mode) : (setMode s m).lows = s.lows := by
  obtain ⟨a, b, c, d, e, f, g, h, he⟩ := setMode_cases s m
  rw [he]
@[simp] theorem setMode_uncorr (s : State) (m : Mode) : (setMode s m).uncorr = s.uncorr := by
  obtain ⟨a, b, c, d, e, f, g, h, he⟩ := setMode_cases s m
  rw [he]
@[simp] theorem setMode_corr (s : State) (m : Mode) : (setMode s m).corr = s.corr := by
  obtain ⟨a, b, c, d, e, f, g, h, he⟩ := setMode_cases s m
  rw [he]
@[simp] theorem setMode_fwSwitch (s : State) (m : Mode) : (setMode s m).fwSwitch = s.fwSwitch := by
  obtain ⟨a, b, c, d, e, f, g, h, he⟩ := setMode_cases s m
  rw [he]
@[simp] theorem setMode_watchdog (s : State) (m : Mode) : (setMode s m).watchdog = s.watchdog := by
  obtain ⟨a, b, c, d, e, f, g, h, he⟩ := setMode_cases s m
  rw [he]
@[simp] theorem setMode_patchLoad (s : State) (m : Mode) : (setMode s m).patchLoad = s.patchLoad := by
  obtain ⟨a, b, c, d, e, f, g, h, he⟩ := setMode_cases s m
  rw [he]
@[simp] theorem setMode_nonce (s : State) (m : Mode) : (setMode s m).nonce = s.nonce := by
  obtain ⟨a, b, c, d, e, f, g, h, he⟩ := setMode_cases s m
  rw [he]
@[simp] theorem setMode_jtag (s : State) (m : Mode) : (setMode s m).jtag = s.jtag := by
  obtain ⟨a, b, c, d, e, f, g, h, he⟩ := setMode_cases s m
  rw [he]
@[simp] theorem setMode_bar4 (s : State) (m : Mode) : (setMode s m).bar4 = s.bar4 := by
  obtain ⟨a, b, c, d, e, f, g, h, he⟩ := setMode_cases s m
  rw [he]
@[simp] theorem setMode_bootPass (s : State) (m : Mode) : (setMode s m).bootPass = s.bootPass := by
  obtain ⟨a, b, c, d, e, f, g, h, he⟩ := setMode_cases s m
  rw [he]

end Sys2Proof.Machine
end

