-- ==== Sys2Proof/Laws/Ops.lean ====
section
/-! SUPPORT. Laws of the named operations: registers read back what was written, contexts and bows likewise. -/

namespace Sys2Proof.Machine

/-! ### Registers -/

theorem reg_setReg_ne (s : State) {o p : Nat} (v : Reg32) (h : p ≠ o) : reg (setReg s o v) p = reg s p :=
  cget_cset_ne s.regs v h

theorem reg_setReg_same (s : State) (h : cwf regReset s.regs = true) (o : Nat) (v : Reg32) :
    reg (setReg s o v) o = v := cget_cset_same h o v

theorem setReg_regs_wf (s : State) (h : cwf regReset s.regs = true) (o : Nat) (v : Reg32) :
    cwf regReset (setReg s o v).regs = true := cwf_cset h o v

@[simp] theorem reg_setBow (s : State) (b : Fin 16) (w : Bow) (o : Nat) : reg (setBow s b w) o = reg s o := rfl
@[simp] theorem reg_setCtx (s : State) (b : Fin 16) (c : Ctx) (k : Context) (o : Nat) : reg (setCtx s b c k) o = reg s o := rfl
@[simp] theorem reg_setCourse (s : State) (c : Fin 64) (k : CourseSt) (o : Nat) : reg (setCourse s c k) o = reg s o := rfl
@[simp] theorem reg_setChan (s : State) (c : Fin 64) (n : Fin 4) (k : Chan) (o : Nat) : reg (setChan s c n k) o = reg s o := rfl
@[simp] theorem reg_sendMsix (s : State) (v : BitVec 6) (o : Nat) : reg (sendMsix s v) o = reg s o := by
  unfold sendMsix
  split <;> rfl
@[simp] theorem reg_logEvent (s : State) (a b : BitVec 16) (st : Status) (d : BitVec 24) (o : Nat) :
    reg (logEvent s a b st d) o = reg s o := by simp [reg]

/-! ### Bows and contexts -/

@[simp] theorem bow_setBow (s : State) (b : Fin 16) (w : Bow) : bow (setBow s b w) b = w := by
  simp [bow, setBow]

theorem bow_setBow_ne (s : State) {b b' : Fin 16} (w : Bow) (h : b' ≠ b) : bow (setBow s b w) b' = bow s b' := by
  have : b.val ≠ b'.val := fun e => h (Fin.ext e.symm)
  simp [bow, setBow, this]

@[simp] theorem setBow_setBow (s : State) (b : Fin 16) (v w : Bow) : setBow (setBow s b v) b w = setBow s b w := by
  simp [setBow]

@[simp] theorem setBow_bow (s : State) (b : Fin 16) : setBow s b (bow s b) = s := by
  simp [setBow, bow]

@[simp] theorem ctxOf_putCtx (w : Bow) (c : Ctx) (k : Context) : ctxOf (putCtx w c k) c = k := by
  cases c <;> rfl

@[simp] theorem putCtx_putCtx (w : Bow) (c : Ctx) (k l : Context) : putCtx (putCtx w c k) c l = putCtx w c l := by
  cases c <;> rfl

@[simp] theorem putCtx_ctxOf (w : Bow) (c : Ctx) : putCtx w c (ctxOf w c) = w := by
  cases c <;> rfl

theorem ctxOf_putCtx_ne (w : Bow) {c c' : Ctx} (k : Context) (h : c' ≠ c) : ctxOf (putCtx w c k) c' = ctxOf w c' := by
  cases c <;> cases c' <;> first | rfl | exact absurd rfl h

@[simp] theorem putCtx_window (w : Bow) (c : Ctx) (k : Context) : (putCtx w c k).window = w.window := by cases c <;> rfl
@[simp] theorem putCtx_group (w : Bow) (c : Ctx) (k : Context) : (putCtx w c k).group = w.group := by cases c <;> rfl
@[simp] theorem putCtx_dmem (w : Bow) (c : Ctx) (k : Context) : (putCtx w c k).dmem = w.dmem := by cases c <;> rfl
@[simp] theorem putCtx_dmemErr (w : Bow) (c : Ctx) (k : Context) : (putCtx w c k).dmemErr = w.dmemErr := by cases c <;> rfl
@[simp] theorem putCtx_microHit (w : Bow) (c : Ctx) (k : Context) : (putCtx w c k).microHit = w.microHit := by cases c <;> rfl
@[simp] theorem putCtx_patch (w : Bow) (c : Ctx) (k : Context) : (putCtx w c k).patch = w.patch := by cases c <;> rfl
@[simp] theorem putCtx_launches (w : Bow) (c : Ctx) (k : Context) : (putCtx w c k).launches = w.launches := by cases c <;> rfl
@[simp] theorem putCtx_powered (w : Bow) (c : Ctx) (k : Context) : (putCtx w c k).powered = w.powered := by cases c <;> rfl
@[simp] theorem putCtx_swapEnd (w : Bow) (c : Ctx) (k : Context) : (putCtx w c k).swapEnd = w.swapEnd := by cases c <;> rfl
@[simp] theorem putCtx_lines (w : Bow) (c : Ctx) (k : Context) : (putCtx w c k).lines = w.lines := by cases c <;> rfl

@[simp] theorem ctx_setCtx (s : State) (b : Fin 16) (c : Ctx) (k : Context) : ctx (setCtx s b c k) b c = k := by
  simp [ctx, setCtx]

@[simp] theorem bow_setCtx (s : State) (b : Fin 16) (c : Ctx) (k : Context) : bow (setCtx s b c k) b = putCtx (bow s b) c k := by
  simp [setCtx]

@[simp] theorem ctx_setBow (s : State) (b : Fin 16) (c : Ctx) (w : Bow) : ctx (setBow s b w) b c = ctxOf w c := by
  simp [ctx]

@[simp] theorem setCtx_setCtx (s : State) (b : Fin 16) (c : Ctx) (k l : Context) :
    setCtx (setCtx s b c k) b c l = setCtx s b c l := by
  simp [setCtx]

@[simp] theorem setCtx_ctx (s : State) (b : Fin 16) (c : Ctx) : setCtx s b c (ctx s b c) = s := by
  simp [setCtx, ctx]

theorem bow_setCtx_ne (s : State) {b b' : Fin 16} (c : Ctx) (k : Context) (h : b' ≠ b) :
    bow (setCtx s b c k) b' = bow s b' := bow_setBow_ne s _ h

theorem ctx_setCtx_ne (s : State) (b : Fin 16) {c c' : Ctx} (k : Context) (h : c' ≠ c) :
    ctx (setCtx s b c k) b c' = ctx s b c' := by
  simp [ctx, setCtx, ctxOf_putCtx_ne _ _ h]

theorem touchLine_cases (w : Bow) (k : Context) : ∃ l, touchLine w k = { w with lines := l } := by
  unfold touchLine
  split
  · split
    · split <;> exact ⟨_, rfl⟩
    · exact ⟨_, rfl⟩
  · exact ⟨_, rfl⟩

end Sys2Proof.Machine
end

