-- ==== Sys2Proof/Laws/Issue.lean ====
section
/-! SUPPORT. The issue of an instruction: under the conditions of `Safety.Issues` it has its effect and nothing else happens. -/

namespace Sys2Proof.Machine

open Sys2Proof.Safety

/-- Without a pending delivery nothing is delivered. -/
theorem deliverDue_none {s : State} {b : Fin 16} {c : Ctx} (h : (ctx s b c).deliveries = []) : deliverDue s b c = s := by
  have e : ({ ctx s b c with deliveries := (ctx s b c).deliveries.filter (fun d => !decide (d.left ≤ 1)) } : Context) =
      ctx s b c := by
    rw [h]
    simp only [List.filter_nil]
    rw [← h]
  simp only [deliverDue]
  rw [h] at e ⊢
  simp only [List.filter_nil, List.foldl_nil] at e ⊢
  rw [e, setCtx_ctx]

theorem activeRep_none {k : Context} (h : k.rep = none) : activeRep k = none := by simp [activeRep, h]

theorem needsResponse_none {op : Nat} {x : Issue} {k : Context} (h : k.asks = []) : needsResponse op x k = false := by
  simp [needsResponse, h]

theorem bpHit_none {s : State} {b : Fin 16} {c : Ctx} {k : Context} (h : (reg s 0x90000).getLsbD 0 = false) :
    bpHit s b c k = none := by
  have : (debugOpen s && (reg s 0x90000).getLsbD 0 && !k.bpSkip) = false := by rw [h]; simp
  unfold bpHit
  rw [if_neg (ne_true_of_eq_false this)]

theorem dmemFails_none {w : Bow} {a : Nat} (h : ∀ e ∈ w.dmemErr, e.addr.toNat ≠ a) : dmemFails w a = false := by
  have : w.dmemErr.any (fun d => d.addr.toNat == a && d.multi) = false := by
    rw [Bool.eq_false_iff]
    intro hc
    obtain ⟨d, hd, he⟩ := List.any_eq_true.mp hc
    simp only [Bool.and_eq_true, beq_iff_eq] at he
    exact h d hd he.1
  unfold dmemFails
  rw [this, Bool.and_false]

/-- An instruction that no row of R115 stops executes. -/
theorem checks_exec {op : Nat} {x : Issue} {s : State} (h : Issues op x s)
    (hp : ∀ r, (bow s x.bow).group = some r → ∀ n ∈ portsOf op x, streamReady s r n = true) :
    checks op x none s (bow s x.bow) (ctx s x.bow x.ctx) = .exec := by
  obtain ⟨sp, hsp, hf⟩ := h.fields
  have hports : (match (bow s x.bow).group with
      | some r => (portsOf op x).any (fun n => !streamReady s r n)
      | none => false) = false := by
    cases hgr : (bow s x.bow).group with
    | none => rfl
    | some r =>
      rw [Bool.eq_false_iff]
      intro hc
      obtain ⟨n, hn, hb⟩ := List.any_eq_true.mp hc
      rw [hp r hgr n hn] at hb
      cases hb
  have hecc : ((dmemReads op x (ctx s x.bow x.ctx)).any (dmemFails (bow s x.bow))) = false := by
    rw [Bool.eq_false_iff]
    intro hc
    obtain ⟨a, ha, hb⟩ := List.any_eq_true.mp hc
    rw [dmemFails_none (h.ecc a ha)] at hb
    cases hb
  have hstack : (match newA7 op x (ctx s x.bow x.ctx) with
      | some v => decide (v.toNat < (ctx s x.bow x.ctx).stackLo.toNat)
      | none => false) = false := by
    cases hv : newA7 op x (ctx s x.bow x.ctx) with
    | none => rfl
    | some v =>
      have := h.stack v hv
      simp only [decide_eq_false_iff_not]
      omega
  have hlate : lateChecks op x s (bow s x.bow) (ctx s x.bow x.ctx) = .exec := by
    unfold lateChecks
    simp only [h.falls, h.range, hecc, h.asks, List.any_nil, Bool.and_false, Bool.false_eq_true, if_false, Bool.or_self]
    refine (if_neg (ne_true_of_eq_false hstack)).trans ((if_neg (ne_true_of_eq_false hports)).trans (if_neg ?_))
    cases sends op <;> decide
  unfold checks
  simp only [hsp, h.line, hf, activeRep_none h.rep, h.gOut, needsResponse_none h.asks, h.cond, h.value, hlate,
    List.isEmpty_nil, Bool.not_true, Bool.and_false, Bool.false_eq_true, if_false]

/-- The verdict of an instruction that issues. -/
theorem verdict_exec {op : Nat} {x : Issue} {s : State} (h : Issues op x s)
    (hp : ∀ r, (bow s x.bow).group = some r → ∀ n ∈ portsOf op x, streamReady s r n = true) :
    verdict op x none s = .exec := by
  have hc := checks_exec h hp
  have hrun : (!((ctxOf (bow s x.bow) x.ctx).run == .running || (ctxOf (bow s x.bow) x.ctx).run == .stalled) ||
      (ctxOf (bow s x.bow) x.ctx).job.isNone || (ctxOf (bow s x.bow) x.ctx).wait.isSome) = false := by
    have h1 := h.run
    have h2 := h.job
    have h3 := h.wait
    simp only [ctx] at h1 h2 h3
    rw [h3]
    cases hj : (ctxOf (bow s x.bow) x.ctx).job with
    | none => rw [hj] at h2; cases h2
    | some j => rcases h1 with h1 | h1 <;> simp [h1]
  have hm : (ctxOf (bow s x.bow) x.ctx).micro = none := h.micro
  have hl : lineMissing (bow s x.bow) (ctxOf (bow s x.bow) x.ctx) = false := h.there
  unfold verdict
  simp only [hrun, hm, hl, Option.isSome_none, Bool.false_and, Bool.false_eq_true, if_false, h.window, bpHit_none h.breaks]
  exact hc

/-- The slot of an instruction begins with nothing else to do. -/
theorem beginSlot_eq {s : State} {b : Fin 16} {c : Ctx} (hw : (bow s b).window = none)
    (hd : (ctx s b c).deliveries = []) : beginSlot s b c = slotBegun s b c := by
  have e : passSlot s b c = s := by
    have : ({ ctx s b c with deliveries := (ctx s b c).deliveries.map (fun d => { d with left := d.left - 1 }) } : Context) =
        ctx s b c := by
      rw [hd]
      simp only [List.map_nil]
      rw [← hd]
    simp only [passSlot]
    rw [this, setCtx_ctx]
  unfold beginSlot slotBegun
  simp only [e]
  obtain ⟨l, hl⟩ := touchLine_cases (putCtx (bow s b) c (begun (ctx s b c))) (ctx s b c)
  have hwin : (touchLine (putCtx (bow s b) c (begun (ctx s b c))) (ctx s b c)).window = none := by
    rw [hl]; simp [hw]
  have hb : touchLine (putCtx (bow s b) c (begun (ctx s b c))) (begun (ctx s b c)) =
      touchLine (putCtx (bow s b) c (begun (ctx s b c))) (ctx s b c) := rfl
  simp only [begun] at hb hwin
  simp [setCtx, begun, hwin, hb]

/-- No abort, halt, step or breakpoint is due at the boundary after an instruction. -/
structure Quiet (x : Issue) (t : State) : Prop where
  stepping : (ctx t x.bow x.ctx).stepping = false
  aborting : (ctx t x.bow x.ctx).aborting = false
  halt     : (reg t 0x90004).getLsbD x.bow.val = false
  breaks   : (reg t 0x90000).getLsbD 0 = false
  hit      : (bow t x.bow).microHit = none

/-- With breakpoints off, a µPC asks for no halt. -/
theorem noteUpc_off {t : State} (h : (reg t 0x90000).getLsbD 0 = false) (b : Fin 16) (u : BitVec 13) : noteUpc t b u = t := by
  have hb : (debugOpen t && (reg t 0x90000).getLsbD 0) = false := by rw [h]; simp
  unfold noteUpc
  rw [if_neg (ne_true_of_eq_false hb)]

/-- Where nothing waits for the boundary after an instruction, nothing happens there. -/
theorem afterIssue_quiet {x : Issue} {t : State} (h : Quiet x t) : afterIssue t x = t := by
  have ha : tryAbort t x.bow x.ctx = t := by simp [tryAbort, h.aborting]
  have hh : tryHalt t x.bow = t := by
    unfold tryHalt
    split
    · rfl
    · simp only [h.hit, h.halt, Bool.false_eq_true, if_false]
  have he : atEdge t x.bow x.ctx = t := by simp only [atEdge, ha, hh]
  unfold afterIssue
  cases x.upc with
  | none => simp only [h.stepping, Bool.false_and, Bool.false_eq_true, if_false, he]
  | some u => simp only [noteUpc_off h.breaks, h.stepping, Bool.false_and, Bool.false_eq_true, if_false, he]

/-- Reads of data-memory words without an error correct nothing. -/
theorem correctDmem_none {s : State} {b : Fin 16} {l : List Nat} (h : ∀ a ∈ l, ∀ e ∈ (bow s b).dmemErr, e.addr.toNat ≠ a) :
    correctDmem s b l = s := by
  have key : (bow s b).dmemErr.filter (fun d => d.multi || buffered (bow s b) d.addr.toNat || !l.contains d.addr.toNat) =
      (bow s b).dmemErr := by
    rw [List.filter_eq_self]
    intro d hd
    have : l.contains d.addr.toNat = false := by
      rw [Bool.eq_false_iff]
      intro hc
      exact h _ (by simpa using hc) d hd rfl
    simp only [this, Bool.not_false, Bool.or_true]
  simp only [correctDmem, key]
  exact setBow_bow s b

/-- An instruction that issues has its effect on the state in which its slot has begun, and then its boundary passes. -/
theorem issueRaw_exec {op : Nat} {x : Issue} {s : State} (h : Issues op x s) (eff : State → State)
    (hp : ∀ r, (bow s x.bow).group = some r → ∀ n ∈ portsOf op x, streamReady s r n = true) :
    issueRaw op x none eff s = afterIssue (eff (slotBegun s x.bow x.ctx)) x := by
  have hd := deliverDue_none h.deliver
  have hv := verdict_exec h hp
  have he : (bow (slotBegun s x.bow x.ctx) x.bow).dmemErr = (bow s x.bow).dmemErr := by
    obtain ⟨l, hl⟩ := touchLine_cases (putCtx (bow s x.bow) x.ctx (begun (ctx s x.bow x.ctx))) (begun (ctx s x.bow x.ctx))
    simp only [slotBegun, bow_setBow, hl]
    cases x.ctx <;> rfl
  have hc : correctDmem (slotBegun s x.bow x.ctx) x.bow (dmemReads op x (ctx s x.bow x.ctx)) = slotBegun s x.bow x.ctx := by
    apply correctDmem_none
    rw [he]
    exact h.ecc
  unfold issueRaw
  simp only [h.opcode, hd, hv, beginSlot_eq h.window h.deliver, hc]

@[simp] theorem ctx_slotBegun (s : State) (b : Fin 16) (c : Ctx) : ctx (slotBegun s b c) b c = begun (ctx s b c) := by
  obtain ⟨l, hl⟩ := touchLine_cases (putCtx (bow s b) c (begun (ctx s b c))) (begun (ctx s b c))
  simp only [slotBegun, ctx_setBow, hl]
  cases c <;> rfl

@[simp] theorem reg_slotBegun (s : State) (b : Fin 16) (c : Ctx) (o : Nat) : reg (slotBegun s b c) o = reg s o := rfl

theorem bow_slotBegun_cases (s : State) (b : Fin 16) (c : Ctx) :
    ∃ l, bow (slotBegun s b c) b = { putCtx (bow s b) c (begun (ctx s b c)) with lines := l } := by
  obtain ⟨l, hl⟩ := touchLine_cases (putCtx (bow s b) c (begun (ctx s b c))) (begun (ctx s b c))
  exact ⟨l, by simp only [slotBegun, bow_setBow, hl]⟩

@[simp] theorem window_slotBegun (s : State) (b : Fin 16) (c : Ctx) : (bow (slotBegun s b c) b).window = (bow s b).window := by
  obtain ⟨l, hl⟩ := bow_slotBegun_cases s b c
  rw [hl]; cases c <;> rfl

@[simp] theorem microHit_slotBegun (s : State) (b : Fin 16) (c : Ctx) :
    (bow (slotBegun s b c) b).microHit = (bow s b).microHit := by
  obtain ⟨l, hl⟩ := bow_slotBegun_cases s b c
  rw [hl]; cases c <;> rfl

@[simp] theorem patch_slotBegun (s : State) (b : Fin 16) (c : Ctx) : (bow (slotBegun s b c) b).patch = (bow s b).patch := by
  obtain ⟨l, hl⟩ := bow_slotBegun_cases s b c
  rw [hl]; cases c <;> rfl

@[simp] theorem dmem_slotBegun (s : State) (b : Fin 16) (c : Ctx) : (bow (slotBegun s b c) b).dmem = (bow s b).dmem := by
  obtain ⟨l, hl⟩ := bow_slotBegun_cases s b c
  rw [hl]; cases c <;> rfl

@[simp] theorem group_slotBegun (s : State) (b : Fin 16) (c : Ctx) : (bow (slotBegun s b c) b).group = (bow s b).group := by
  obtain ⟨l, hl⟩ := bow_slotBegun_cases s b c
  rw [hl]; cases c <;> rfl

end Sys2Proof.Machine
end

