-- ==== Sys2Proof/Laws/Memory.lean ====
section
/-! SUPPORT. Every memory operation keeps the canonical form: registers, planes of the PEs, the Shared Store and its
shadow, host memory and the data memory of a bow; and the memories of the reset state have it. -/

namespace Sys2Proof.Machine

variable {w : Nat} {d : Nat → BitVec w}

theorem cwf_nil : cwf d ([] : Cells w) = true := rfl

/-- A fold whose every step keeps the form keeps it. -/
theorem cwf_foldl {α : Type} (l : List α) (f : Cells w → α → Cells w) (hf : ∀ m a, cwf d m = true → cwf d (f m a) = true)
    {m : Cells w} (h : cwf d m = true) : cwf d (l.foldl f m) = true := by
  induction l generalizing m with
  | nil => exact h
  | cons a l ih => exact ih (hf m a h)

theorem cwf_foldr {α : Type} (l : List α) (f : α → Cells w → Cells w) (hf : ∀ m a, cwf d m = true → cwf d (f a m) = true)
    {m : Cells w} (h : cwf d m = true) : cwf d (l.foldr f m) = true := by
  induction l with
  | nil => exact h
  | cons a l ih => exact hf _ a ih

/-! ### Planes of the PEs -/

theorem cwf_wrPe {pe : Cells 65536} (h : cwf zeroes pe = true) (x : Wr) : cwf zeroes (wrPe pe x) = true := cwf_cset h _ _

theorem cwfFrom_clearPes {pe : Cells 65536} {lo : Nat} (h : cwfFrom zeroes lo pe = true) (m : Plane) :
    cwfFrom zeroes lo (clearPes pe m) = true := by
  induction pe generalizing lo with
  | nil => rfl
  | cons e pe ih =>
    simp only [cwfFrom, Bool.and_eq_true, decide_eq_true_eq] at h
    have tail := ih h.2
    unfold clearPes at tail ⊢
    simp only [List.map_cons, List.filter_cons]
    split
    · rename_i hne
      simp only [cwfFrom, Bool.and_eq_true, decide_eq_true_eq]
      exact ⟨⟨h.1.1, hne⟩, tail⟩
    · exact cwfFrom_mono tail (by omega)

theorem cwf_clearPes {pe : Cells 65536} (h : cwf zeroes pe = true) (m : Plane) : cwf zeroes (clearPes pe m) = true :=
  cwfFrom_clearPes h m

theorem cwf_copyLatch {s : State} (h : cwf zeroes s.pe = true) (r : Rect) (restore : Bool) :
    cwf zeroes (copyLatch s r restore).pe = true := by
  refine cwf_foldl _ _ (fun m a hm => ?_) h
  dsimp only
  split <;> exact cwf_cset hm _ _

/-! ### The Shared Store and its shadow -/

theorem cwf_blockCells (m : Cells 40) (b : BitVec 9) : cwf zeroes (blockCells m b) = true :=
  cwf_foldl _ _ (fun _ _ h => cwf_cset h _ _) cwf_nil

theorem cwf_withBlock {m : Cells 40} (h : cwf zeroes m = true) (b : BitVec 9) (c : Cells 40) :
    cwf zeroes (withBlock m b c) = true := cwf_foldl _ _ (fun _ _ h => cwf_cset h _ _) (cwf_cclear h)

/-! ### Host memory and data memory -/

theorem cwf_hostWrite {s : State} (h : cwf zeroes s.host = true) (a : Nat) (bs : List (BitVec 8)) :
    cwf zeroes (hostWrite s a bs).host = true := cwf_csetList bs h a

theorem cwf_storeBuffer (l : List (BitVec 14 × Word)) {m : Cells 40} (h : cwf zeroes m = true) :
    cwf zeroes (l.foldr (fun e m => cset zeroes m e.1.toNat e.2) m) = true := cwf_foldr l _ (fun _ _ h => cwf_cset h _ _) h

/-! ### The state -/

theorem wf_setReg {s : State} (h : Memory.wf s = true) (o : Nat) (v : Reg32) : Memory.wf (setReg s o v) = true := by
  simp only [Memory.wf, Bool.and_eq_true] at h ⊢
  exact ⟨⟨⟨⟨⟨cwf_cset h.1.1.1.1.1 o v, h.1.1.1.1.2⟩, h.1.1.1.2⟩, h.1.1.2⟩, h.1.2⟩, h.2⟩

theorem wf_setRegBits {s : State} (h : Memory.wf s = true) (o hi lo x : Nat) : Memory.wf (setRegBits s o hi lo x) = true :=
  wf_setReg h _ _

theorem wf_countUp {s : State} (h : Memory.wf s = true) (o hi lo n : Nat) : Memory.wf (countUp s o hi lo n) = true :=
  wf_setRegBits h _ _ _ _

theorem wf_reset : Memory.wf State.reset = true := rfl

end Sys2Proof.Machine
end

