-- ==== Sys2Proof/Laws/Scalar.lean ====
section
/-! SUPPORT. What a scalar instruction that issues leaves: its destination and flags written, the PC advanced, nothing
else. -/

namespace Sys2Proof.Machine

open Sys2Proof.Safety

/-- No window: data memory reads what it holds. -/
theorem dmemRead_eq {s : State} {b : Fin 16} (h : (bow s b).window = none) (a : Nat) :
    dmemRead s b a = cget zeroes (bow s b).dmem a := by
  simp [dmemRead, h]

/-- No window: a store goes to data memory. -/
theorem dmemWrite_eq {s : State} {b : Fin 16} (h : (bow s b).window = none) (a : Nat) (v : Word) :
    dmemWrite s b a v = setBow s b { bow s b with
      dmem := cset zeroes (bow s b).dmem a v, dmemErr := (bow s b).dmemErr.filter (fun x => x.addr.toNat != a) } := by
  simp [dmemWrite, h]

theorem scalarRead_slotBegun {s : State} {b : Fin 16} {c : Ctx} (h : (bow s b).window = none) (k : Context) (o : BitVec 20) :
    scalarRead (slotBegun s b c) b (begun k) o = scalarRead s b k o := by
  have h' : (bow (slotBegun s b c) b).window = none := by simp [h]
  simp only [scalarRead, dmemRead_eq h, dmemRead_eq h', dmem_slotBegun]
  rfl

theorem scalarIn_slotBegun {two : Bool} {x : Issue} {s : State} (h : (bow s x.bow).window = none) :
    scalarIn two x (slotBegun s x.bow x.ctx) = scalarIn two x s := by
  simp only [scalarIn, ctx_slotBegun, scalarRead_slotBegun h]
  rfl

/-- What a scalar write leaves of the context: all but the S registers. -/
theorem scalarWrite_ctx {s : State} {b : Fin 16} {c : Ctx} (h : (bow s b).window = none) (o : BitVec 20) (v : Word) :
    ∃ r, ctx (scalarWrite s b c o v) b c = { ctx s b c with s := r } := by
  unfold scalarWrite
  split
  · exact ⟨_, by rw [ctx_setCtx]⟩
  · refine ⟨(ctx s b c).s, ?_⟩
    rw [dmemWrite_eq h, ctx_setBow]
    simp only [ctx]
    cases c <;> rfl

theorem scalarWrite_reg (s : State) (b : Fin 16) (c : Ctx) (o : BitVec 20) (v : Word) (p : Nat) :
    reg (scalarWrite s b c o v) p = reg s p := by
  unfold scalarWrite
  split
  · rfl
  · simp only [dmemWrite]
    split <;> rfl

theorem scalarWrite_microHit (s : State) (b : Fin 16) (c : Ctx) (o : BitVec 20) (v : Word) :
    (bow (scalarWrite s b c o v) b).microHit = (bow s b).microHit := by
  unfold scalarWrite
  split
  · simp
  · simp only [dmemWrite]
    split <;> simp

/-- A scalar computation that issues: result and BF as the computation gives them. -/
theorem runScalar_exec {op : Nat} {x : Issue} {s : State} (h : Issues op x s)
    (hp : portsOf op x = []) (two : Bool) (f : ScalarIn → FpCtl → ScalarOut) :
    runScalar op two f x s =
      scalarDone x s (f (scalarIn two x s) (fpCtlOf (ctx s x.bow x.ctx).fpctl)).value
        (f (scalarIn two x s) (fpCtlOf (ctx s x.bow x.ctx).fpctl)).bf := by
  have hp' : ∀ r, (bow s x.bow).group = some r → ∀ n ∈ portsOf op x, streamReady s r n = true := by
    intro r _ n hn
    rw [hp] at hn
    cases hn
  unfold runScalar issue
  rw [issueRaw_exec h _ hp']
  have hw : (bow (slotBegun s x.bow x.ctx) x.bow).window = none := by simp [h.window]
  have hrep : (begun (ctx s x.bow x.ctx)).rep = none := h.rep
  have hk : ctx (slotBegun s x.bow x.ctx) x.bow x.ctx = begun (ctx s x.bow x.ctx) := ctx_slotBegun s x.bow x.ctx
  have hfp : (begun (ctx s x.bow x.ctx)).fpctl = (ctx s x.bow x.ctx).fpctl := rfl
  simp only [scalarIn_slotBegun h.window, hk, hfp]
  generalize f (scalarIn two x s) (fpCtlOf (ctx s x.bow x.ctx).fpctl) = o
  have key : ∀ t : State, (∃ r, ctx t x.bow x.ctx = { begun (ctx s x.bow x.ctx) with s := r }) →
      (∀ p, reg t p = reg s p) → (bow t x.bow).microHit = none →
      afterIssue (advanceAt (setCtx t x.bow x.ctx { ctx t x.bow x.ctx with bf := o.bf }) x.bow x.ctx) x =
        setCtx t x.bow x.ctx { ctx t x.bow x.ctx with bf := o.bf, pc := (ctx t x.bow x.ctx).pc + 1 } := by
    intro t ht hr hm
    obtain ⟨r, ht⟩ := ht
    have hadv : advanceAt (setCtx t x.bow x.ctx { ctx t x.bow x.ctx with bf := o.bf }) x.bow x.ctx =
        setCtx t x.bow x.ctx { ctx t x.bow x.ctx with bf := o.bf, pc := (ctx t x.bow x.ctx).pc + 1 } := by
      simp only [advanceAt, ctx_setCtx, setCtx_setCtx]
      congr 1
      rw [ht]
      have : activeRep { begun (ctx s x.bow x.ctx) with s := r, bf := o.bf } = none := activeRep_none hrep
      simp only [advance, this]
    rw [hadv]
    apply afterIssue_quiet
    constructor
    · rw [ctx_setCtx, ht]; exact h.stepping
    · rw [ctx_setCtx, ht]; exact h.aborting
    · rw [reg_setCtx, hr]; exact h.halt
    · rw [reg_setCtx, hr]; exact h.breaks
    · rw [bow_setCtx, putCtx_microHit]; exact hm
  unfold scalarDone
  cases ho : o.value with
  | none =>
    simp only
    exact key _ ⟨(ctx s x.bow x.ctx).s, hk⟩ (fun p => rfl) (by simp [h.hit])
  | some v =>
    simp only
    refine key _ ?_ (fun p => by rw [scalarWrite_reg, reg_slotBegun]) (by rw [scalarWrite_microHit]; simp [h.hit])
    obtain ⟨r, hr⟩ := scalarWrite_ctx (c := x.ctx) hw x.dst v
    exact ⟨r, by rw [hr, hk]⟩

end Sys2Proof.Machine
end

