-- ==== Sys2Proof/WellFormed.lean ====
section
/-! DEFINITION. Commands that the outside world can form: the operands that the chapters tie together. -/

namespace Sys2Proof

/-- An opcode that stands in the word in place of the row's is one that the tables do not assign (R117). -/
def Issue.rawWf (x : Issue) : Bool := match x.raw with
  | some op => (Machine.opSpec op.toNat).isNone
  | none => true

/-- An array instruction, whose routine may execute µPCs and stop at a yield point (R202, R439). -/
def Issue.arrayWf (x : Issue) : Bool := x.rawWf

/-- An instruction of another class runs no routine. -/
def Issue.plainWf (x : Issue) : Bool := x.rawWf && x.upc.isNone && x.stop.isNone

/-- The host returns the words asked for, or none (R245, R365). -/
def replyWf (p : Packet) (reply : Option (List Word)) : Bool := match reply with
  | some ws => ws.length == p.words.toNat
  | none => true

/-- The D port meets each word of a packet at most once in an nc (R266). -/
def meetsWf (meets : List (Nat × Meet)) : Bool := (meets.map (fun m => m.1)).Nodup

/-- The body of a patch image has the words and entries that its header counts, 18 and 4 bytes each (R209). -/
def PatchImage.wf (i : PatchImage) : Bool :=
  i.body.length == i.header.toNat / 2 ^ 128 % 2 ^ 16 * 18 + i.header.toNat / 2 ^ 144 % 2 ^ 8 * 4

/-- The operands that a slot's components give agree with its manifest (R372). -/
def SlotRead.wf (r : SlotRead) : Bool :=
  r.patch.isSome == (Machine.components r).any (fun c => c.2.type == 3) && r.patch.all PatchImage.wf &&
  r.preload.map (fun ws => 5 * ws.length) ==
    ((Machine.components r).filter (fun c => c.2.type == 6)).map (fun c => c.2.length) &&
  [128 * r.startup.length] == (match (Machine.components r).find? (fun c => c.2.type == 7) with
    | some c => [c.2.length]
    | none => [0])

/-- The rails are VDD_CORE, VDD_ARRAY and VDD_AON (R417). -/
def railWf (rail : BitVec 2) : Bool := rail != 3

/-- The operands of a command agree with each other. Every command answers a next state, well-formed or not. -/
def Instr.wf : Instr → Bool
  | .add x | .adc x | .sub x | .sbc x | .neg x | .abs x | .addss x | .addus x | .subss x | .subus x | .min x
  | .max x | .minu x | .maxu x | .cmpeq x | .cmpne x | .cmplt x | .cmple x | .cmpltu x | .cmpleu x | .muli x
  | .muliu x | .maci x | .divi x | .diviu x | .and x | .or x | .xor x | .andn x | .nand x | .nor x | .xnor x
  | .not x | .shl x | .shr x | .sar x | .rol x | .ldlar x | .stlar x | .ldc x | .stc x | .ldx x | .stx x
  | .fadd x | .fsub x | .fmul x | .fdiv x | .fsqrt x | .macf x | .fneg x | .fabs x | .fmin x | .fmax x
  | .fcmpeq x | .fcmplt x | .fcmple x | .fcmpun x | .icvtf x | .ucvtf x | .fcvti x | .fcvtu x | .f32cvt x
  | .fcvt32 x | .f64cvt x | .fcvt64 x | .frint x | .move x | .sext x | .zext x | .getg x | .testg x | .getpe x
  | .getcount x | .getsum x | .getsums x | .stkor x | .stkclr x => x.arrayWf
  | .sadd x | .sadc x | .ssub x | .ssbc x | .sneg x | .scmp x | .sand x | .sor x | .sxor x | .sandn x | .snot x
  | .stst x | .sshl x | .sshr x | .ssar x | .srol x | .smul x | .smulh x | .smulhu x | .sdiv x | .sdivu x
  | .srem x | .sremu x | .macs x | .sfadd x | .sfsub x | .sfmul x | .sfdiv x | .sfsqrt x | .sfcmp x | .sfmin x
  | .sfmax x | .macsf x | .sfneg x | .sfabs x | .sfcvti x | .sicvtf x | .smov x | .smovz x | .sins x | .push x
  | .pop x | .amov x | .aadd x | .acmp x | .a2s x | .s2a x | .br x | .brr x | .call x | .callr x | .ret x
  | .loop x | .nop x | .yield x | .trap x | .rett x | .endk x | .getctl x | .setctl x | .gettw x
  | .sync x | .sld x | .sst x | .xfadd x | .xswap x | .xradv x | .prd x | .pwr x | .waitph x | .brk x => x.plainWf
  | .rep x _ => x.plainWf
  | .istoreLineFill _ _ _ reads writes atomics => meetsWf (Machine.portMeets reads writes atomics)
  | .rd _ meets | .wr _ meets => meetsWf meets
  | .guardWindowRead ch => meetsWf ch.meets
  | .moverTransferDone _ _ _ data => meetsWf data.meets
  | .streamRecord _ consumer => meetsWf consumer.meets
  | .logbookRead d => meetsWf d.meets
  | .bar4Access _ write => meetsWf write.meets
  | .hostRd p reply => replyWf p reply
  | .patchLoad _ img => img.wf
  | .slotVerify _ img | .sentinelExit _ img | .fwSwitch _ img _ | .guardRampEnd img => img.wf
  | .restart _ attempts | .porRelease attempts _ _ | .eraseEnd attempts | .wake _ attempts => attempts.all SlotRead.wf
  | .brownoutWarning rail | .brownoutClear rail => railWf rail
  | _ => true

end Sys2Proof
end

