-- ==== Sys2Proof/Tests/Slice0.lean ====
section
/-! SUPPORT. For every statement a state and operands that meet its hypotheses, clause by clause; instruction words
written out from R90; worked examples of the manual; and commands that are not well formed. -/

namespace Sys2Proof.Tests
open Sys2Proof Machine Safety Claims

-- One kernel evaluation at a time: each of them has a stack of its own.
set_option Elab.async false

/-! ### Small states and operands -/

/-- A descriptor with a type, a code and some fields, each a byte offset and a value (R349). -/
def desc (type code : Nat) (fields : List (Nat × Nat)) : Desc :=
  { ring := 0, bytes := BitVec.ofNat _ (fields.foldl (fun v e => v + e.2 * 2 ^ (8 * e.1)) (type + code * 2 ^ 16)), startup := false }
def admin (code : Nat) (fields : List (Nat × Nat)) : Desc := desc 3 code fields

/-- A state with some registers set. -/
def withRegs (s : State) (l : List (Nat × Nat)) : State := l.foldl (fun s e => setReg s e.1 (BitVec.ofNat 32 e.2)) s

/-- The store on, its NIs open. -/
def storeOpen : List (Nat × Nat) :=
  (0x30004, 0x3C) :: ([32, 33, 34, 35].flatMap (fun n => [(niReg (n, 1) 0, 0), (niReg (n, 2) 0, 0)]))

/-- The function is a bus master, MSI-X is enabled, and vectors 0 and 5 are open. -/
def hostLinked : List (Nat × Nat) := [(pciReg 4, 6), (pciReg 0x50, 0x80000000), (0x800C, 0), (0x805C, 0)]

/-- The reset state in another mode, the host's function enabled, with some registers set. -/
def inMode (m : Mode) (l : List (Nat × Nat)) : State := withRegs { State.reset with mode := m } (hostLinked ++ l)

/-- The same with an admin command at the head of its queue. -/
def turn (d : Desc) (m : Mode) (l : List (Nat × Nat)) : State := { inMode m l with adminQ := [d], accepted := [d] }

/-- Fields of an image or a table, each a byte offset and a value. -/
def bytesAt (l : List (Nat × Nat)) : Nat := l.foldl (fun v e => v + e.2 * 2 ^ (8 * e.1)) 0

/-- A frame with an empty payload and the FCRC of its bytes (R298), and the image of such frames for a mask of quadrants. -/
def bareFrame (a : Nat) : FabFrame :=
  { fsync := 0xA55AF00D, faddr := BitVec.ofNat 32 a, flen := 256, fflags := 0, payload := 0, fcrc := 0 }
def frameOf (a : Nat) : FabFrame := { bareFrame a with fcrc := crc32 (frameBytes (bareFrame a)) }
def fabImage (mask frames version : Nat) : FabImage :=
  { envelope := BitVec.ofNat _ (bytesAt [(0, 0x46424931), (4, 1), (6, 256), (8, 0x6540), (0xA, mask), (0xC, version), (0x10, 5),
      (0x14, frames), (0x18, 272 * frames)])
    sigOk := true, digestOk := true, frames := (imageFrames mask).map frameOf, reserved := none, global := GlobalConf.blank
    quads := Vector.replicate 4 QuadConf.blank }

/-- A slot that boots: firmware, a fabric image, a runtime, a preload of one word; and one whose signature fails. -/
def img : SlotRead :=
  { manifest := BitVec.ofNat _ (bytesAt ([(0, 0x4D534C31), (4, 1), (6, 1024), (8, 0x6540), (0xB, 4), (0xC, 7), (0x10, 3), (0x18, 15)] ++
      [(0x20, 1), (0x24, 0x1000), (0x28, 100), (0x60, 2), (0x64, 0x2000), (0x68, 1917584), (0xA0, 4), (0xA4, 0x1D7000), (0xA8, 320),
       (0xE0, 6), (0xE4, 0x1D8000), (0xE8, 5), (0xEC, 5)]))
    sigOk := true, hashFault := none, fabric := fabImage 15 7049 9, patch := none, runtime := List.replicate 32 0, preload := [[42]]
    startup := [], calibrateOk := true, baselines := [] }
def badImg : SlotRead := { img with sigOk := false }

/-- Vault registers of a device with valid slots 0 to 2. -/
def vault : List (Nat × Nat) := [(0x60000, 0x4000), (0x60004, 0x14), (0x60014, 5), (0x6001C, 0x302), (0x60024, 0x200)]

/-- A packet between two identities of this device. -/
def pkt (dst src : BitVec 12) (words : BitVec 6) (addr : BitVec 21) (arg : BitVec 6) (flits : Nat) (data : List Word) : Packet :=
  { ddev := 0, dst, sdev := 0, src, tag := 5, words, addr, lanes := 31, arg, data, flits, host := 0x1000 }

/-- The NIs used here are open, and a packet is in flight. -/
def net (type : Nat) (p : Packet) (l : List (Nat × Nat)) : State :=
  { inMode .idle ([(niReg (32, 2) 0, 0), (niReg (35, 2) 0, 0), (niReg (1, 1) 0, 0), (niReg (2, 1) 0, 0), (niReg (5, 2) 0, 0),
      (niReg (32, 3) 0, 0), (niReg (33, 3) 0, 0)] ++ l) with
    flight := [mkSent type p], store := [(0, 1), (63, 7), (64, 8), (65, 0xFFFFFFFFFF), (99, 3), (100, 2)] }

/-- A kernel's descriptor, its job and the context that runs it on bow 2. -/
def kernelD : Desc := desc 1 0 [(8, 5), (0xC, 0x40), (0x10, 0x22), (0x12, 2), (0x13, 4), (0x14, 0x123), (0x16, 7), (0x40, 99)]
def job : Job := newJob kernelD false
def square : Rect := { x0 := 0, y0 := 0, w := 2, h := 2 }
def ctxN : Context := { Context.reset with
  run := .running, pc := 0x40, job := some job, s := Vector.ofFn (fun i => BitVec.ofNat 40 (i.val * 7 + 3)), stackLo := 7, bf := 0x2A }

/-- Bow 2 with a group and a running kernel. -/
def bow2 : Bow := { Bow.reset with powered := true, n := ctxN, group := some square, dmem := [(9, 5)] }
def onBow (w : Bow) : State :=
  { State.reset with mode := .run, pe := [(4, 0xABCD), (6, 1)], bows := State.reset.bows.set 2 w, accepted := [kernelD] }

/-- Operand specifications: an S or A register, an immediate, a direct address (R94). -/
def regOp (n : Nat) : BitVec 20 := BitVec.ofNat 20 (0x50000 + n)
def immOp (n : Nat) : BitVec 20 := BitVec.ofNat 20 (0x60000 + n)
def memOp (n : Nat) : BitVec 20 := BitVec.ofNat 20 n

/-- An operand that a position permits: a direct address for an array instruction, else a register, else an immediate. -/
def anOperand (sp : OpSpec) (set n : Nat) : BitVec 20 :=
  if set = 0 then 0
  else if sp.cls == .array && set.testBit 0 then memOp (0x1000 * n)
  else if set.testBit 5 then regOp (n + 2)
  else if set.testBit 9 then regOp n
  else immOp 1

/-- An instruction of bow 2, context N, with operands that its table entry permits, of a width w. -/
def plain (op w : Nat) : Issue :=
  let sp := (opSpec op).getD (con 0 0 0)
  { bow := 2, ctx := .n, cond := 0, width := BitVec.ofNat 6 w, dst := anOperand sp sp.dst 3, src1 := anOperand sp sp.src1 1,
    src2 := anOperand sp sp.src2 2, invert := 0, hint := 0 }

/-- A context with a stack, and a return address; its S register n holds 7n + 3. -/
def ctxI : Context := { ctxN with a := Vector.ofFn (fun i => BitVec.ofNat 16 (0x100 + i.val)), lk := 0x50 }
/-- Line n of the image of the kernel, valid or not; the lines of the kernel's start and of its end. -/
def lineOfKernel (ok : Bool) (n : Nat) : Line :=
  { base := kImage kernelD, num := BitVec.ofNat 10 n, ok, pinned := false, code := List.replicate 8 0 }
def bow2i : Bow := { bow2 with n := ctxI, lines := [8, 0x3FF].map (lineOfKernel true) }
def issuing : State := onBow bow2i


/-- The window of a branch of bow 2, with undo entries and held stores. -/
def window0 : Window :=
  { ctx := .n, hint := false, onSet := true, predicted := true, target := 5, brPc := 4, need := 1,
    ck := { pc := 4, s := Vector.replicate 16 8, a := Vector.replicate 8 9, lk := 3, rc := 2, bf := 0, fpctl := 0, stackLo := 0,
            rep := none, accum := 77 },
    undo := [(4, 0xFF), (5, 3), (4, 0xF0)], sbuf := [(3, 4), (9, 1), (3, 0)], slots := 5, stopped := false, latent := none }
def dueNow : Delivery := { reg := 3, value := 0x1234, left := 1, spec := false }
def dueNext : Delivery := { reg := 4, value := 0x1234, left := 2, spec := false }

/-- Bow 2 without kernels, and an urgent kernel and one with a deadline for it. -/
def idle2 : Bow := { bow2 with n := Context.reset }
def urgentD : Desc := desc 1 0 [(8, 5), (0xC, 0x40), (0xE, 2), (0x12, 2), (0x13, 4), (0x14, 0x123), (0x16, 7)]
def urgentJob : Job := newJob urgentD false
def lateD : Desc := desc 1 0 [(8, 5), (0xC, 0x40), (0xE, 0x20), (0x10, 0x22), (0x12, 2), (0x30, 9)]
def idleOn (w : Bow) (d : Desc) : State := { onBow w with mode := .idle, accepted := [d] }
/-- Bow 5 holds two queued kernels, and every course is powered. -/
def rich : State :=
  let s := onBow idle2
  { s with
    mode := .idle
    bows := s.bows.set 5 ({ Bow.reset with powered := true, queue := [job, job] } : Bow)
    courses := s.courses.map (fun (c : CourseSt) => { c with ready := true }) }

/-- A line of an image that bow 2 has asked for; the store on, in which the line stands. -/
def asked5 (base : Nat) : LineAsk := { base := BitVec.ofNat 21 base, num := 5, prefetch := false }
def liveOn (w : Bow) : State := { withRegs (onBow w) storeOpen with store := [(21, 7), (22, 8), (36, 9)] }

/-- Course 5, powered, with a channel 1 of the Course Port, some of its registers set. -/
def cpState (l : List (Nat × Nat)) (ch : Chan) : State :=
  withRegs { State.reset with
    mode := .run, pe := [(100, 0xFFFF000000000000000000000000000000000000000000000000000000000000FF)]
    courses := State.reset.courses.set 5 { State.reset.courses[5] with ready := true, chans := State.reset.courses[5].chans.set 1 ch } } l
def pushP (ws : List Word) : Packet :=
  { pkt 0x005 0x101 (BitVec.ofNat 6 ws.length) 0 1 (half ws.length) ws with tag := 3, host := 0 }

/-- A transfer of channel 1 with CTRL, PE range and SEQ, and a packet of words for it. -/
def cpFlow (ws : List Word) (ctl pe : Nat) (ch : Chan) : State :=
  { cpState [(niReg (2, 1) 0, 0), (crsReg 5 0x120, ctl), (crsReg 5 0x124, 100), (crsReg 5 0x128, pe), (crsReg 5 0x134, 7)] ch with
    flight := [mkSent ptCpPush (pushP ws)] }
def filling : Chan := { Chan.reset with st := 1, bank := [9] }
def toPlanes : Chan := { Chan.reset with st := 2, bank := [0x5, 0xA, 0xFF], planes := 1 }

/-- A word of an S24 stream: sequence number and sample. -/
def s24 (seq v : Nat) : Word := BitVec.ofNat 40 (seq * 2 ^ 24 + v)
def peErrorOf (c : Fin 64) (f : BitVec 64) : PeError := { course := c, group := 2, plane := 100, flip := f }

/-- Course 5 with a single-bit error and its write-back due, and errors of others. -/
def errState : State :=
  { cpState [(crsReg 5 0x54, 100)] Chan.reset with
    peErr := [peErrorOf 5 4, peErrorOf 6 5], courses := State.reset.courses.set 5 { State.reset.courses[5] with ready := true, eccQueue := [(2, 100)] } }

/-- A state in which every course is ready and scrubs fast. -/
def fastScrub (s : State) : State :=
  { withRegs s [(crsReg 5 0x50, 3), (crsReg 0 0x50, 3)] with courses := s.courses.map (fun (c : CourseSt) => { c with ready := true, owner := some 2 }) }

/-- Requests of bow 3 to the store: a read, writes, atomics, a RING_ADVANCE. -/
def rd (n : BitVec 6) : Packet := pkt 0x200 0x103 n 63 0 0 []
def wrP (lanes : BitVec 5) (arg : BitVec 6) : Packet := { pkt 0x200 0x103 3 64 arg 2 [9, 10, 11] with lanes }
def wrOne : Packet := pkt 0x200 0x103 1 64 1 1 [9]
def atomic (arg : BitVec 6) : Packet := pkt 0x200 0x103 1 65 arg 1 [9]
def advance (addr : BitVec 21) (n : Word) : Packet := pkt 0x200 0x103 1 addr 2 1 [n]

/-- Window 0 of ten words from 20 on, 22 apart, with a head and a tail. -/
def ring (h t : Nat) : List (Nat × Nat) :=
  [(0x30100, 20), (0x30104, 10), (0x30108, 22), (0x3010C, 1), (0x30110, h), (0x30114, t)]

/-- Register and host packets. -/
def regRdP (addr : BitVec 21) (dst : BitVec 12) : Packet := pkt dst 0x103 1 addr 0 0 []
def regWrP : Packet := pkt 0x003 0x103 1 0x14 0 1 [0x3456]
def hostRdP : Packet := pkt 0x400 0x103 3 0 0 1 []
def hostWrP : Packet := pkt 0x400 0x103 3 0 0 3 [0x1122334455, 0xFFFFFFFFFF, 1]
def notifyP : Packet := { pkt 0x500 0x103 1 0 0 1 [7] with lanes := 0 }

/-- A response to bow 2 with a status, and the context that waits for it. -/
def respP (n : BitVec 6) (st : BitVec 21) (data : List Word) : Packet :=
  { pkt 0x102 0x200 n st 0 (half data.length) data with lanes := 0, host := 0 }
def loadAsk (dst : BitVec 20) : Ask := { tag := 5, kind := .load dst 0x33 0x77 }
def postAsk : Ask := { tag := 5, kind := .post }
def asking (p : Packet) (a : Ask) : State :=
  withRegs { onBow { bow2 with n := { ctxN with asks := [a] } } with flight := [mkSent ptResp p] } [(niReg (5, 2) 0, 0)]

/-- The store on, every quadrant running, and an access of connection 1. -/
def liveStore (l : List (Nat × Nat)) : State :=
  { inMode .idle ([(0x40000, 0x2222)] ++ storeOpen ++ l) with
    store := [(0, 1), (2, 0x55), (20, 5), (63, 7), (64, 8), (65, 0xFFFFFFFFFF), (99, 3), (100, 2)] }
def access (a : BitVec 21) (m : Meet) : DAccess := { port := 1, addr := a, lanes := 31, wdata := 3, meet := m, op7 := false }

/-- The store with a lease of block 0. -/
def leased (st : LeaseState) : State :=
  { liveStore [] with
    policy := { State.reset.policy with storeTest := true }
    lease := { block := 0, st, retained := false }
    shadow := [(0, 9), (64, 0x77), (4095, 3)] }
def singleBit : StoreError := { addr := 64, multi := false }
def markerP : Packet := { pkt 0x003 0x500 0 0 0 0 [] with tag := 0, lanes := 0, host := 0 }
def poweredBows (l : List (Nat × Nat)) : State :=
  { inMode .idle l with bows := State.reset.bows.map (fun b => { b with powered := true, dmem := [(3, 4)] }) }

/-- Admin commands for the network, groups, patch sets and the scheduler. -/
def reconfigD : Desc := admin 0x11 [(8, 33), (9, 0xF), (0xA, 0x12), (0xB, 3), (0xC, 0x5678)]
def assignD : Desc := admin 1 [(8, 2), (9, 0x11), (0xA, 0x32)]
def releaseD : Desc := admin 2 [(8, 2)]
def clockD : Desc := admin 3 [(8, 2), (9, 5)]
def unlockD : Desc := admin 9 []

/-- Bow 2 holds a square of courses, another bow the course 60. -/
def owned2 (s : State) : State :=
  { s with
    bows := s.bows.set 2 { Bow.reset with powered := true, group := some square, held := true, clockSet := 3 }
    courses := Vector.ofFn (fun c : Fin 64 => { State.reset.courses[0] with
      owner := if c.val = 0 ∨ c.val = 1 ∨ c.val = 8 ∨ c.val = 9 then some 2 else if c.val = 60 then some 7 else none }) }

/-- A patch image with one word and one entry. -/
def patchImg (version : Nat) : PatchImage :=
  { header := BitVec.ofNat _ ([(0, 0x4D435031), (4, 1), (6, 160), (8, 0x65400001), (0xC, version), (0x10, 1), (0x12, 1), (0x14, 22)].foldl
      (fun v e => v + e.2 * 2 ^ (8 * e.1)) 0)
    sigOk := true, gcmOk := true, body := List.replicate 18 0 ++ [0x23, 0x01, 0, 0] }
def patchD : Desc := admin 0x10 [(8, 0), (0xA, 0x14)]
def patchStoreD : Desc := admin 0x10 [(8, 1), (0xA, 0x14)]
def newPatch : PatchSet := { version := 7, words := [0], entries := [] }
def lastSwap : PatchLoad := { desc := patchD, left := 4, named := 0x14 }
def patchBows (s : State) (p : Option PatchSet) : State :=
  { s with bows := (s.bows.set 2 { Bow.reset with powered := true, pending := p }).set 4 { Bow.reset with powered := true } }

/-- A scheduler entry on the epoch, with an action, an increment, a count, a target and an argument. -/
def entry (action : BitVec 4) (incr : Word) (count : BitVec 16) (target : Word) (arg : BitVec 64) : SchedEntry :=
  { armNo := 4, ref := 15, target, action, arg, incr, count, wake := false, tag := 9, desc := patchD, kernel := false, late := false, pin := none }
def armD : Desc := admin 0x20 [(8, 15), (9, 1), (0xA, 0x22), (0x10, 100), (0x20, 0x37)]
def cancelD : Desc := admin 0x21 [(8, 4)]
def scheduled (s : State) (l : List SchedEntry) : State := { s with epoch := 50, sched := l, ev := 0x80, pulse := s.pulse.set 7 3 }

/-- A packet whose header has left router 33, and a bow that is to rewrite its patch set. -/
def halfway : Worm :=
  { sent := mkSent ptRd (rd 1), way := [{ router := 33, inp := 5, vc := 0, out := 6 }],
    flits := [{ data := 0, place := 2, since := 0 }, { data := 0, place := 1, since := 0 }] }
def rewriting (s : State) : State := { s with bows := s.bows.set 2 { Bow.reset with powered := true, rewrite := true, patch := newPatch } }

/-- Fabric commands, and an image of version 77 for quadrant 2. -/
def loadD : Desc := admin 0x18 [(8, 0), (9, 4)]
def fabImg : FabImage := fabImage 4 1763 77
def loadStoreD : Desc := admin 0x18 [(8, 1), (9, 4)]
def step1 : FabLoad := { desc := loadD, quad := 2, wait := false, image := fabImg, step := 1 }
/-- A load under way, quadrant 2 in one of its states. -/
def loading (l : FabLoad) (states : Nat) : State :=
  let s := inMode .idle [(0x40000, states)]
  { s with accepted := [loadD], fabLoad := some l, fab := { s.fab with edges := Vector.replicate 4 (Vector.replicate 4 4) } }
def startD : Desc := admin 0x19 [(9, 2)]
def safeD : Desc := admin 0x1A [(8, 0x23), (0xF, 0x81), (0x10, 0x55), (0x11, 0x66), (0x15, 0x77), (0x4F, 3)]
def snapD : Desc := admin 0x1B [(8, 2), (0xB, 0), (0x10, 0x500)]
def fabricAsk : Packet := { pkt 0x302 0x103 1 0 0 0 [] with host := 0 }

/-- Snapshots on the first tree: at once, at an event, into the store; an armed one; a tree with a source. -/
def snapEvD : Desc := admin 0x1B [(8, 2), (9, 1), (0xA, 3), (0x10, 0x500)]
def snapStoreD : Desc := admin 0x1B [(8, 2), (0xB, 1), (0x10, 0x500)]
def snap0 : Snap := { desc := snapD, fired := false, taken := false, ffs := [], outs := [] }
def clocks : GlobalConf := { GlobalConf.blank with trees := Vector.replicate 4 (.timebase 10) }
/-- An image whose quadrants are on tree 1, which has a source. -/
def gatedImg : FabImage := { fabImg with global := clocks, quads := Vector.replicate 4 { QuadConf.blank with gates := 2 } }
def badFrames : FabImage := { fabImg with frames := (fabImg.frames.take 5) }

/-- FP40 1 + 5 × 2^-31, a fraction below one half, NaN and infinity. -/
def fpOne : Word := BitVec.ofNat 40 (127 * 2 ^ 31 + 5)
def fpSmall : Word := BitVec.ofNat 40 (126 * 2 ^ 31 + 77777)
def fpNan : Word := BitVec.ofNat 40 (255 * 2 ^ 31 + 2 ^ 30)
def fpInf : Word := BitVec.ofNat 40 (255 * 2 ^ 31)

/-- A channel with limits 1.0, and the Guard with it as channel 3. -/
def limits : GuardChan :=
  { GuardChan.reset with enabled := true, limRms := 0x3F80000000, limPeak := 0x3F80000000, nanLimit := 1, log2w := 2, stale := 500 }
def guarded (s : State) (c : GuardChan) : State :=
  { s with epoch := 777777, guard := { s.guard with num := 1, den := 2, chans := s.guard.chans.set 3 c } }
def driving (l : List (Nat × Nat)) : State :=
  inMode .idle ([(0x40000, 0x2222), (0x74010, 0xF), (0x74000, 3)] ++ storeOpen ++ l)

/-- Strobes of lane 1 and channel 3 have been taken an edge ago. -/
def early (s : State) : State := { s with fab := { s.fab with strobes := [(1, 3), (35, 3)] } }

/-- Guard commands for channel 3, and a ramp to 0 that has lasted. -/
def channelD : Desc := admin 0x45 [(8, 3), (9, 1), (0xB, 2), (0xC, 500), (0xE, 1), (0x10, 0x3F80000005), (0x18, 0x3F80000000)]
def tighterD : Desc := admin 0x45 [(8, 3), (9, 1), (0xB, 2), (0xC, 400), (0xE, 1), (0x10, 0x3F00012FD1), (0x18, 0x3F80000000)]
def lanesD : Desc := admin 0x46 [(8, 0x1234), (0xC, 300), (0x10, 200)]
def abortD : Desc := admin 0x47 []
def resumeD : Desc := admin 0x48 []
def rampedDown (m : Mode) (cause : Nat) : State :=
  { inMode m [(0x74000, 4 + 16 * cause), (0x74014, 3)] with
    epoch := 777777777777, guard := { State.reset.guard with num := 1, den := 2, ramp := some { up := false, t0 := 0 } } }

/-- A rail below its level, with a fault that has been recorded. -/
def brownedOut (rails : BitVec 3) (hold : Bool) : State :=
  { inMode .run [(0x74000, 3), (0x70000, 4), (0x70010, 1), (0x71000, 0xB40000)] with
    epoch := 777777, brown := { State.reset.brown with rails, hold }, faults := [.thermal] }

/-- Phase reference 2 with a configuration, a status and its counters. -/
def edges3 : PhRef := { a := false, b := false, e := 3, cycle := 9, t := 55, fwd := 1, seen := true, frac := 7, sinceZ := some 3 }
def phase (cfg status : Nat) (r : PhRef) : State :=
  let s := inMode .idle [(phReg 2 0, cfg), (phReg 2 0x14, status), (phReg 2 0x0C, 100), (phReg 2 0x10, 40), (0x40000, 2)]
  { s with
    refs := State.reset.refs.set 2 r, epoch := 777777
    fab := { s.fab with quads := s.fab.quads.set 0 { QuadConf.blank with taps := [(2, .const false), (10, .const true), (18, .const false)] } } }
/-- The same without a quadrant that drives it. -/
def undriven (s : State) : State := { s with fab := State.reset.fab }

/-- Timer 5 with a configuration, a count, a period, a compare value and a status. -/
def timer (m : Mode) (cfg count period cmp status : Nat) : State :=
  { inMode m [(0x50004, 1), (etReg 5 0, cfg), (etReg 5 4, count), (etReg 5 0xC, period), (etReg 5 0x14, cmp), (etReg 5 0x34, status)] with
    timers := State.reset.timers.set 5 { lo := Vector.replicate 3 0x12345678, sinceRise := 99, widthRead := false } }
def pps : State :=
  { inMode .idle [(0x50000, 3), (0x50010, 0xFFFF0000)] with
    faults := [.lfClock], ppsSeen := true, ppsRun := 7, pulse := State.reset.pulse.set 5 3, ev := 0xFF, epoch := 512000300 }

/-- The host interface enabled, with some registers set. -/
def hostOn (l : List (Nat × Nat)) : State :=
  { inMode .idle l with store := [(3, 7)], host := [(0x100, 1)], accepted := [desc 3 1 []] }

/-- Submission ring 1 enabled, its doorbell and its completion ring; and a descriptor in its memory. -/
def ringRegs (ci : Nat) : List (Nat × Nat) :=
  [(0x1000, 0x80000A64), (0x2050, 0x5000), (0x2058, 0x0B), (0x205C, 3), (0x2060, ci), (0x3050, 0x100D)]
def ring1 (ci : Nat) (idlePolls : Nat) : State :=
  { hostOn (ringRegs ci) with
    accepted := [], sq := State.reset.sq.set 1 { idlePolls, badPolls := 0, refetch := true, chain := none, cq := 1 } }
def fetched : DescBits := (admin 2 [(8, 1)]).bytes

/-- Descriptors of kernels and transfers. -/
def plainD : Desc := desc 1 0 [(8, 0x1000), (0xC, 0x40), (0xE, 1), (0x10, 0x22)]
def copyOutD : Desc := desc 2 0 [(8, 3), (0x10, 0), (0x18, 0x200), (0x28, 1), (0x30, 50)]
def copyInD : Desc := desc 2 0 [(8, 3), (0x10, 1), (0x18, 1), (0x28, 0), (0x30, 0x500)]
def readD : Desc := desc 2 1 [(8, 1), (0xB, 1), (0xC, 0x14), (0x10, 0x300)]
def writeD : Desc := desc 2 2 [(8, 1), (0xB, 1), (0xC, 0x14), (0x40, 0x3456)]
def fenceD : Desc := desc 2 0 [(1, 2), (8, 3), (0x10, 0), (0x18, 0x200), (0x28, 1), (0x30, 50)]
def transfers : State := hostOn ((0x22020, 0x10000) :: storeOpen)
def moving (d : Desc) : State :=
  { transfers with movers := State.reset.movers.set 3 [d], accepted := [d], store := [(1, 0x1122334455), (2, 5)] }

/-- An ABORT, and what it names. -/
def abortOfD : Desc := admin 8 [(8, 0), (12, 5)]
def targetD : Desc := desc 3 2 [(4, 5), (8, 1)]
def targetKernelD : Desc := desc 1 0 [(4, 5), (8, 0x1000), (0xC, 0x40), (0xE, 1), (0x10, 0x22)]
def targetJob : Job := newJob targetKernelD false

/-- A completion held for ring 2, and the stream commands. -/
def held (irq : Bool) : Completion :=
  { tag := 4, status := 0, ring := 1, type := 1, cflags := 0, detail := 7, extra := 9, result := 77, irq }
def holding (irq : Bool) : State :=
  { hostOn [(0x3080, 0x800), (0x3090, 1 + 8 + 64 * 5 + 4096 * 3 + 2 ^ 20 * 7), (0x3094, 18)] with
    cq := State.reset.cq.set 2 { held := [held irq], since := 1, overrun := false } }
def streamD : Desc := admin 0x28 [(8, 1), (9, 3), (12, 4)]
def stopD : Desc := admin 0x29 [(8, 1)]
def streaming : State :=
  { inMode .idle ([(0x4040, 0x1000), (0x4050, 0x10009), (0x4054, 128), (0x4058, 0x7), (0x405C, 0xFFFFFFFF),
      (0x30164, 8), (0x3016C, 1), (0x30170, 2), (0x30174, 7)] ++ storeOpen) with
    store := [(2, 3), (3, 4)], st := State.reset.st.set 1 { State.reset.st[1] with words := 3, written := 5, dropped := 2 } }

/-- The slot commands for slot 0 or another, and those of keys, lifecycle and tamper. -/
def eraseD (n : Nat) : Desc := admin 0x33 [(8, n)]
def slotWriteD (n : Nat) : Desc := admin 0x34 [(8, n)]
def verifyD : Desc := admin 0x35 [(8, 3)]
def activateD (n : Nat) : Desc := admin 0x36 [(8, n)]
def revertD : Desc := admin 0x31 []
def commitD : Desc := admin 0x37 []
def policyD : Desc := admin 0x38 [(8, 1)]
def ownerD : Desc := admin 0x39 [(9, 1)]
def lifecycleD : Desc := admin 0x3A [(8, 2)]
def tamperD (sources : Nat) : Desc := admin 0x3B [(8, sources), (9, 3), (10, 200)]
def clearD : Desc := admin 0x3C []
def secure (d : Desc) (m : Mode) (l : List (Nat × Nat)) : State := { turn d m l with store := [(0x1F0005, 7), (0x1F0006, 8)] }

/-- Boot, outputs and modes. -/
def restartD : Desc := admin 0x32 []
def outputsD : Desc := admin 0x30 []
def full (m : Mode) (l : List (Nat × Nat)) : State :=
  { inMode m l with pe := [(4, 1)], store := [(3, 7)], host := [(1, 1)], epoch := 55 }
/-- The second copy of the Vault directory is valid, the newer one, and as the registers show it. -/
def directory (s : State) : State :=
  { s with vault := s.vault.set 1 { seq := 9, dir := vaultDir s, crc := copyCrc 9 (vaultDir s) } }
def ready (s : State) : State :=
  { s with guard := { s.guard with chans := s.guard.chans.set 0 { GuardChan.reset with enabled := true, limRms := 0x3F80000000, limPeak := 0x3F80000000 } } }
def configured (m : Mode) (l : List (Nat × Nat)) : State :=
  turn outputsD m ([(0x40000, 0x1211), (0x74014, 100 + 50 * 2 ^ 14)] ++ l)
def modeD (m keep : Nat) : Desc := admin 0x40 [(8, m), (9, keep)]
def exitD : Desc := admin 0x41 []

/-- Monitor samples, and a state with limits for them. -/
def sampleOf (domain : Fin 96) (margin temp : BitVec 8) : Sample :=
  { domain, slacks := Vector.replicate 4 margin, temp, supply := 700, ros := Vector.replicate 2 4000 }
def monitored (l : List (Nat × Nat)) : State :=
  { inMode .idle l with epoch := 12345, policy := { State.reset.policy with low := 40, crit := 20, high := 200 } }
def servicePolicyD : Desc := admin 0x42 [(8, 3), (9, 40), (10, 20), (11, 200), (12, 5), (14, 3), (16, 0xFF)]

/-- The migration of course 5 to the spare 65, course 5 owned by bow 3. -/
def migrateD : Desc := admin 0x43 [(8, 5), (9, 65)]
def course5 (s : State) : State :=
  { s with courses := s.courses.set 5 { State.reset.courses[5] with owner := some 3 } }
def moveJob : Migration := { logical := 5, mirror := 65, desc := some migrateD, next := 0, todo := [], read := none, dirty := [], clean := false }
def spare65 (p : PState) (l : List (Nat × Nat)) : State :=
  { course5 (turn migrateD .run ([(0x70018, 1)] ++ l)) with pcourse := State.reset.pcourse.set 65 p }
def switchD (bank : Nat) : Desc := admin 0x44 [(8, bank)]
def logReadD : Desc := admin 0x49 [(12, 2), (16, 4), (24, 3)]
def logLine : LogEntry := { epoch := 77, source := 0x101, event := 2, status := 0, detail := 0x123456 }

/-- The copy is clean, and the last marker of its identity move. -/
def moveClean : Migration := { moveJob with clean := true }
def lastMarkerP : Packet := pkt 0x005 0x200 0 0 0 0 []

/-- Device 1 in a ring of four, a link with two packets unacknowledged, and a packet of the peer. -/
def peerP : Packet := { pkt 0x200 0x100 1 4 0 0 [] with ddev := 1, sdev := 2, tag := 3, host := 0 }
def sentTwo : PeerSt :=
  { expect := 5, next := 7, sinceAck := 15, kept := [{ bits := 1, done := some (mkSent 1 peerP) }, { bits := 2, done := some (mkSent 0 peerP) }], wait := []
    retrains := [], part := Vector.replicate 4 [], reply := none, line := [] }
def peers (state : Nat) (k : PeerSt) : State :=
  { inMode .idle [(0x80000, 0x321), (0x80100, state)] with epoch := 12345, peers := State.reset.peers.set 0 k }

/-- The debug port open, and bow 3 halted with an item selected. -/
def debugPort (l : List (Nat × Nat)) : State := { inMode .idle l with store := [(9, 0x1122334455)] }
def fpPort : List (Nat × Nat) := [(0x20000 + 33 * 0x80, 15), (0x22000 + (4 * 33 + 1) * 0x20, 0x2010000)]
def halted3 (m : Mode) (item : Nat) (l : List (Nat × Nat)) : State :=
  { inMode m ([(0x90010, 8), (0x901DC, item)] ++ l) with
    before := .idle
    bows := State.reset.bows.set 3 { Bow.reset with n := { Context.reset with run := .halted, s := Vector.replicate 16 0x1234567890 } } }

/-- A frame of a type and a number over its slots, with the CRC of its first 352 bits (R426). -/
def wireFrame (type n slots : Nat) : BitVec 384 :=
  let b := slots + type * 2 ^ 336 + n * 2 ^ 340
  BitVec.ofNat 384 (b + (crc32 (leBytes b 44)).toNat * 2 ^ 352)

/-- The peer's packet as the flit of slot 0. -/
def slotP : Nat := (headerFlit (mkSent 0 peerP)).toNat + 2 ^ 322 + 2 ^ 323
def frameNone : BitVec 384 := wireFrame 0 5 0
def framePacket : BitVec 384 := wireFrame 0 5 slotP

/-! ### Checks that decide the conditions of the statements -/

def arrivesB (t : Nat) (p : Packet) (s : State) (rest : List Sent) (np : Nat × Nat) : Bool :=
  takeSent (mkSent t p) s.flight == some rest && p.ddev == ownDev s && portOf s p.dst (match sourcePort s p with
    | some q => q.1
    | none => 0) == some np && formOk t p && clsOf p.dst != 0xA && !isBehind s (mkSent t p) s.flight &&
  !linkHolds s (mkSent t p) && portRoom s (mkSent t p) &&
  !waitsForHost s (mkSent t p) && niState s np == 0

theorem arrives_of {t : Nat} {p : Packet} {s : State} {rest : List Sent} {np : Nat × Nat}
    (h : arrivesB t p s rest np = true) : Arrives t p s rest np := by
  simp only [arrivesB, Bool.and_eq_true, beq_iff_eq, bne_iff_ne, Bool.not_eq_true'] at h
  obtain ⟨⟨⟨⟨⟨⟨⟨⟨⟨h1, h2⟩, h3⟩, h4⟩, h5⟩, h6⟩, h7⟩, h8⟩, h9⟩, h10⟩ := h
  exact ⟨h1, h2, h3, h4, h5, h6, h7, h8, h9, h10⟩

def inTurnB (code : Nat) (d : Desc) (s : State) : Bool :=
  descType d == 3 && descCode d == code && s.adminQ.contains d && atTurn s d && (gateBad s d).isNone && !awaitsMaster s d &&
  s.bootPass.isNone && !d.startup && decide ((s.cq[ringOf s d]).held.length < 256) && s.abortWaits.isEmpty

theorem inTurn_of {code : Nat} {d : Desc} {s : State} (h : inTurnB code d s = true) : InTurn code d s := by
  simp only [inTurnB, Bool.and_eq_true, beq_iff_eq, Option.isNone_iff_eq_none, List.isEmpty_iff, decide_eq_true_eq,
    Bool.not_eq_true'] at h
  obtain ⟨⟨⟨⟨⟨⟨⟨⟨⟨h1, h2⟩, h3⟩, h4⟩, h5⟩, h6⟩, h7⟩, h8⟩, h9⟩, h10⟩ := h
  exact ⟨h1, h2, h3, h4, h5, h6, h7, h8, h9, h10⟩

def canAnswerB (s : State) (p : Packet) : Bool :=
  let r := respOf s p stOK []
  !isHeld s r && match sourcePort s r with
    | some np => !sourceBad s r np
    | none => false

theorem canAnswer_of {s : State} {p : Packet} (h : canAnswerB s p = true) : CanAnswer s p := by
  simp only [canAnswerB, Bool.and_eq_true, Bool.not_eq_true'] at h
  unfold CanAnswer
  cases hp : sourcePort s (respOf s p stOK []) with
  | none => simp [hp] at h
  | some np => simp_all

def streamReadyB (s : State) (r : Fin 32) (w : Fin 16) (h : BitVec 32) : Bool :=
  decide (((reg s (stBase r.val + 0x18)).getLsbD 0 = true ∧ bitsOf (reg s (stBase r.val + 0x18)).toNat 4 1 = w.val ∧
    (s.st[r]).words ≠ 0) ∧ busMaster s = true ∧ (storeServes s = true ∧ s.storeErr = [] ∧ winOn s w = true) ∧
    ((s.st[r]).words.toNat ≤ winUsed s w ∧ winHead s w < winLen s w ∧ winTail s w < winLen s w) ∧
    ringOn s (stBase r.val + 0x10) = true ∧
    recordSize (s.st[r]).words.toNat ((reg s (stBase r.val + 0x18)).getLsbD 6) ≤ regBits s (stBase r.val + 0x14) 19 0 ∧
    ((s.st[r]).written - h).toNat < 2 ^ regBits s (stBase r.val + 0x10) 5 1)

theorem streamReady_of {s : State} {r : Fin 32} {w : Fin 16} {h : BitVec 32} (c : streamReadyB s r w h = true) :
    StreamReady s r w h := by
  obtain ⟨⟨h1, h2, h3⟩, h4, h5, h6, h7, h8, h9⟩ := of_decide_eq_true c
  exact ⟨h1, h2, h3, h4, h5, h6, h7, h8, h9⟩

/-! ### Images that pass their checks -/

theorem frameCrc_with (f : FabFrame) (c : BitVec 32) : frameCrcOk { f with fcrc := c } = (c == crc32 (frameBytes f)) := rfl

theorem frameCrc_frameOf (a : Nat) : frameCrcOk (frameOf a) = true := by
  unfold frameOf
  rw [frameCrc_with]
  exact beq_self_eq_true _

theorem framesBad_frameOf (all : List Nat) : ∀ (es : List Nat) (i : Nat), (∀ a ∈ es, a < 2 ^ 32) →
    framesBad all i (es.map frameOf) es = none
  | [], _, _ => rfl
  | e :: es, i, h => by
    have he : (frameOf e).faddr.toNat = e := Nat.mod_eq_of_lt (h e (List.mem_cons_self ..))
    have hf : frameFormBad (frameOf e) = false := rfl
    simp only [List.map_cons, framesBad, hf, he, Bool.false_eq_true, if_false, if_true]
    exact framesBad_frameOf all es (i + 1) fun a ha => h a (List.mem_cons_of_mem _ ha)

theorem quads_fabImage (mask frames version : Nat) (q : Fin 4) :
    (fabImage mask frames version).quads[q.val] = QuadConf.blank := by
  simp [fabImage]

theorem settings_fabImage {s : State} (mask frames version : Nat) :
    settingsBad (fabImage mask frames version) mask = none ∧ driversBad s (fabImage mask frames version) mask = none ∧
      standardsBad s (fabImage mask frames version) mask = none := by
  have hg : globalBad (fabImage mask frames version).global = false := by
    simp only [fabImage]
    decide
  have hr : (fabImage mask frames version).reserved = none := rfl
  have hn (l : List (Fin 4)) : l.filter (fun _ => false) = [] := List.filter_eq_nil_iff.2 (by simp)
  refine ⟨?_, ?_, ?_⟩
  · simp [settingsBad, hg, hr, quads_fabImage, hn, QuadConf.blank, firstFrame]
  · simp [driversBad, quads_fabImage, hn, QuadConf.blank, drivenBalls, drivenTaps, firstFrame]
  · simp [standardsBad, quads_fabImage, hn, QuadConf.blank, firstFrame]

theorem frameFault_fabImage {s : State} {mask frames version : Nat} (h : ∀ a ∈ imageFrames mask, a < 2 ^ 32) :
    frameFault s (fabImage mask frames version) mask = none := by
  obtain ⟨h8, h9, h10⟩ := settings_fabImage (s := s) mask frames version
  have hf : (fabImage mask frames version).frames = (imageFrames mask).map frameOf := rfl
  unfold frameFault
  rw [h8, h9, h10, hf]
  revert h
  generalize imageFrames mask = es
  intro h
  have h2 : (es.map frameOf).findIdx? (fun f => !frameCrcOk f) = none := by
    simp only [List.findIdx?_eq_none_iff, List.mem_map]
    rintro f ⟨a, -, rfl⟩
    simp [frameCrc_frameOf]
  rw [framesBad_frameOf es es 0 h, h2]

theorem addresses_small : ∀ m ∈ [4, 15], (imageFrames m).all (fun a => decide (a < 2 ^ 32)) = true := by decide +kernel

theorem imageBody_fabImage {s : State} (mask frames version : Nat) (hm : mask ∈ [4, 15]) :
    fabEnc (fabImage mask frames version) = false → imageBody s mask (fabImage mask frames version) = none := by
  intro h
  have hf : frameFault s (fabImage mask frames version) mask = none :=
    frameFault_fabImage fun a ha => of_decide_eq_true (List.all_eq_true.1 (addresses_small mask hm) a ha)
  simp only [imageBody, hf, h]
  rfl

theorem loadVerify_of {s : State} {i : FabImage} {mask : Nat} (hb : imageBody s mask i = none)
    (h : (anyLoaded s && (imageGlobal i).bytes != s.fabGlobal.bytes) = false) : loadVerify s mask i = none := by
  simp only [loadVerify, hb, h]
  rfl

theorem imageBody_fabImg {s : State} : imageBody s 4 fabImg = none :=
  imageBody_fabImage 4 1763 77 (by decide) (by decide +kernel)

theorem global_fabImg : (imageGlobal fabImg).bytes = 0 := by decide +kernel

/-- No other quadrant is loaded, or the GLOBAL frame is that in force. -/
theorem loadVerify_fabImg {s : State} {mask : Nat} (hm : mask = 4) (h : anyLoaded s = false ∨ s.fabGlobal.bytes = 0) :
    loadVerify s mask fabImg = none := by
  subst hm
  refine loadVerify_of imageBody_fabImg ?_
  rw [global_fabImg]
  rcases h with h | h <;> simp [h]

theorem components_img : (components img).all (fun c => c.2.type == 2 || c.2.type != 3 && !formatBad img c.2) = true := by
  decide +kernel

theorem contents_img {s : State} (h : imageHead s 0xF img.fabric = none) : contentsCheck s img = none := by
  have hb : bootImageFault s img = none := by
    have hk : fabKey img.fabric = manifestKey img := by decide +kernel
    have hi : imageBody s 15 img.fabric = none := imageBody_fabImage 15 7049 9 (by decide) (by decide +kernel)
    simp [bootImageFault, hk, h, hi]
  have hc : (components img).filterMap (contentFault s img) = [] := by
    rw [List.filterMap_eq_nil_iff]
    intro c hc
    have := List.all_eq_true.1 components_img c hc
    unfold contentFault
    split
    · simp [hb]
    · simp_all
    · simp_all
  simp [contentsCheck, hc]

theorem slotCheck_img {s : State} (h : manifestCheck s img = none ∧ imageHead s 0xF img.fabric = none) :
    slotCheck s img = none := by
  unfold slotCheck
  rw [h.1, contents_img h.2]
  rfl

theorem slotSound_img {s : State} (h : manifestCheck (setReg s 0x40020 (img.banks.setWidth 32)) img = none ∧
    imageHead (setReg s 0x40020 (img.banks.setWidth 32)) 0xF img.fabric = none) : SlotSound s img :=
  ⟨slotCheck_img h, rfl⟩

theorem slotBoots_img {s : State} (h : manifestCheck (setReg s 0x40020 (img.banks.setWidth 32)) img = none ∧
    imageHead (setReg s 0x40020 (img.banks.setWidth 32)) 0xF img.fabric = none) : SlotBoots s img :=
  ⟨slotSound_img h, rfl, rfl, rfl⟩

theorem load_eq {d : Desc} {q q' : Fin 4} {w w' : Bool} {n : Nat} {i : FabImage} (hq : q = q') (hw : w = w') :
    (some { desc := d, quad := q, wait := w, image := i, step := n } : Option FabLoad) =
      some { desc := d, quad := q', wait := w', image := i, step := n } := by
  rw [hq, hw]

/-! ### Instructions that issue -/

def runsB (x : Issue) (s : State) : Bool :=
  let k := ctx s x.bow x.ctx
  (k.run == .running || k.run == .stalled) && k.job.isSome && k.wait.isNone && (bow s x.bow).window.isNone &&
  !(reg s 0x90004).getLsbD x.bow.val && !(reg s 0x90000).getLsbD 0 && !k.stepping && !k.aborting && k.rep.isNone &&
  k.deliveries.isEmpty && k.gOut.isEmpty && k.asks.isEmpty && (bow s x.bow).microHit.isNone && k.micro.isNone

theorem runs_of {x : Issue} {s : State} (h : runsB x s = true) : Runs x s := by
  simp only [runsB, Bool.and_eq_true, Bool.or_eq_true, beq_iff_eq, Option.isNone_iff_eq_none, List.isEmpty_iff,
    Bool.not_eq_true'] at h
  obtain ⟨⟨⟨⟨⟨⟨⟨⟨⟨⟨⟨⟨⟨h1, h2⟩, h3⟩, h4⟩, h5⟩, h6⟩, h7⟩, h8⟩, h9⟩, h10⟩, h11⟩, h12⟩, h13⟩, h14⟩ := h
  exact ⟨h1, h2, h3, h4, h5, h6, h13, h14, h7, h8, h9, h10, h11, h12⟩

def soundB (op : Nat) (x : Issue) (s : State) : Bool :=
  !lineMissing (bow s x.bow) (ctx s x.bow x.ctx) && !lineInvalid (bow s x.bow) (ctx s x.bow x.ctx) && match opSpec op with
    | some sp => fieldsOk op sp x
    | none => false

theorem sound_of {op : Nat} {x : Issue} {s : State} (h : soundB op x s = true) :
    lineMissing (bow s x.bow) (ctx s x.bow x.ctx) = false ∧ lineInvalid (bow s x.bow) (ctx s x.bow x.ctx) = false ∧
      ∃ sp, opSpec op = some sp ∧ fieldsOk op sp x = true := by
  simp only [soundB, Bool.and_eq_true, Bool.not_eq_true'] at h
  obtain ⟨⟨h0, h1⟩, h2⟩ := h
  cases hs : opSpec op with
  | none => simp [hs] at h2
  | some sp => exact ⟨h0, h1, sp, rfl, by simpa [hs] using h2⟩

def issuesB (op : Nat) (x : Issue) (s : State) : Bool :=
  let k := ctx s x.bow x.ctx
  runsB x s && opOf op x == op && soundB op x s && condHolds x.cond k.bf && !valueReserved op x k && !fallsOff op x k &&
  !rangeBad op x (bow s x.bow) (x.ctx == .u) k &&
  (match newA7 op x k with
    | some v => decide (k.stackLo.toNat ≤ v.toNat)
    | none => true) &&
  decide (∀ a ∈ dmemReads op x k, ∀ e ∈ (bow s x.bow).dmemErr, e.addr.toNat ≠ a)

theorem issues_of {op : Nat} {x : Issue} {s : State} (h : issuesB op x s = true) : Issues op x s := by
  simp only [issuesB, Bool.and_eq_true, Bool.not_eq_true', decide_eq_true_eq, beq_iff_eq] at h
  obtain ⟨⟨⟨⟨⟨⟨⟨⟨h1, h0⟩, h2⟩, h3⟩, h4⟩, h5⟩, h6⟩, h7⟩, h8⟩ := h
  refine ⟨runs_of h1, h0, (sound_of h2).2.2, (sound_of h2).1, (sound_of h2).2.1, h3, h4, h5, h6, ?_, h8⟩
  intro v hv
  simpa [hv] using h7

def arrayIssuesB (op : Nat) (x : Issue) (s : State) (r : Rect) : Bool :=
  issuesB op x s && (bow s x.bow).group == some r &&
  decide (r.x0.toNat + r.w ≤ 8 ∧ r.y0.toNat + r.h ≤ 8 ∧ 1 ≤ r.w ∧ 1 ≤ r.h) &&
  (portsOf op x).all (fun n => streamReady s r n) && s.peErr.isEmpty && (bow s x.bow).patch.entries.isEmpty && x.stop.isNone &&
  cwf zeroes s.pe

theorem arrayIssues_of {op : Nat} {x : Issue} {s : State} {r : Rect} (h : arrayIssuesB op x s r = true) :
    ArrayIssues op x s r := by
  simp only [arrayIssuesB, Bool.and_eq_true, beq_iff_eq, decide_eq_true_eq, List.all_eq_true, List.isEmpty_iff,
    Option.isNone_iff_eq_none] at h
  obtain ⟨⟨⟨⟨⟨⟨⟨h1, h2⟩, h3⟩, h4⟩, h5⟩, h6⟩, h7⟩, h8⟩ := h
  exact ⟨issues_of h1, h2, h3, h4, h5, h6, .inl h7, h8⟩

/-- The destination's planes begin at `d`, the first source's at `a`, and the second source is no LAR or link field and
begins at plane 0x2000, if it is a plane field. -/
def placedB (op : Nat) (x : Issue) (s : State) (r : Rect) (d a : Nat) : Bool :=
  dstOf (self x s) x.dst == .planes d && (argsOf op x r s).s1 == .mem a && match (argsOf op x r s).s2 with
    | .mem c => c == 0x2000
    | .link _ _ _ | .indirect _ => false
    | _ => true

theorem unhurt_of {op : Nat} {x : Issue} {s : State} {r : Rect} {n : Nat} {idx : Nat → Option Nat} (d a : Nat)
    (h : placedB op x s r d a = true)
    (clear : ∀ i j q, i < n → j + 2 ≤ i → idx i = some q → a + q ≠ d + j ∧ 0x2000 + q ≠ d + j) : unhurt op x s r n idx := by
  simp only [placedB, Bool.and_eq_true, beq_iff_eq] at h
  obtain ⟨⟨hd, h1⟩, h2⟩ := h
  intro b hb i j q hi hj hq src hs
  obtain rfl : d = b := by simpa [hd] using hb
  have hc := clear i j q hi hj hq
  rcases List.mem_cons.1 hs with rfl | hs
  · simpa [h1] using hc.1
  · obtain rfl : src = (argsOf op x r s).s2 := by simpa using hs
    revert h2
    cases (argsOf op x r s).s2 <;> simp
    rintro rfl
    exact hc.2

theorem test_meets_ScalarSums : ∀ w ∈ [1, 40], ∀ op ∈ [0x80, 0x81, 0x82, 0x83, 0x84, 0x85], Issues op (plain op w) issuing := by
  intro w hw op hop
  have h : ∀ w ∈ [1, 40], ∀ op ∈ [0x80, 0x81, 0x82, 0x83, 0x84, 0x85], issuesB op (plain op w) issuing = true := by decide +kernel
  exact issues_of (h w hw op hop)

theorem test_meets_ScalarLogicAndShifts :
    (∀ w ∈ [1, 40], ∀ op ∈ [0x86, 0x87, 0x88, 0x89, 0x8A, 0x8B, 0xB0, 0xB1, 0x90, 0x91, 0x92, 0x93],
      Issues op (plain op w) issuing) ∧ Issues 0xB2 (plain 0xB2 0) issuing := by
  have h : ∀ w ∈ [1, 40], ∀ op ∈ [0x86, 0x87, 0x88, 0x89, 0x8A, 0x8B, 0xB0, 0xB1, 0x90, 0x91, 0x92, 0x93],
    issuesB op (plain op w) issuing = true := by decide +kernel
  exact ⟨fun w hw op hop => issues_of (h w hw op hop), issues_of (by decide +kernel)⟩

theorem test_meets_ScalarProducts : ∀ w ∈ [1, 40], ∀ op ∈ [0x94, 0x95, 0x96, 0x97, 0x98, 0x99, 0x9A, 0x9C],
    Issues op (plain op w) issuing := by
  have h : ∀ w ∈ [1, 40], ∀ op ∈ [0x94, 0x95, 0x96, 0x97, 0x98, 0x99, 0x9A, 0x9C], issuesB op (plain op w) issuing = true := by
    decide +kernel
  exact fun w hw op hop => issues_of (h w hw op hop)

theorem test_meets_ScalarFloat : ∀ op ∈ [0xA0, 0xA1, 0xA2, 0xA3, 0xA4, 0xA5, 0xA6, 0xA7, 0xA8, 0xA9, 0xAA, 0xAB, 0xAC],
    Issues op (plain op 40) issuing := by
  have h : ∀ op ∈ [0xA0, 0xA1, 0xA2, 0xA3, 0xA4, 0xA5, 0xA6, 0xA7, 0xA8, 0xA9, 0xAA, 0xAB, 0xAC],
    issuesB op (plain op 40) issuing = true := by decide +kernel
  exact fun op hop => issues_of (h op hop)

theorem test_meets_AddressRegisters :
    (∀ op ∈ [0xB4, 0xB5, 0xB8, 0xB9, 0xBA, 0xBB, 0xBC], Issues op (plain op 0) issuing) ∧ modeOf (plain 0xB5 0).dst = 5 ∧
    (let x : Issue := { plain 0xB5 0 with dst := memOp 0x3FFF }
     Issues 0xB5 x issuing ∧ modeOf x.dst ≠ 5) ∧
    Issues 0xB9 { plain 0xB9 0 with dst := regOp 7 } issuing := by
  have h : ∀ op ∈ [0xB4, 0xB5, 0xB8, 0xB9, 0xBA, 0xBB, 0xBC], issuesB op (plain op 0) issuing = true := by decide +kernel
  exact ⟨fun op hop => issues_of (h op hop), by decide +kernel, ⟨issues_of (by decide +kernel), by decide +kernel⟩, issues_of (by decide +kernel)⟩

/-- The same context with BF.G set, and inside a trap handler. -/
def issuingG : State := onBow { bow2i with n := { ctxI with bf := 0x10 } }
def handling : State := onBow { bow2i with n := { ctxI with th := true, trapPc := 0x1FFE } }

theorem test_meets_ControlFlow :
    (let x : Issue := { plain 0xC0 0 with src1 := immOp 0x1FFF }; Issues 0xC0 x issuing ∧ x.cond ≠ 0xE ∧ x.cond ≠ 0xF) ∧
    (let x : Issue := { plain 0xC0 0 with src1 := immOp 0x20, cond := 0xE }; Issues 0xC0 x issuingG) ∧
    (let x : Issue := { plain 0xC0 0 with src1 := immOp 0x20, cond := 0xF }
     Issues 0xC0 { x with cond := 0 } issuingG ∧ condHolds x.cond (self x issuingG).bf = false ∧ (self x issuingG).pc ≠ 0x1FFF) ∧
    Issues 0xC1 { plain 0xC1 0 with src1 := regOp 15 } issuing ∧ Issues 0xC2 { plain 0xC2 0 with src1 := immOp 0x20 } issuing ∧
    Issues 0xC3 { plain 0xC3 0 with src1 := regOp 15 } issuing ∧ Issues 0xC4 (plain 0xC4 0) issuing ∧
    Issues 0xC5 { plain 0xC5 0 with src1 := immOp 0x1FFF } issuing ∧ Issues 0xC6 (plain 0xC6 0) issuing ∧
    (Issues 0xC8 { plain 0xC8 0 with dst := 1 } issuing ∧ repFollowBad (encodeWord 0x80 (plain 0x80 40)) = false) ∧
    Issues 0xCC (plain 0xCC 0) issuing := by
  refine ⟨⟨issues_of ?_, ?_, ?_⟩, issues_of ?_, ⟨issues_of ?_, ?_, ?_⟩, issues_of ?_, issues_of ?_, issues_of ?_, issues_of ?_,
    issues_of ?_, issues_of ?_, ⟨issues_of ?_, ?_⟩, issues_of ?_⟩
  all_goals decide +kernel

theorem test_meets_TrapsAndReturns :
    (Issues 0xCE (plain 0xCE 0) issuing ∧ (self (plain 0xCE 0) issuing).th = false) ∧
    (Issues 0xEF (plain 0xEF 0) issuing ∧ (self (plain 0xEF 0) issuing).th = false ∧ (reg issuing 0x90000).getLsbD 1 = false) ∧
    Issues 0xCF { plain 0xCF 0 with src1 := immOp 0 } handling ∧ Issues 0xCF { plain 0xCF 0 with src1 := immOp 1 } handling := by
  refine ⟨⟨issues_of ?_, ?_⟩, ⟨issues_of ?_, ?_, ?_⟩, issues_of ?_, issues_of ?_⟩
  all_goals decide +kernel

theorem test_meets_SystemInstructions :
    (∀ i ∈ [0, 10], Issues 0xE1 { plain 0xE1 0 with src1 := immOp i } issuing) ∧
    (∀ sel ∈ [0, 1, 2, 3, 4], Issues 0xE2 { plain 0xE2 0 with src2 := immOp sel } issuing) ∧
    (∀ op ∈ [0xE3, 0xE4, 0xE5, 0xE6, 0xE7, 0xE8, 0xEA, 0xEB], Issues op { plain op 0 with src1 := (plain op 0).src1 } issuing) ∧
    Issues 0xE9 { plain 0xE9 0 with src1 := regOp 4 } issuing ∧
    (let x : Issue := { plain 0xEC 0 with src1 := immOp 8, src2 := regOp 4 }
     Issues 0xEC x { issuing with epoch := 31 } ∧ reached (refValue { issuing with epoch := 31 } 8) (sValue (self x issuing) x.src2) = true ∧
     Issues 0xEC x issuing ∧ reached (refValue issuing 8) (sValue (self x issuing) x.src2) = false) := by
  have h1 : ∀ i ∈ [0, 10], issuesB 0xE1 { plain 0xE1 0 with src1 := immOp i } issuing = true := by decide +kernel
  have h2 : ∀ i ∈ [0, 1, 2, 3, 4], issuesB 0xE2 { plain 0xE2 0 with src2 := immOp i } issuing = true := by decide +kernel
  have h3 : ∀ op ∈ [0xE3, 0xE4, 0xE5, 0xE6, 0xE7, 0xE8, 0xEA, 0xEB], issuesB op (plain op 0) issuing = true := by decide +kernel
  refine ⟨fun i hi => issues_of (h1 i hi), fun i hi => issues_of (h2 i hi), fun i hi => issues_of (h3 i hi), issues_of ?_,
    issues_of ?_, ?_, issues_of ?_, ?_⟩
  all_goals decide +kernel

theorem test_meets_KernelEnds : Issues 0xE0 (plain 0xE0 0) issuing ∧ (self (plain 0xE0 0) issuing).job = some job ∧
    (bow issuing (plain 0xE0 0).bow).launches = [] := by
  exact ⟨issues_of (by decide +kernel), by decide +kernel, by decide +kernel⟩

/-- An array instruction whose destination lies one plane above its first source. -/
def overlap (op w : Nat) : Issue := { plain op w with src1 := memOp 0x3000, dst := memOp 0x3001 }

def overlapB (op w : Nat) : Bool :=
  arrayIssuesB op (overlap op w) issuing square && placedB op (overlap op w) issuing square 0x3001 0x3000

theorem overlap_of {op w : Nat} (h : overlapB op w = true) (n : Nat) (idx : Nat → Option Nat) (hn : n ≤ 64)
    (hidx : ∀ i q, idx i = some q → q = i) :
    ArrayIssues op (overlap op w) issuing square ∧ unhurt op (overlap op w) issuing square n idx := by
  simp only [overlapB, Bool.and_eq_true] at h
  refine ⟨arrayIssues_of h.1, unhurt_of 0x3001 0x3000 h.2 fun i j q hi hj hq => ?_⟩
  have := hidx i q hq
  omega

theorem widthOf_le (op w : Nat) : widthOf (overlap op w) ≤ 64 := by
  unfold widthOf
  split
  · exact Nat.le_refl _
  · exact Nat.le_of_lt (BitVec.isLt _)

theorem overlap_full {op w : Nat} (h : overlapB op w = true) :
    ArrayIssues op (overlap op w) issuing square ∧ unhurt op (overlap op w) issuing square (widthOf (overlap op w)) some :=
  overlap_of h _ _ (widthOf_le op w) (by simp)

theorem test_meets_ArraySumsAndDifferences :
    ∀ w ∈ [1, 64], ∀ op ∈ [0x00, 0x01, 0x02, 0x03, 0x04, 0x05, 0x06, 0x07, 0x08, 0x09],
      ArrayIssues op (overlap op w) issuing square ∧ unhurt op (overlap op w) issuing square (widthOf (overlap op w)) some := by
  have h : ∀ w ∈ [1, 64], ∀ op ∈ [0x00, 0x01, 0x02, 0x03, 0x04, 0x05, 0x06, 0x07, 0x08, 0x09], overlapB op w = true := by
    decide +kernel
  exact fun w hw op hop => overlap_full (h w hw op hop)

theorem test_meets_ArrayCompares :
    (∀ w ∈ [1, 64], ∀ op ∈ [0x10, 0x11, 0x12, 0x13, 0x14, 0x15], ArrayIssues op (plain op w) issuing square) ∧
    (∀ w ∈ [1, 64], ∀ op ∈ [0x0A, 0x0B, 0x0C, 0x0D], ArrayIssues op (overlap op w) issuing square ∧
      unhurt op (overlap op w) issuing square (widthOf (overlap op w)) some) := by
  have h1 : ∀ w ∈ [1, 64], ∀ op ∈ [0x10, 0x11, 0x12, 0x13, 0x14, 0x15], arrayIssuesB op (plain op w) issuing square = true := by
    decide +kernel
  have h2 : ∀ w ∈ [1, 64], ∀ op ∈ [0x0A, 0x0B, 0x0C, 0x0D], overlapB op w = true := by decide +kernel
  exact ⟨fun w hw op hop => arrayIssues_of (h1 w hw op hop), fun w hw op hop => overlap_full (h2 w hw op hop)⟩

theorem test_meets_ArrayProducts : ∀ w ∈ [1, 64], ∀ op ∈ [0x18, 0x19, 0x1A, 0x1C, 0x1D],
    ArrayIssues op (plain op w) issuing square := by
  have h : ∀ w ∈ [1, 64], ∀ op ∈ [0x18, 0x19, 0x1A, 0x1C, 0x1D], arrayIssuesB op (plain op w) issuing square = true := by
    decide +kernel
  exact fun w hw op hop => arrayIssues_of (h w hw op hop)

/-- A shift by an immediate amount, its source far from its destination. -/
def shift (op w n : Nat) : Issue := { plain op w with src2 := immOp n }

theorem shift_of {op w n : Nat} (h : arrayIssuesB op (shift op w n) issuing square = true ∧
      placedB op (shift op w n) issuing square 0x3000 0x1000 = true) (m : Nat) (idx : Nat → Option Nat)
    (hidx : ∀ i q, i < m → idx i = some q → q < 64) :
    ArrayIssues op (shift op w n) issuing square ∧ unhurt op (shift op w n) issuing square m idx := by
  refine ⟨arrayIssues_of h.1, unhurt_of 0x3000 0x1000 h.2 fun i j q hi hj hq => ?_⟩
  have := hidx i q hi hq
  omega

theorem test_meets_ArrayLogicShifts :
    (∀ w ∈ [1, 64], ∀ op ∈ [0x20, 0x21, 0x22, 0x23, 0x24, 0x25, 0x26, 0x27], ArrayIssues op (overlap op w) issuing square ∧
      unhurt op (overlap op w) issuing square (widthOf (overlap op w)) some) ∧
    (∀ n ∈ [0, 1, 127], ∀ w ∈ [1, 64],
      (ArrayIssues 0x30 (shift 0x30 w n) issuing square ∧
        unhurt 0x30 (shift 0x30 w n) issuing square w (fun i => if n ≤ i then some (i - n) else none)) ∧
      (∀ op ∈ [0x31, 0x32], ArrayIssues op (shift op w n) issuing square ∧
        unhurt op (shift op w n) issuing square w (fun i => if i + n < w then some (i + n) else none)) ∧
      (ArrayIssues 0x33 (shift 0x33 w n) issuing square ∧
        unhurt 0x33 (shift 0x33 w n) issuing square w (fun i => some ((i + w - n % w) % w))) ∧
      ∀ op ∈ [0x30, 0x31, 0x32, 0x33], widthOf (shift op w n) = w) := by
  have h1 : ∀ w ∈ [1, 64], ∀ op ∈ [0x20, 0x21, 0x22, 0x23, 0x24, 0x25, 0x26, 0x27], overlapB op w = true := by decide +kernel
  have h2 : ∀ n ∈ [0, 1, 127], ∀ w ∈ [1, 64], ∀ op ∈ [0x30, 0x31, 0x32, 0x33],
    (arrayIssuesB op (shift op w n) issuing square = true ∧ placedB op (shift op w n) issuing square 0x3000 0x1000 = true) ∧
      widthOf (shift op w n) = w := by decide +kernel
  refine ⟨fun w hw op hop => overlap_full (h1 w hw op hop), fun n hn w hw => ?_⟩
  have hw' : 1 ≤ w ∧ w ≤ 64 := by revert hw; simp; omega
  refine ⟨shift_of (h2 n hn w hw 0x30 (by decide)).1 _ _ ?_, fun op hop => shift_of (h2 n hn w hw op ?_).1 _ _ ?_,
    shift_of (h2 n hn w hw 0x33 (by decide)).1 _ _ ?_, fun op hop => (h2 n hn w hw op hop).2⟩
  · intro i q hi hq
    split at hq <;> simp at hq
    omega
  · revert hop; simp; omega
  · intro i q hi hq
    split at hq <;> simp at hq
    omega
  · intro i q hi hq
    have : q = (i + w - n % w) % w := by simpa using hq.symm
    have := Nat.mod_lt (i + w - n % w) hw'.1
    omega

theorem test_meets_ArrayMoves :
    (∀ op ∈ [0x60, 0x61, 0x62], ∀ w ∈ [1, 64], ∀ m ∈ [1, w], ArrayIssues op (overlap op w) issuing square ∧
      unhurt op (overlap op w) issuing square w (fun i => if i < m then some i else none)) ∧
    (∀ w ∈ [1, 14], ArrayIssues 0x38 (plain 0x38 w) issuing square) ∧ (∀ w ∈ [1, 16], ArrayIssues 0x39 (plain 0x39 w) issuing square) ∧
    (∀ op ∈ [0x3A, 0x3B, 0x3C, 0x3D], ArrayIssues op (plain op 1) issuing square) := by
  have h1 : ∀ op ∈ [0x60, 0x61, 0x62], ∀ w ∈ [1, 64], overlapB op w = true ∧ w ≤ 64 := by decide +kernel
  have h2 : ∀ w ∈ [1, 14], arrayIssuesB 0x38 (plain 0x38 w) issuing square = true := by decide +kernel
  have h3 : ∀ w ∈ [1, 16], arrayIssuesB 0x39 (plain 0x39 w) issuing square = true := by decide +kernel
  have h4 : ∀ op ∈ [0x3A, 0x3B, 0x3C, 0x3D], arrayIssuesB op (plain op 1) issuing square = true := by decide +kernel
  refine ⟨fun op hop w hw m hm => overlap_of (h1 op hop w hw).1 _ _ (h1 op hop w hw).2 ?_, fun w hw => arrayIssues_of (h2 w hw),
    fun w hw => arrayIssues_of (h3 w hw), fun op hop => arrayIssues_of (h4 op hop)⟩
  intro i q hq
  split at hq <;> simp at hq
  omega

theorem test_meets_ArrayFloatingPoint :
    (∀ op ∈ [0x40, 0x41, 0x42, 0x43, 0x44, 0x45, 0x58, 0x4A, 0x4B, 0x4C, 0x4D], ArrayIssues op (plain op 40) issuing square) ∧
    (∀ op ∈ [0x50, 0x51, 0x52, 0x53], ∀ w ∈ [1, 64], ArrayIssues op (plain op w) issuing square) ∧
    (∀ op ∈ [0x54, 0x55], ArrayIssues op (plain op 32) issuing square) ∧
    (∀ op ∈ [0x56, 0x57], ArrayIssues op (plain op 64) issuing square) ∧
    (∀ op ∈ [0x46, 0x47, 0x48, 0x49], ArrayIssues op (overlap op 40) issuing square ∧
      unhurt op (overlap op 40) issuing square 40 some) := by
  have h1 : ∀ op ∈ [0x40, 0x41, 0x42, 0x43, 0x44, 0x45, 0x58, 0x4A, 0x4B, 0x4C, 0x4D],
    arrayIssuesB op (plain op 40) issuing square = true := by decide +kernel
  have h2 : ∀ op ∈ [0x50, 0x51, 0x52, 0x53], ∀ w ∈ [1, 64], arrayIssuesB op (plain op w) issuing square = true := by decide +kernel
  have h3 : ∀ op ∈ [0x54, 0x55], arrayIssuesB op (plain op 32) issuing square = true := by decide +kernel
  have h4 : ∀ op ∈ [0x56, 0x57], arrayIssuesB op (plain op 64) issuing square = true := by decide +kernel
  have h5 : ∀ op ∈ [0x46, 0x47, 0x48, 0x49], overlapB op 40 = true := by decide +kernel
  exact ⟨fun op h => arrayIssues_of (h1 op h), fun op h w hw => arrayIssues_of (h2 op h w hw), fun op h => arrayIssues_of (h3 op h),
    fun op h => arrayIssues_of (h4 op h), fun op h => overlap_of (h5 op h) 40 some (by decide) (by simp)⟩

theorem test_meets_Reductions :
    (∀ op ∈ [0x70, 0x72], ∀ w ∈ [1, 40], ArrayIssues op (plain op w) issuing square) ∧
    (∀ op ∈ [0x71, 0x74, 0x75], ∀ w ∈ [1, 64], ArrayIssues op (plain op w) issuing square) ∧
    ArrayIssues 0x73 (plain 0x73 1) issuing square ∧ (∀ op ∈ [0x78, 0x79], ArrayIssues op (plain op 0) issuing square) := by
  have h1 : ∀ op ∈ [0x70, 0x72], ∀ w ∈ [1, 40], arrayIssuesB op (plain op w) issuing square = true := by decide +kernel
  have h2 : ∀ op ∈ [0x71, 0x74, 0x75], ∀ w ∈ [1, 64], arrayIssuesB op (plain op w) issuing square = true := by decide +kernel
  have h3 : ∀ op ∈ [0x78, 0x79], arrayIssuesB op (plain op 0) issuing square = true := by decide +kernel
  exact ⟨fun op h w hw => arrayIssues_of (h1 op h w hw), fun op h w hw => arrayIssues_of (h2 op h w hw),
    arrayIssues_of (by decide +kernel), fun op h => arrayIssues_of (h3 op h)⟩

/-- The line of the instruction could not be fetched; and it is not there. -/
def badLine : State := onBow { bow2i with lines := [lineOfKernel false 8] }
def noLine : State := onBow { bow2i with lines := [] }
def askedLine : State := onBow { bow2i with lines := [], asked := [{ base := kImage kernelD, num := 8, prefetch := false }] }

/-- Its opcode, its condition and its operands change from clause to clause. -/
theorem test_meets_InstructionChecks_rows :
    (let x := plain 0xC6 0
     (0xC6, Instr.nop) ∈ issueRows ∧ Runs x badLine ∧ (self x badLine).th = false ∧
       lineMissing (bow badLine x.bow) (self x badLine) = false ∧ lineInvalid (bow badLine x.bow) (self x badLine) = true) ∧
    (let x := { plain 0xC6 0 with raw := some 0x0E }
     Runs x issuing ∧ (self x issuing).th = false ∧ lineMissing (bow issuing x.bow) (self x issuing) = false ∧
       opSpec 0x0E = none ∧ lineInvalid (bow issuing x.bow) (self x issuing) = false) ∧
    (let x := { plain 0x80 40 with hint := 1 }
     (0x80, Instr.sadd) ∈ issueRows ∧ Runs x issuing ∧ opOf 0x80 x = 0x80 ∧
       opSpec 0x80 = some (sca (mS + mM) mSAny mSAny 1 40) ∧ lineInvalid (bow issuing x.bow) (self x issuing) = false ∧
       fieldsOk 0x80 (sca (mS + mM) mSAny mSAny 1 40) x = false) ∧
    (let x := { plain 0x80 40 with cond := 8 }
     Runs x issuing ∧ Sound 0x80 x issuing ∧ opOf 0x80 x = 0x80 ∧ condHolds x.cond (self x issuing).bf = false ∧
       fallsOff 0x80 x (self x issuing) = false ∧ isGBranch 0x80 x = false) ∧
    (let x := { plain 0x80 40 with cond := 8 }
     let s : State := onBow { bow2i with n := { ctxI with pc := 0x1FFF } }
     Runs x s ∧ Sound 0x80 x s ∧ opOf 0x80 x = 0x80 ∧ condHolds x.cond (self x s).bf = false ∧
       fallsOff 0x80 x (self x s) = true) ∧
    (∀ s ∈ [noLine, askedLine], Runs (plain 0xC6 0) s ∧ (self (plain 0xC6 0) s).th = false ∧
       lineMissing (bow s 2) (self (plain 0xC6 0) s) = true ∧ (self (plain 0xC6 0) s).job = some job) := by
  unfold Sound
  repeat' apply And.intro
  all_goals first
    | exact runs_of (by decide +kernel)
    | decide +kernel
    | exact (sound_of (by decide +kernel)).2.2
    | (intro s hs; have h : ∀ s ∈ [noLine, askedLine], runsB (plain 0xC6 0) s = true ∧ (self (plain 0xC6 0) s).th = false ∧
         lineMissing (bow s 2) (self (plain 0xC6 0) s) = true ∧ (self (plain 0xC6 0) s).job = some job := by decide +kernel
       exact ⟨runs_of (h s hs).1, (h s hs).2⟩)
    | simp [issueRows, arrayRows, arrayLogicRows, arrayFloatRows, arrayMoveRows, scalarRows, scalarFloatRows, controlRows]

theorem test_meets_InstructionChecks_values :
    (let x := { plain 0xE5 0 with src1 := regOp 3 }
     let s : State := onBow { bow2i with n := { ctxI with s := ctxI.s.set 3 0x200000 } }
     (0xE5, Instr.sld) ∈ issueRows ∧ Runs x s ∧ opOf 0xE5 x = 0xE5 ∧ Chosen 0xE5 x s ∧ valueReserved 0xE5 x (self x s) = true) ∧
    (let x := plain 0xC6 0
     let s : State := onBow { bow2i with n := { ctxI with pc := 0x1FFF } }
     Runs x s ∧ opOf 0xC6 x = 0xC6 ∧ Chosen 0xC6 x s ∧ valueReserved 0xC6 x (self x s) = false ∧
       fallsOff 0xC6 x (self x s) = true) ∧
    (let x := { plain 0xC0 0 with src1 := immOp 0x1F }
     (0xC0, Instr.br) ∈ issueRows ∧ Runs x issuing ∧ opOf 0xC0 x = 0xC0 ∧ Chosen 0xC0 x issuing ∧
       valueReserved 0xC0 x (self x issuing) = false ∧
       rangeBad 0xC0 x (bow issuing x.bow) (x.ctx == .u) (self x issuing) = true) ∧
    (let x := plain 0xB4 0
     let s : State := onBow { bow2i with n := { ctxI with a := ctxI.a.set 7 7 } }
     (0xB4, Instr.push) ∈ issueRows ∧ Runs x s ∧ opOf 0xB4 x = 0xB4 ∧
       Chosen 0xB4 x s ∧ valueReserved 0xB4 x (self x s) = false ∧ fallsOff 0xB4 x (self x s) = false ∧
       rangeBad 0xB4 x (bow s x.bow) (x.ctx == .u) (self x s) = false ∧ newA7 0xB4 x (self x s) = some 6 ∧
       (6 : AWord).toNat < (self x s).stackLo.toNat) := by
  unfold Chosen Sound
  repeat' apply And.intro
  all_goals first
    | exact runs_of (by decide +kernel)
    | decide +kernel
    | exact (sound_of (by decide +kernel)).2.2
    | simp [issueRows, arrayRows, arrayLogicRows, arrayFloatRows, arrayMoveRows, scalarRows, scalarFloatRows, controlRows]

/-- A state with memories that are not empty, and two commands that wait. -/
def busyState : State := { issuing with store := [(0, 1), (0x1EFFFF, 2)], pending := [.nop (plain 0xC6 0), .sadd (plain 0x80 40)] }

theorem test_meets_StepKeepsMemory : Memory.wf busyState = true ∧ ShadowFits busyState ∧ ∃ t, step busyState = .next t := by
  refine ⟨by decide +kernel, by unfold ShadowFits; decide +kernel, _, rfl⟩

theorem test_meets_StepKeepsBowMemories : BowMemories busyState ∧ ∃ t, step busyState = .next t := by
  refine ⟨by unfold BowMemories; decide +kernel, _, rfl⟩

theorem test_meets_InstructionWords : (plain 0x80 40).raw = none ∧ (plain 0x80 40).upc = none ∧ (plain 0x80 40).stop = none := by
  decide +kernel

theorem test_meets_TimeOfDay : Memory.wf (inMode .run [(0x50020, 7)]) = true := by decide +kernel


/-- An urgent kernel waits for bow 2, whose kernel stands at its instruction. -/
def stopping : State := onBow { bow2i with launches := [urgentJob] }

theorem test_meets_KernelScheduling_routineStops :
    ∀ p ∈ [(0x18, 1), (0x19, 64), (0x1A, 7), (0x1C, 64), (0x1D, 1), (0x40, 40), (0x41, 40), (0x42, 40), (0x43, 40), (0x44, 40),
        (0x45, 40), (0x50, 1), (0x51, 64), (0x52, 8), (0x53, 9), (0x54, 32), (0x55, 32), (0x56, 64), (0x57, 64), (0x58, 40)],
      let x := plain p.1 p.2
      slotBegun stopping x.bow x.ctx = stopping ∧ ArrayIssues p.1 x stopping square ∧ x.stop = none ∧
        stopPending stopping x.bow x.ctx = true := by
  have h : ∀ p ∈ [(0x18, 1), (0x19, 64), (0x1A, 7), (0x1C, 64), (0x1D, 1), (0x40, 40), (0x41, 40), (0x42, 40), (0x43, 40), (0x44, 40),
        (0x45, 40), (0x50, 1), (0x51, 64), (0x52, 8), (0x53, 9), (0x54, 32), (0x55, 32), (0x56, 64), (0x57, 64), (0x58, 40)],
      arrayIssuesB p.1 (plain p.1 p.2) stopping square = true := by decide +kernel
  intro p hp
  exact ⟨(by decide +kernel : slotBegun stopping 2 .n = stopping), arrayIssues_of (h p hp), rfl,
    (by decide +kernel : stopPending stopping 2 .n = true)⟩

/-! ### The fabric's logic -/

/-- A cell of an adder (R282): inputs 1 and 2 are the operands' bits. -/
def adderCell (a b : Bool) : CellConf :=
  { blankCell with tt := 0x8181818181818181, carry := true, carryIn := .const true, enable := .const true
                   inputs := #v[.const false, .const a, .const b, .const false, .const false, .const false] }

/-- A port of a block RAM of aspect 40 that writes a word at an address, on tree 1. -/
def portOf40 (addr data : Nat) : PortConf :=
  { clock := 1, aspect := 0, addr := (List.range 9).map (fun i => .const (addr.testBit i))
    data := (List.range 40).map (fun i => .const (data.testBit i)), write := .const true, lanes := Vector.replicate 5 (.const true)
    outReg := false }

/-- Quadrant 0 RUNNING: an adder column of two numbers, and block RAM 0, its ports on one clock or on two. -/
def quad0 (a b : Nat) (other : Fin 4) : QuadConf :=
  { QuadConf.blank with
    cells := (List.range 64).map (fun r => (r, adderCell (a.testBit r) (b.testBit r)))
    brams := [(0, { a := portOf40 3 77, b := { portOf40 3 78 with clock := other }, init := [] })], gates := 0xF }
def fabricOf (a b : Nat) (other : Fin 4) : State :=
  let s := inMode .idle [(0x40000, 2)]
  { s with fab := { s.fab with quads := s.fab.quads.set 0 (quad0 a b other), edges := s.fab.edges.set 0 (Vector.replicate 4 4) } }

theorem test_meets_FabricAndImages_fabricLogic :
    (let s := fabricOf 1 1 1
     ∀ j : Fin 6, netVal s 5 (cellOf s 0).inputs[j] = (6 : Nat).testBit j.val) ∧
    (let s := fabricOf 0xFEDCBA9876543210 0x8123456789ABCDEF 1
     (cellOf s 0).carryIn = .const true ∧ ∀ r : Fin 64, let k := cellOf s (0 + r.val)
       k.tt = 0x8181818181818181 ∧ k.carry = true ∧ k.inputs[0] = .const false ∧
       k.inputs[1] = .const ((0xFEDCBA9876543210 : BitVec 64).getLsbD r.val) ∧
       k.inputs[2] = .const ((0x8123456789ABCDEF : BitVec 64).getLsbD r.val)) ∧
    (cellOf State.reset 20479).carry = false ∧
    (let s := fabricOf 1 1 1
     let e := (5, adderCell false false)
     Memory.wf s = true ∧ e ∈ (s.fab.quads[quadOf 5]).cells ∧ 2 ≤ edgesSince s (quadOf 5) (cellOf s 5).clock ∧
       (ffConf (cellOf s 5) true).reset = .none ∧ clocked s 1 (quadOf 5) (cellOf s 5).clock = true) ∧
    (let s := fabricOf 1 1 1
     boundarySender 7 = 0 ∧ quadRuns s 0 = true) ∧
    (let s := fabricOf 1 1 2
     let k := { a := portOf40 3 77, b := { portOf40 3 78 with clock := 2 }, init := [] }
     bramOf s 0 = some k ∧ clocked s 2 0 k.a.clock = true ∧ clocked s 2 0 k.b.clock = false ∧ bramErrorAt s 0 3 = none) ∧
    (let s := fabricOf 1 1 1
     let k := { a := portOf40 3 77, b := { portOf40 3 78 with clock := 1 }, init := [] }
     let x := portAccess s k.a
     let y := portAccess s k.b
     bramOf s 0 = some k ∧ clocked s 2 0 k.a.clock = true ∧ y.mask ≠ 0 ∧ overlaps x x.mask y = true ∧ x.row = 3) := by
  refine ⟨?_, ?_, ?_, ?_, ?_, ?_, ?_⟩
  all_goals decide +kernel

/-- A column of adder cells adds, its carry in 1 (R282). -/
theorem test_adder : let s := fabricOf 0xFEDCBA9876543210 0x8123456789ABCDEF 1
    (∀ r : Fin 64, netVal s 66 (.cell r.val .sum) = (0x18000000000000000 : Nat).testBit r.val) ∧
    netVal s 66 (.cell 63 .co) = true := by decide +kernel

/-! ### The conditions of the other statements are met -/

theorem test_meets_GReachesItsContext :
    (let b : Fin 16 := 2; let c : Ctx := .n;
      let s : State := onBow { bow2 with n := { ctxN with gOut := [true, false] } }; let g : Bool := true;
      let rest : List Bool := [false]; let k := ctx s b c;
      k.gOut = g :: rest ∧ Memory.wf s = true ∧ (bow s b).window = none) ∧
    (let b : Fin 16 := 2; let c : Ctx := .n;
      let s : State := onBow { bow2 with n := { ctxN with gOut := [true, false] }, window := some window0 };
      let g : Bool := true; let rest : List Bool := [false]; let k := ctx s b c; let win : Window := window0;
      k.gOut = g :: rest ∧ Memory.wf s = true ∧ (bow s b).window = some win ∧ win.ctx = c ∧ win.need ≤ 1 ∧
      (g == win.onSet) = win.predicted ∧ win.latent = none ∧ Undisturbed s b c) ∧
    (let b : Fin 16 := 2; let c : Ctx := .n;
      let s : State := onBow { bow2 with n := { ctxN with gOut := [false] }, window := some window0 };
      let g : Bool := false; let rest : List Bool := []; let k := ctx s b c; let win : Window := window0;
      let r : Rect := square;
      k.gOut = g :: rest ∧ Memory.wf s = true ∧ (bow s b).window = some win ∧ win.ctx = c ∧ win.need ≤ 1 ∧
      (g == win.onSet) ≠ win.predicted ∧ (bow s b).group = some r ∧ s.peErr = [] ∧ Undisturbed s b c) := by
  repeat' apply And.intro
  all_goals decide +kernel

theorem test_meets_BowDeliveries :
    (let b : Fin 16 := 2; let s : State := liveOn { bow2 with asked := [asked5 5] }; let image : BitVec 21 := 5;
      let line : BitVec 10 := 5; let q : LineAsk := asked5 5; let first := image.toNat + 16 * line.toNat - 64;
      (bow s b).powered = true ∧ q ∈ (bow s b).asked ∧ q.base = image ∧ q.num = line ∧
      (∀ q ∈ (bow s b).asked, q.base = image → q.num = line → q.sent = false) ∧ 4 ≤ line.toNat ∧
      first + 16 ≤ 0x1F0000 ∧ storeServes s = true ∧ s.storeErr = []) ∧
    (let b : Fin 16 := 2; let s : State := liveOn { bow2 with asked := [asked5 2097151] };
      let image : BitVec 21 := -1; let line : BitVec 10 := 5; let q : LineAsk := asked5 2097151;
      let first := image.toNat + 16 * line.toNat - 64;
      (bow s b).powered = true ∧ q ∈ (bow s b).asked ∧ q.base = image ∧ q.num = line ∧
      (∀ q ∈ (bow s b).asked, q.base = image → q.num = line → q.sent = false) ∧ 4 ≤ line.toNat ∧
      0x1F0000 < first + 16) ∧
    (let s : State := onBow { bow2 with n := ctxI }; let x : Issue := plain 198 0; let j : Job := job;
      Runs x s ∧ (ctx s x.bow x.ctx).job = some j ∧ lineMissing (bow s x.bow) (ctx s x.bow x.ctx) = true ∧
      (bow s x.bow).asked = []) ∧
    (let b : Fin 16 := 2; let c : Ctx := .n;
      let s : State := onBow { bow2 with n := { ctxN with deliveries := [dueNow, dueNext] } }; let k := ctx s b c;
      let v : Delivery := dueNow; let rest : List Delivery := [dueNext];
      k.deliveries = v :: rest ∧ v.left ≤ 1 ∧ (∀ (e : Delivery), e ∈ rest → 1 < e.left) ∧ (bow s b).window = none) ∧
    (let b : Fin 16 := 2; let c : Ctx := .n;
      let s : State := onBow { bow2 with n := { ctxN with run := .stalled, wait := some (.phase 8 0) } };
      let k := ctx s b c; let sel : BitVec 4 := 8; let target : Word := 0;
      k.wait = some (Wait.phase sel target) ∧ k.run = Run.stalled ∧ k.stepping = false ∧ k.rep = none ∧
      reached (refValue s sel.toNat) target = true) := by
  repeat' apply And.intro
  all_goals first
    | decide +kernel
    | exact runs_of (by decide +kernel)

theorem test_meets_KernelScheduling_kernelsStartAndEnd :
    (let b : Fin 16 := 2; let s : State := idleOn { idle2 with queue := [job] } kernelD; let j : Job := job;
      let rest : List Job := []; let w := bow s b; let d := j.desc;
      let unexpired := ∀ (q : Job), q ∈ w.queue ++ w.launches → expired s q.desc = false;
      let freeBow := w.powered = true ∧ w.u.job = none ∧ haltedBow s b = false ∧ s.brown.hold = false ∧ w.swapEnd = none;
      Memory.wf s = true ∧ w.queue = j :: rest ∧ unexpired ∧ freeBow ∧ w.n.job = none ∧ w.launches = [] ∧
      s.sched = [] ∧ s.brown.held = [] ∧ shapeIs s b (kWidth d) (kHeight d) = true ∧ s.mode = Mode.idle ∧
      regBits s 0x70000 8 5 = 0) ∧
    (let b : Fin 16 := 2; let s : State := idleOn idle2 urgentD; let j : Job := urgentJob; let w := bow s b;
      let d := j.desc;
      let freeBow := w.powered = true ∧ w.u.job = none ∧ haltedBow s b = false ∧ s.brown.hold = false ∧ w.swapEnd = none;
      Memory.wf s = true ∧ PlainUrgent s d ∧ kBow d = b ∧ j = newJob d false ∧ freeBow ∧ w.n.job = none ∧
      w.launches = [] ∧ w.armed = none) ∧
    (let b : Fin 16 := 2; let s : State := idleOn { bow2 with launches := [urgentJob] } urgentD;
      let j : Job := urgentJob; let rest : List Job := []; let w := bow s b;
      let unexpired := ∀ (q : Job), q ∈ w.queue ++ w.launches → expired s q.desc = false;
      let freeBow := w.powered = true ∧ w.u.job = none ∧ haltedBow s b = false ∧ s.brown.hold = false ∧ w.swapEnd = none;
      Memory.wf s = true ∧ w.launches = j :: rest ∧ unexpired ∧ freeBow ∧ w.n.job.isSome = true ∧
      atBoundary w = true ∧ w.n.deliveries = []) ∧
    (let b : Fin 16 := 2;
      let s : State := idleOn { idle2 with ended := [{ ctx := .n, job := job, bf := 5, cause := none }] } kernelD;
      let j : Job := job; let w := bow s b; let d := j.desc; let c : Ctx := Ctx.n; let bf : BitVec 10 := 5;
      let cause : Option (BitVec 8) := none;
      Memory.wf s = true ∧ w.ended = [{ ctx := c, job := j, bf := bf, cause := cause }] ∧ (ctx s b c).wait = none ∧
      HasRoom s d) ∧
    (let b : Fin 16 := 2;
      let s : State := { idleOn { bow2 with queue := [newJob lateD true] } lateD with epoch := 9 };
      let j : Job := newJob lateD true; let w := bow s b; let d := j.desc;
      Memory.wf s = true ∧ w.queue = [j] ∧ w.launches = [] ∧ s.sched = [] ∧ s.brown.held = [] ∧
      kHasDeadline d = true ∧ kDeadline d ≤ s.epoch.toNat ∧ HasRoom s d) := by
  repeat' apply And.intro
  all_goals decide +kernel

theorem test_meets_KernelScheduling_stealing :
    (let s : State := rich; let b : Fin 16 := 2; let v : Fin 16 := 5; let q : List Job := [job]; let j : Job := job;
      b ≠ v ∧ idleForSteal s b = true ∧ (bow s v).queue = q ++ [j] ∧ q ≠ [] ∧ OnlyVictim s v ∧ stealable j = true ∧
      canForm s b j.desc = true) ∧
    (let s : State := { State.reset with movers := State.reset.movers.set 5 [kernelD, kernelD, urgentD] };
      let m : Fin 8 := 2; let v : Fin 8 := 5; let q : List Desc := [kernelD]; let p : Desc := kernelD;
      let d : Desc := urgentD;
      m ≠ v ∧ s.movers[m] = [] ∧ s.movers[v] = q ++ [p, d] ∧ q ≠ [] ∧ descChain p = false ∧ descChain d = false ∧
      (∀ (i : Fin 8), i ≠ v → s.movers[i].length < 3)) := by
  repeat' apply And.intro
  all_goals first
    | decide +kernel
    | (unfold OnlyVictim; decide +kernel)

theorem test_meets_BowDomains :
    (let b : Fin 16 := 2;
      let s : State := withRegs (onBow { idle2 with group := none, trapTable := [7] }) [(bowReg 2 8, 0x4000), (0x70018, 0x40)];
      let w := bow s b;
      Memory.wf s = true ∧ w.powered = true ∧ bowUnused s b = true) ∧
    (let b : Fin 16 := 2; let s : State := onBow { idle2 with powered := false, trapTable := [7] }; let w := bow s b;
      Memory.wf s = true ∧ (let r : Rect := square; w.powered = false ∧ w.group = some r ∧ bowsMayRun s = true ∧
      w.launches = [] ∧ w.pins = []) ∧ (let clk : BitVec 5 := 8; let r : Rect := square; w.group = some r ∧ 6 ≤ clk.toNat ∧
      clk.toNat ≤ w.clockSet.toNat ∧ clk.toNat ≤ 24 ∧ urgentBusy w = false ∧ launchPredicted s b = false ∧
      atBoundary w = true)) ∧
    (let b : Fin 16 := 2; let s : State := onBow { idle2 with trapTable := [7], launches := [urgentJob] };
      let w := bow s b; let clk : BitVec 5 := 8; let r : Rect := square;
      Memory.wf s = true ∧ w.group = some r ∧ 6 ≤ clk.toNat ∧ clk.toNat ≤ w.clockSet.toNat ∧ clk.toNat ≤ 24 ∧
      (urgentBusy w = true ∨ launchPredicted s b = true ∨ atBoundary w = false)) := by
  repeat' apply And.intro
  all_goals decide +kernel

theorem test_meets_CoursePortCommands :
    (let c : Fin 64 := 5; let n : Fin 4 := 1; let v : Reg32 := 0x800; let s : State := cpState [] Chan.reset;
      let k := chan s c n; let s' := withCtrl s c n (v ||| 1);
      Memory.wf s = true ∧ (course s c).ready = true ∧ k.st = 0 ∧ BitVec.getLsbD v 1 = false ∧
      startBad s' c n = none ∧ ((cpCtl s' c n).outbound = true ∨ (cpCtl s' c n).source = 0)) ∧
    (let c : Fin 64 := 5; let n : Fin 4 := 1; let v : Reg32 := 0x804; let s : State := cpState [] Chan.reset;
      let k := chan s c n; let s' := withCtrl s c n (v ||| 1); let st : Status := 16;
      Memory.wf s = true ∧ (course s c).ready = true ∧ k.st = 0 ∧ BitVec.getLsbD v 1 = false ∧
      startBad s' c n = some st) ∧
    (let c : Fin 64 := 5; let n : Fin 4 := 1; let v : Reg32 := 0x4800; let s : State := cpState [] Chan.reset;
      let k := chan s c n; let s' := withCtrl s c n (v ||| 1);
      Memory.wf s = true ∧ (course s c).ready = true ∧ k.st = 0 ∧ BitVec.getLsbD v 1 = false ∧
      startBad s' c n = none ∧ (cpCtl s' c n).outbound = false ∧ (cpCtl s' c n).source = 1) ∧
    (let c : Fin 64 := 5; let n : Fin 4 := 1; let v : Reg32 := 0x800; let s : State := cpState [] filling;
      let k := chan s c n;
      Memory.wf s = true ∧ (course s c).ready = true ∧ k.st ≠ 0 ∧ BitVec.getLsbD v 1 = false ∧ (k.st = 1 ∨ k.st = 2) ∧
      k.owner = none) ∧
    (let c : Fin 64 := 5; let n : Fin 4 := 1; let s : State := cpState [] { filling with st := 3 };
      let k := chan s c n;
      Memory.wf s = true ∧ (course s c).ready = true ∧ k.st = 3) := by
  repeat' apply And.intro
  all_goals decide +kernel

theorem test_meets_CoursePortData_coursePortWords :
    (let c : Fin 64 := 5; let p : Packet := pushP [0x1FF, 2]; let rest : List Sent := [];
      let np : Nat × Nat := (2, 1); let s : State := cpFlow [0x1FF, 2] 0x800 0x5000 filling;
      let n := Fin.ofNat 4 p.arg.toNat; let k := cpCtl s c n; let bank := (chan s c n).bank;
      let left := cpCount s c n - bank.length;
      Memory.wf s = true ∧ Arrives ptCpPush p s rest np ∧ p.dst = ident 0 c.val ∧
      Filling s c (Fin.ofNat 4 p.arg.toNat) ∧ k.format = 0 ∧ p.data.length < left) ∧
    (let c : Fin 64 := 5; let p : Packet := pushP [0x1FF, 2]; let rest : List Sent := [];
      let np : Nat × Nat := (2, 1); let s : State := cpFlow [0x1FF, 2] 0x800 0x5000 Chan.reset;
      Memory.wf s = true ∧ Arrives ptCpPush p s rest np ∧ p.dst = ident 0 c.val ∧ ¬ Filling s c (Fin.ofNat 4 p.arg.toNat)) ∧
    (let c : Fin 64 := 5; let p : Packet := pushP [s24 7 5]; let rest : List Sent := [];
      let np : Nat × Nat := (2, 1); let s : State := cpFlow [s24 7 5] 0x2808 0x5000 filling;
      let n := Fin.ofNat 4 p.arg.toNat; let k := cpCtl s c n; let bank := (chan s c n).bank;
      let left := cpCount s c n - bank.length; let w : Word := s24 7 5;
      Memory.wf s = true ∧ Arrives ptCpPush p s rest np ∧ p.dst = ident 0 c.val ∧
      Filling s c (Fin.ofNat 4 p.arg.toNat) ∧ k.format ≠ 0 ∧ (chan s c n).sync = false ∧ 1 < left ∧ p.data = [w]) ∧
    (let c : Fin 64 := 5; let p : Packet := pushP [s24 9 5]; let rest : List Sent := [];
      let np : Nat × Nat := (2, 1);
      let s : State := cpFlow [s24 9 5] 0x2810 0x5000 { filling with sync := true, bank := [] };
      let n := Fin.ofNat 4 p.arg.toNat; let k := cpCtl s c n; let w : Word := s24 9 5;
      Memory.wf s = true ∧ Arrives ptCpPush p s rest np ∧ p.dst = ident 0 c.val ∧
      Filling s c (Fin.ofNat 4 p.arg.toNat) ∧ k.format ≠ 0 ∧ (chan s c n).sync = true ∧ p.data = [w] ∧
      BitVec.extractLsb' 32 7 w = 0) := by
  repeat' apply And.intro
  all_goals first
    | decide +kernel
    | exact arrives_of (by decide +kernel)
    | (unfold Filling; decide +kernel)

theorem test_meets_CoursePortData_coursePortPlanes :
    (let c : Fin 64 := 5; let n : Fin 4 := 1; let s : State := cpFlow [] 0x800 0xC11 toPlanes; let k := chan s c n;
      Memory.wf s = true ∧ PlaneTurn s c n ∧ (cpCtl s c n).outbound = false ∧ k.bank.length = cpCount s c n) ∧
    (let c : Fin 64 := 5; let n : Fin 4 := 1; let s : State := cpFlow [] 0x804 0xC11 toPlanes; let k := chan s c n;
      Memory.wf s = true ∧ PlaneTurn s c n ∧ (cpCtl s c n).outbound = true ∧ k.bank.length = cpCount s c n) ∧
    (let c : Fin 64 := 5; let n : Fin 4 := 1; let s : State := cpFlow [] 0x840 0xC11 { toPlanes with planes := 8 };
      let k := chan s c n;
      Memory.wf s = true ∧ transferDone s c n = true ∧ k.owner = none) ∧
    (let c : Fin 64 := 5; let n : Fin 4 := 1; let q : Packet := pushP [];
      let s : State := cpFlow [] 0x840 0xC11 { toPlanes with planes := 8, bad := some 3, owner := some (pushP []) };
      let k := chan s c n;
      Memory.wf s = true ∧ transferDone s c n = true ∧ k.owner = some q ∧ CanAnswer s q) := by
  repeat' apply And.intro
  all_goals first
    | decide +kernel
    | exact canAnswer_of (by decide +kernel)

theorem test_meets_CourseMemory :
    (let c : Fin 64 := 5; let s : State := errState; let fast := BitVec.getLsbD (reg s (crsReg c 80)) 1;
      Memory.wf s = true ∧ (course s c).ready = true ∧ BitVec.getLsbD (reg s (crsReg c 80)) 0 = true ∧ fast = false ∧
      (let e : BitVec 4 × BitVec 14 := (2, 100); let rest : List (BitVec 4 × BitVec 14) := []; (course s c).eccQueue = e :: rest)) ∧
    (let c : Fin 64 := 5; let s : State := { errState with courses := State.reset.courses };
      Memory.wf s = true ∧ (course s c).ready = false) ∧
    (let c : Fin 64 := 5; let s : State := fastScrub errState; let fast := BitVec.getLsbD (reg s (crsReg c 80)) 1;
      Memory.wf s = true ∧ (course s c).ready = true ∧ BitVec.getLsbD (reg s (crsReg c 80)) 0 = true ∧ fast = true ∧
      bowExecutes s c = false) ∧
    (let c : Fin 64 := 0; let s : State := fastScrub issuing; let fast := BitVec.getLsbD (reg s (crsReg c 80)) 1;
      Memory.wf s = true ∧ (course s c).ready = true ∧ BitVec.getLsbD (reg s (crsReg c 80)) 0 = true ∧ fast = true ∧
      bowExecutes s c = true) := by
  repeat' apply And.intro
  all_goals decide +kernel

theorem test_meets_StoreAccesses_storePackets :
    (let p : Packet := rd 3; let rest : List Sent := []; let np : Nat × Nat := (32, 2);
      let s : State := net ptRd (rd 3) [];
      Memory.wf s = true ∧ CanAnswer s p ∧ Arrives ptRd p s rest np ∧ StoreServes ptRd p s) ∧
    (let p : Packet := rd 1; let rest : List Sent := []; let np : Nat × Nat := (32, 2);
      let s : State := net ptRd (rd 1) [];
      Memory.wf s = true ∧ CanAnswer s p ∧ Arrives ptRd p s rest np ∧ StoreServes ptRd p s ∧ p.words = 1) ∧
    (let p : Packet := wrP 9 1; let rest : List Sent := []; let np : Nat × Nat := (32, 2);
      let s : State := net ptWr (wrP 9 1) [];
      Memory.wf s = true ∧ CanAnswer s p ∧ Arrives ptWr p s rest np ∧ StoreServes ptWr p s ∧ p.lanes ≠ 0 ∧ p.arg = 1) ∧
    (let p : Packet := wrP 9 0; let rest : List Sent := []; let np : Nat × Nat := (32, 2);
      let s : State := net ptWr (wrP 9 0) [];
      Memory.wf s = true ∧ CanAnswer s p ∧ Arrives ptWr p s rest np ∧ StoreServes ptWr p s ∧ p.lanes ≠ 0 ∧ p.arg ≠ 1) ∧
    (let p : Packet := atomic 0; let rest : List Sent := []; let np : Nat × Nat := (32, 2);
      let s : State := net ptAtomic (atomic 0) []; let p0 := { p with arg := 0 };
      Memory.wf s = true ∧ CanAnswer s p ∧ Arrives ptAtomic p0 s rest np ∧ StoreServes ptAtomic p0 s ∧ p.lanes = 31) ∧
    (let p : Packet := atomic 1; let rest : List Sent := []; let np : Nat × Nat := (32, 2);
      let s : State := net ptAtomic (atomic 1) []; let p1 := { p with arg := 1 };
      Memory.wf s = true ∧ CanAnswer s p ∧ Arrives ptAtomic p1 s rest np ∧ StoreServes ptAtomic p1 s ∧ p.lanes = 31) := by
  repeat' apply And.intro
  all_goals first
    | decide +kernel
    | exact arrives_of (by decide +kernel)

theorem test_meets_StoreAccesses_storeCollisions :
    (let p : Packet := wrOne; let rest : List Sent := []; let np : Nat × Nat := (32, 2);
      let s : State := net ptWr wrOne [(0x30000, 1)]; let m : Meet := .write 3 5;
      Memory.wf s = true ∧ CanAnswer s p ∧ meetsWrite m = true ∧ prioD s = true ∧ p.lanes = 31 ∧ p.words = 1 ∧
      Arrives ptWr p s rest np ∧ StoreServes ptWr p s ∧ p.arg = 1) ∧
    (let p : Packet := atomic 0; let rest : List Sent := []; let np : Nat × Nat := (32, 2);
      let s : State := net ptAtomic (atomic 0) [(0x30000, 1)]; let m : Meet := .atomic 3;
      let p0 := { p with arg := 0 };
      Memory.wf s = true ∧ CanAnswer s p ∧ meetsWrite m = true ∧ prioD s = true ∧ p.lanes = 31 ∧ p.words = 1 ∧
      Arrives ptAtomic p0 s rest np ∧ StoreServes ptAtomic p0 s) ∧
    (let p : Packet := atomic 1; let rest : List Sent := []; let np : Nat × Nat := (32, 2);
      let s : State := net ptAtomic (atomic 1) [(0x30000, 1)]; let m : Meet := .write 31 3;
      let p1 := { p with arg := 1 };
      Memory.wf s = true ∧ CanAnswer s p ∧ meetsWrite m = true ∧ prioD s = true ∧ p.lanes = 31 ∧ p.words = 1 ∧
      Arrives ptAtomic p1 s rest np ∧ StoreServes ptAtomic p1 s) := by
  repeat' apply And.intro
  all_goals first
    | decide +kernel
    | exact arrives_of (by decide +kernel)

theorem test_meets_RingAdvances :
    (let p : Packet := advance 0 7; let rest : List Sent := []; let np : Nat × Nat := (32, 2);
      let s : State := net ptAtomic (advance 0 7) (ring 2 9); let w : Fin 16 := 0; let tail : Bool := false;
      let n := BitVec.toNat (p.data.headD 0);
      Memory.wf s = true ∧ CanAnswer s p ∧ Arrives ptAtomic (atomicPacket 2 p) s rest np ∧ clsOf p.dst = 2 ∧
      p.lanes = 31 ∧ p.addr = BitVec.ofNat 21 (w.val + 16 * tail.toNat) ∧ winOn s w = true ∧ 1 ≤ winLen s w ∧
      BitVec.toNat (p.data.headD 0) < 2 ^ 21 ∧ (¬overruns s w tail n)) ∧
    (let p : Packet := advance 16 4; let rest : List Sent := []; let np : Nat × Nat := (32, 2);
      let s : State := net ptAtomic (advance 16 4) (ring 2 9); let w : Fin 16 := 0; let tail : Bool := true;
      let n := BitVec.toNat (p.data.headD 0);
      Memory.wf s = true ∧ CanAnswer s p ∧ Arrives ptAtomic (atomicPacket 2 p) s rest np ∧ clsOf p.dst = 2 ∧
      p.lanes = 31 ∧ p.addr = BitVec.ofNat 21 (w.val + 16 * tail.toNat) ∧ winOn s w = true ∧ 1 ≤ winLen s w ∧
      BitVec.toNat (p.data.headD 0) < 2 ^ 21 ∧ overruns s w tail n) := by
  repeat' apply And.intro
  all_goals first
    | decide +kernel
    | exact arrives_of (by decide +kernel)
    | exact canAnswer_of (by decide +kernel)
    | (unfold overruns; decide +kernel)

theorem test_meets_PacketsAndResponses_registerAndHostPackets :
    (let p : Packet := regRdP 0x14 0x003; let rest : List Sent := []; let np : Nat × Nat := (1, 1);
      let s : State := net ptRegRd (regRdP 0x14 0x003) []; let c : Fin 64 := 3; let o := p.addr.toNat;
      let fs : List RegField := rw32.getD [];
      Memory.wf s = true ∧ Arrives ptRegRd p s rest np ∧ CanAnswer s p ∧ p.dst = ident 0 c.val ∧ o < 1024 ∧
      regLayout (crsReg c o) = some fs) ∧
    (let p : Packet := regRdP 0 0x203; let rest : List Sent := []; let np : Nat × Nat := (35, 2);
      let s : State := net ptRegRd (regRdP 0 0x203) [(0x30000, 1)]; let o := p.addr.toNat;
      let fs : List RegField := (regLayout 196608).getD [];
      Memory.wf s = true ∧ Arrives ptRegRd p s rest np ∧ CanAnswer s p ∧ clsOf p.dst = 2 ∧ o < 768 ∧
      regLayout (0x30000 + o) = some fs ∧ o ≠ 144) ∧
    (let p : Packet := regWrP; let rest : List Sent := []; let np : Nat × Nat := (1, 1);
      let s : State := net ptRegWr regWrP []; let c : Fin 64 := 3; let o := p.addr.toNat;
      Memory.wf s = true ∧ Arrives ptRegWr p s rest np ∧ p.arg = 0 ∧ wholeReg p = true ∧ p.dst = ident 0 c.val ∧ o < 256 ∧
      regLayout (crsReg c o) = rw32) ∧
    (let p : Packet := hostRdP; let rest : List Sent := []; let np : Nat × Nat := (32, 3);
      let s : State := net ptHostRd hostRdP [];
      Memory.wf s = true ∧ (let ws : List Word := [1, 2, 3]; Arrives ptHostRd p s rest np ∧ CanAnswer s p ∧
      clsOf p.dst = 4 ∧ ws.length = p.words.toNat) ∧ Arrives ptHostRd p s rest np ∧ CanAnswer s p ∧ clsOf p.dst = 4) ∧
    (let p : Packet := hostWrP; let rest : List Sent := []; let np : Nat × Nat := (32, 3);
      let s : State := { net ptHostWr hostWrP [] with host := [(0xFFF, 3), (0x1001, 4), (0x1018, 8)] };
      Memory.wf s = true ∧ Arrives ptHostWr p s rest np ∧ clsOf p.dst = 4 ∧ p.arg = 0 ∧ p.lanes = 31) ∧
    (let p : Packet := notifyP; let rest : List Sent := []; let np : Nat × Nat := (33, 3);
      let s : State := net ptNotify notifyP [];
      Memory.wf s = true ∧ Arrives ptNotify p s rest np ∧ clsOf p.dst ≠ 0 ∧ clsOf p.dst ≠ 2 ∧ clsOf p.dst ≠ 3) ∧
    (let p : Packet := { notifyP with dst := 0x003 }; let rest : List Sent := []; let np : Nat × Nat := (1, 1);
      let s : State := net ptNotify { notifyP with dst := 0x003 } [];
      Memory.wf s = true ∧ Arrives ptNotify p s rest np ∧ (clsOf p.dst = 0 ∨ clsOf p.dst = 2)) := by
  repeat' apply And.intro
  all_goals first
    | decide +kernel
    | exact arrives_of (by decide +kernel)

theorem test_meets_PacketsAndResponses_responsesReachBows :
    (let p : Packet := respP 1 0 [77]; let rest : List Sent := []; let np : Nat × Nat := (5, 2);
      let s : State := asking (respP 1 0 [77]) (loadAsk 0x50003); let b : Fin 16 := 2;
      let ask : Ask := loadAsk 0x50003; let c := if p.tag.getLsbD 7 = true then Ctx.u else Ctx.n; let k := ctx s b c;
      let st := respStatus p; let dst : BitVec 20 := 327683; let pc : BitVec 13 := 51; let word : IWord := 119;
      Memory.wf s = true ∧ Arrives ptResp p s rest np ∧ p.dst = ident 1 b.val ∧ (bow s b).window = none ∧
      k.asks = [ask] ∧ ask.tag = p.tag ∧ ask.kind = AskKind.load dst pc word ∧ modeOf dst = 5 ∧
      st ≠ stEccUncorrected) ∧
    (let p : Packet := respP 0 3 []; let rest : List Sent := []; let np : Nat × Nat := (5, 2);
      let s : State := asking (respP 0 3 []) (loadAsk 9); let b : Fin 16 := 2; let ask : Ask := loadAsk 9;
      let c := if p.tag.getLsbD 7 = true then Ctx.u else Ctx.n; let k := ctx s b c; let st := respStatus p;
      let dst : BitVec 20 := 9; let pc : BitVec 13 := 51; let word : IWord := 119;
      Memory.wf s = true ∧ Arrives ptResp p s rest np ∧ p.dst = ident 1 b.val ∧ (bow s b).window = none ∧
      k.asks = [ask] ∧ ask.tag = p.tag ∧ ask.kind = AskKind.load dst pc word ∧ isMem dst = true ∧
      st ≠ stEccUncorrected) ∧
    (let p : Packet := respP 0 3 []; let rest : List Sent := []; let np : Nat × Nat := (5, 2);
      let s : State := asking (respP 0 3 []) postAsk; let b : Fin 16 := 2; let ask : Ask := postAsk;
      let c := if p.tag.getLsbD 7 = true then Ctx.u else Ctx.n; let k := ctx s b c;
      Memory.wf s = true ∧ Arrives ptResp p s rest np ∧ p.dst = ident 1 b.val ∧ (bow s b).window = none ∧
      k.asks = [ask] ∧ ask.tag = p.tag ∧ ask.kind = AskKind.post ∧ k.ackBad = none) ∧
    (let p : Packet := respP 0 0x23 []; let rest : List Sent := []; let np : Nat × Nat := (5, 2);
      let s : State := asking (respP 0 0x23 []) (loadAsk 0x50003); let b : Fin 16 := 2;
      let ask : Ask := loadAsk 0x50003; let c := if p.tag.getLsbD 7 = true then Ctx.u else Ctx.n; let k := ctx s b c;
      let st := respStatus p; let dst : BitVec 20 := 327683; let pc : BitVec 13 := 51; let word : IWord := 119;
      Memory.wf s = true ∧ Arrives ptResp p s rest np ∧ p.dst = ident 1 b.val ∧ (bow s b).window = none ∧
      k.asks = [ask] ∧ ask.tag = p.tag ∧ ask.kind = AskKind.load dst pc word ∧ st = stEccUncorrected ∧
      k.run = Run.running ∧ k.th = false ∧ k.deliveries = []) := by
  repeat' apply And.intro
  all_goals first
    | decide +kernel
    | exact arrives_of (by decide +kernel)

theorem test_meets_ArrivalChecks :
    (let p : Packet := { rd 1 with flits := 3 }; let rest : List Sent := []; let np : Nat × Nat := (32, 2);
      let s : State := net ptRd { rd 1 with flits := 3 } [];
      Memory.wf s = true ∧ takeSent (mkSent ptRd p) s.flight = some rest ∧ p.ddev = ownDev s ∧ clsOf p.dst = 2 ∧
      portOf s p.dst (match sourcePort s p with | some q => q.fst | none => 0) = some np ∧
      isBehind s (mkSent ptRd p) s.flight = false ∧ linkHolds s (mkSent ptRd p) = false ∧ CanAnswer s p ∧
      formOk ptRd p = false) ∧
    (let p : Packet := { rd 1 with addr := 0x1F0000 }; let rest : List Sent := []; let np : Nat × Nat := (32, 2);
      let s : State := net ptRd { rd 1 with addr := 0x1F0000 } [];
      Memory.wf s = true ∧ takeSent (mkSent ptRd p) s.flight = some rest ∧ p.ddev = ownDev s ∧ clsOf p.dst = 2 ∧
      portOf s p.dst (match sourcePort s p with | some q => q.fst | none => 0) = some np ∧
      isBehind s (mkSent ptRd p) s.flight = false ∧ linkHolds s (mkSent ptRd p) = false ∧ CanAnswer s p ∧
      formOk ptRd p = true ∧ storeRange ptRd s p = false) ∧
    (let p : Packet := rd 1; let rest : List Sent := []; let np : Nat × Nat := (32, 2);
      let s : State := net ptRd (rd 1) [(niReg (32, 2) 0, 1)];
      Memory.wf s = true ∧ takeSent (mkSent ptRd p) s.flight = some rest ∧ p.ddev = ownDev s ∧ clsOf p.dst = 2 ∧
      portOf s p.dst (match sourcePort s p with | some q => q.fst | none => 0) = some np ∧
      isBehind s (mkSent ptRd p) s.flight = false ∧ linkHolds s (mkSent ptRd p) = false ∧ CanAnswer s p ∧
      formOk ptRd p = true ∧ storeRange ptRd s p = true ∧ niState s np ≠ 0) := by
  repeat' apply And.intro
  all_goals first
    | decide +kernel

theorem test_meets_StorePorts :
    (let a : DAccess := access 32 .none; let s : State := liveStore (ring 2 9); let x := a.addr.toNat;
      Memory.wf s = true ∧ DServes a s ∧ a.op7 = false ∧ x < secureBase ∧ meetsWrite a.meet = false ∧ inWindow a s ∧
      Wins a s ∧ a.lanes ≠ 0 ∧ a.lanes = 31) ∧
    (let a : DAccess := access 144 (.write 31 5); let s : State := liveStore (ring 2 9); let x := a.addr.toNat;
      Memory.wf s = true ∧ DServes a s ∧ a.op7 = false ∧ (let l : BitVec 5 := 31; let d : Word := 5; x < secureBase ∧
      a.meet = Meet.write l d) ∧ (let l : BitVec 5 := 31; let d : Word := 5; inWindow a s ∧ a.meet = Meet.write l d) ∧
      inWindow a s ∧ meetsWrite a.meet = true ∧ prioD s = false ∧ a.lanes = 31 ∧ x < secureBase) ∧
    (let a : DAccess := { access 32 .none with op7 := true }; let s : State := liveStore [];
      let c : Instr := Instr.dpRead (have __src := access 32 Meet.none; { op7 := true, port := __src.port, addr := __src.addr, lanes := __src.lanes, wdata := __src.wdata, meet := __src.meet });
      Memory.wf s = true ∧ DServes a s ∧ a.op7 = true ∧
      c ∈ [Instr.dpRead a, Instr.dpWrite a, Instr.dpFetchAdd a, Instr.dpSwap a, Instr.dpRingAdvance a, Instr.dpWread a, Instr.dpWwrite a]) ∧
    (let a : DAccess := access 0 .read; let s : State := liveStore ([(0x30000, 1)] ++ ring 2 9);
      let w : Fin 16 := Fin.ofNat 16 0; let top : Bool := false;
      Memory.wf s = true ∧ DServes a s ∧ a.op7 = false ∧ a.lanes = 31 ∧
      a.addr = BitVec.ofNat 21 (w.val + 16 * top.toNat) ∧ winOn s w = true ∧ 1 ≤ winLen s w ∧
      BitVec.toNat a.wdata < 2 ^ 21 ∧ (¬overruns s w top (BitVec.toNat a.wdata))) := by
  repeat' apply And.intro
  all_goals first
    | decide +kernel
    | (unfold Wins; decide +kernel)
    | (unfold overruns; decide +kernel)

theorem test_meets_LeasesAreTransparent :
    (let s : State := { leased .none with shadow := [] }; let b : BitVec 9 := 495;
      Memory.wf s = true ∧ ShadowFits s ∧ s.lease.st = LeaseState.none ∧ b.toNat < 496 ∧ s.policy.storeTest = true ∧
      storeIsOn s = true) ∧
    (let s : State := leased .copy;
      Memory.wf s = true ∧ ShadowFits s ∧ s.lease.st = LeaseState.copy) ∧
    (let s : State := leased .redirect;
      Memory.wf s = true ∧ ShadowFits s ∧ s.lease.st = LeaseState.redirect ∧ s.lease.retained = false) ∧
    (let s : State := leased .restore;
      Memory.wf s = true ∧ ShadowFits s ∧ s.lease.st = LeaseState.restore) := by
  repeat' apply And.intro
  all_goals first
    | decide +kernel
    | (unfold ShadowFits; decide +kernel)

theorem test_meets_NetworkAndStoreEvents_storeEvents :
    (let s : State := { liveStore [(0x30000, 3)] with scrubRow := 65535 };
      Memory.wf s = true ∧ BitVec.getLsbD (reg s 0x30000) 1 = true ∧ storeIsOn s = true ∧ s.storeErr = [] ∧
      (let w : Fin 16 := 1; let v : Reg32 := 1; BitVec.toNat v = 1 ∧ winFits s w = false ∧ winOn s w = false) ∧
      (let v : Reg32 := 0; BitVec.toNat v = 0)) ∧
    (let s : State := { liveStore [(0x30000, 3)] with scrubRow := 2, storeErr := [singleBit] };
      let e : StoreError := Tests.singleBit;
      Memory.wf s = true ∧ BitVec.getLsbD (reg s 0x30000) 1 = true ∧ storeIsOn s = true ∧ s.storeErr = [e] ∧
      e.multi = false ∧ e.addr.toNat / 32 = s.scrubRow.toNat ∧ s.lease.st = LeaseState.none) ∧
    (let s : State := { liveStore [(0x30000, 7)] with scrubRow := 65535 };
      Memory.wf s = true ∧ BitVec.getLsbD (reg s 0x30000) 1 = true ∧ BitVec.getLsbD (reg s 0x30000) 2 = true ∧
      storeIsOn s = true ∧ s.storeErr = []) ∧
    (let s : State := liveStore [(0x30004, 0)];
      Memory.wf s = true ∧ s.mode = Mode.idle ∧ storeIsOn s = false) ∧
    (let s : State := { liveStore [(0x30004, 0x3D)] with clearEnd := some 5, epoch := 4 }; let e : BitVec 64 := 5;
      Memory.wf s = true ∧ s.clearEnd = some e ∧ s.epoch < e) ∧
    (let s : State := { liveStore [(0x30004, 0x3D)] with clearEnd := some 5, epoch := 5 }; let e : BitVec 64 := 5;
      Memory.wf s = true ∧ s.clearEnd = some e ∧ e ≤ s.epoch) ∧
    (let s : State := liveStore [(0x30120, 20), (0x30124, 10), (0x30128, 22)]; let w : Fin 16 := 1;
      let v : Reg32 := 1;
      Memory.wf s = true ∧ BitVec.toNat v = 1 ∧ winFits s w = true) := by
  repeat' apply And.intro
  all_goals decide +kernel

theorem test_meets_NetworkAndStoreEvents_networkEvents :
    (let s : State := { inMode .idle [] with torus := { State.reset.torus with replays := [((5, 2), 17)] } };
      Memory.wf s = true ∧ (let flit : BitVec 88 := linkFlit 0x1234 1 true; flitSound flit = true) ∧
      (let flit : BitVec 88 := 7; flitSound flit = false) ∧
      (let r : Fin 36 := 5; let l : Fin 4 := 2; replaysFailed s r l = true) ∧
      (let c : Fin 64 := 3; let p : Fin 68 := 67; mayMove s c p = true)) ∧
    (
      let s : State := { inMode .idle [] with idMove := some (3, 67), flight := [mkSent ptMarker markerP, mkSent ptMarker markerP] };
      let c : Fin 64 := 3; let p : Fin 68 := 67; let m : Packet := markerP;
      let rest : List Sent := [mkSent ptMarker markerP];
      Memory.wf s = true ∧ s.idMove = some (c, p) ∧ m.dst = ident 0 c.val ∧ m.ddev = ownDev s ∧
      s.flight = mkSent ptMarker m :: rest ∧ linkHolds s (mkSent ptMarker m) = false ∧ (∃ x, x ∈ rest ∧
      x.type.toNat = 9 ∧ x.pkt.dst = m.dst)) ∧
    (let s : State := { inMode .idle [] with idMove := some (3, 67), flight := [mkSent ptMarker markerP] };
      let c : Fin 64 := 3; let p : Fin 68 := 67; let m : Packet := markerP;
      Memory.wf s = true ∧ LastMarker s m c p ∧ s.heldBack = [] ∧ s.migration = none) ∧
    (let s : State := { inMode .idle [] with idMove := some (3, 67), flight := [markerOn true markerP] };
      let c : Fin 64 := 3; let p : Fin 68 := 67; let m : Packet := markerP;
      Memory.wf s = true ∧ LastMarker s m c p ∧ s.heldBack = [] ∧ s.migration = none) ∧
    (let s : State := inMode .idle [(niReg (5, 2) 0, 0)]; let d : Fin 96 := 70; let np : Nat × Nat := (5, 2);
      Memory.wf s = true ∧ d ≠ 95 ∧ np ∈ closingPorts d.val ∧ niState s np = 0) ∧
    (let s : State := poweredBows [(niReg (5, 2) 0, 1), (bowReg 2 8, 0x4000)]; let b : Fin 16 := 2;
      Memory.wf s = true ∧ niState s (2 * b.val + 1, 2) = 1 ∧ bowUnused s b = true) ∧
    (let s : State := withRegs issuing [(niReg (5, 2) 0, 1)]; let b : Fin 16 := 2;
      Memory.wf s = true ∧ niState s (2 * b.val + 1, 2) = 1 ∧ bowUnused s b = false) ∧
    (let s : State := poweredBows [(0x70018, 0xFFFFFFFF), (bowReg 2 8, 0x4000)];
      Memory.wf s = true ∧ (let n : Fin 36 := 5; let p : Fin 4 := 2; niUsed n.val p.val = true ∧
      niState s (n.val, p.val) = 2 ∧ clientReady s (n.val, p.val) = true) ∧
      (let b : Fin 16 := 2; domainOn s (68 + b.val) = true ∧ bowUnused s b = true)) := by
  repeat' apply And.intro
  all_goals first
    | decide +kernel
    | exact ⟨false, by decide +kernel⟩
    | exact ⟨true, by decide +kernel⟩

theorem test_meets_RouterReconfiguration_reconfiguration :
    (let d : Desc := reconfigD; let s : State := turn reconfigD .idle []; let r := reconfigRouter d;
      Memory.wf s = true ∧ InTurn 17 d s ∧ clearsUsed r.val (dle d 9 1) = false ∧ s.reconfig = none) ∧
    (let d : Desc := reconfigD;
      let s : State := { turn reconfigD .idle [] with reconfig := some { desc := reconfigD } };
      let r := reconfigRouter d;
      Memory.wf s = true ∧ s.reconfig = some { desc := d } ∧ drained s.torus r.val = true ∧ HasRoom s d ∧
      dle d 9 1 < 16 ∧ dle d 10 2 < 4096) ∧
    (let d : Desc := reconfigD;
      let s : State := { turn reconfigD .idle [] with reconfig := some { desc := reconfigD }, torus := { State.reset.torus with worms := [halfway] } };
      let r := reconfigRouter d;
      Memory.wf s = true ∧ s.reconfig = some { desc := d } ∧ drained s.torus r.val = false) := by
  repeat' apply And.intro
  all_goals first
    | decide +kernel
    | exact inTurn_of (by decide +kernel)

theorem test_meets_PatchSetsAndScheduler_patchSets :
    (let d : Desc := patchD;
      let s : State := { patchBows (turn patchD .idle []) none with patchLoad := some lastSwap };
      Memory.wf s = true ∧ InTurn 16 d s ∧ s.patchLoad.isSome = true ∧ sourceFault s d 8 0x10 (dle d 0xC 4) = none ∧
      (let l : PatchLoad := lastSwap; s.patchLoad = some l ∧ HasRoom s l.desc)) ∧
    (let s : State := rewriting (inMode .idle []); let b : Fin 16 := Fin.ofNat 16 2;
      Memory.wf s = true ∧ (bow s b).pending = none ∧ (bow s b).rewrite = true ∧ (bow s b).powered = true ∧
      swapBoundary s b = true) ∧
    (let d : Desc := patchD; let img : PatchImage := patchImg 7;
      let s : State := patchBows (turn patchD .idle []) none; let named := maskBows (patchMask d);
      let live := List.map (fun b => (bow s b).patch.version.toNat) named;
      Memory.wf s = true ∧ InTurn 16 d s ∧ s.patchLoad = none ∧ sourceFault s d 8 0x10 (dle d 0xC 4) = none ∧
      patchCheck (patchSource s d img) live = none ∧ (∃ b, b ∈ named ∧ (bow s b).powered = true)) ∧
    (let d : Desc := patchD; let img : PatchImage := { patchImg 7 with gcmOk := false };
      let s : State := patchBows (turn patchD .idle []) none; let named := maskBows (patchMask d);
      let live := List.map (fun b => (bow s b).patch.version.toNat) named; let st : Status := stAuthFail;
      let detail : Nat := 0;
      Memory.wf s = true ∧ InTurn 16 d s ∧ s.patchLoad = none ∧ sourceFault s d 8 0x10 (dle d 0xC 4) = none ∧
      patchCheck (patchSource s d img) live = some (st, detail)) ∧
    (let d : Desc := patchStoreD; let s : State := patchBows (turn patchStoreD .idle []) none; let st : Status := stDomainOff;
      Memory.wf s = true ∧ InTurn 16 d s ∧ s.patchLoad = none ∧ sourceFault s d 8 0x10 (dle d 0xC 4) = some st) ∧
    (let s : State := { patchBows (inMode .idle []) (some newPatch) with patchLoad := some lastSwap };
      let b : Fin 16 := Fin.ofNat 16 2; let p : PatchSet := newPatch; let l : PatchLoad := lastSwap;
      Memory.wf s = true ∧ (bow s b).pending = some p ∧ (bow s b).powered = true ∧ swapBoundary s b = true ∧
      s.patchLoad = some l ∧ l.left = BitVec.ofNat 16 (2 ^ b.val) ∧ HasRoom s l.desc) := by
  repeat' apply And.intro
  all_goals first
    | decide +kernel
    | exact inTurn_of (by decide +kernel)

theorem test_meets_GroupCommands :
    (let d : Desc := assignD; let s : State := owned2 (turn assignD .idle []); let b := capoBow d;
      let r := capoRect d;
      Memory.wf s = true ∧ InTurn 1 d s ∧ (rectCourses r).all (courseOpen s b true) = true ∧
      bowBusy (bow s b) = false ∧ (bow s b).armed = none ∧ reshapeHeld s b = false) ∧
    (let d : Desc := releaseD; let s : State := owned2 (turn releaseD .idle []); let b := capoBow d;
      Memory.wf s = true ∧ InTurn 2 d s ∧ (bow s b).held = true ∧ (bow s b).group.isSome = true ∧
      bowBusy (bow s b) = false) ∧
    (let d : Desc := clockD; let s : State := owned2 (turn clockD .idle []);
      Memory.wf s = true ∧ InTurn 3 d s) ∧
    (let d : Desc := unlockD; let s : State := turn unlockD .hold [(0x1000, 0x80000A64)];
      Memory.wf s = true ∧ InTurn 9 d s) := by
  repeat' apply And.intro
  all_goals first
    | decide +kernel
    | exact inTurn_of (by decide +kernel)

theorem test_meets_PatchSetsAndScheduler_scheduler :
    (let d : Desc := armD; let s : State := scheduled (turn armD .idle []) [];
      Memory.wf s = true ∧ InTurn 32 d s ∧ s.sched.length < 256) ∧
    (let d : Desc := cancelD; let s : State := scheduled (turn cancelD .idle []) [entry 1 0 0 1000 0x37];
      let e : SchedEntry := entry 1 0 0 1000 0x37;
      Memory.wf s = true ∧ InTurn 33 d s ∧ s.sched = [e] ∧ e.armNo = BitVec.ofNat 32 (dle d 8 4) ∧
      entryDue s e = false ∧ e.kernel = false) ∧
    (let d : Desc := cancelD; let s : State := scheduled (turn cancelD .idle []) [];
      Memory.wf s = true ∧ InTurn 33 d s ∧ (∀ (x : SchedEntry), x ∈ s.sched → x.armNo ≠ BitVec.ofNat 32 (dle d 8 4))) ∧
    (let s : State := scheduled (inMode .run []) [entry 1 0 0 10 0x37]; let e : SchedEntry := entry 1 0 0 10 0x37;
      Memory.wf s = true ∧ Due s e 1 ∧ e.incr = 0) ∧
    (let s : State := scheduled (inMode .run []) [entry 2 500 2 10 7]; let e : SchedEntry := entry 2 500 2 10 7;
      Memory.wf s = true ∧ Due s e 2 ∧ e.incr ≠ 0 ∧ e.count ≠ 1) ∧
    (let s : State := scheduled (inMode .run []) [entry 3 0 2 10 7]; let e : SchedEntry := entry 3 0 2 10 7;
      Memory.wf s = true ∧ Due s e 3 ∧ e.incr = 0) ∧
    (let s : State := scheduled (inMode .run [(0x5040C, 18)]) [entry 8 0 2 10 7];
      let e : SchedEntry := entry 8 0 2 10 7;
      Memory.wf s = true ∧ Due s e 8 ∧ e.incr = 0) ∧
    (let s : State := scheduled (inMode .run []) [entry 9 0 2 10 7]; let e : SchedEntry := entry 9 0 2 10 7;
      Memory.wf s = true ∧ Due s e 9 ∧ e.incr = 0 ∧ s.cq[Fin.ofNat 64 (e.arg.toNat % 64)].held.length < 256) := by
  repeat' apply And.intro
  all_goals first
    | decide +kernel
    | exact inTurn_of (by decide +kernel)

theorem test_meets_FabricAndImages_fabricCommands :
    (let d : Desc := snapD; let s : State := { turn snapD .idle [] with snap := some { snap0 with fired := true, edges := 1 }, fabGlobal := clocks };
      let k : Snap := { desc := d, fired := false, taken := false, ffs := [], outs := [] };
      Memory.wf s = true ∧ s.snap = some { k with fired := true, edges := 1 } ∧ 1 ≤ 1) ∧
    (let d : Desc := snapEvD;
      let s : State := { turn snapEvD .idle [] with snap := some { snap0 with desc := snapEvD } };
      let k : Snap := { desc := d, fired := false, taken := false, ffs := [], outs := [] };
      Memory.wf s = true ∧ s.snap = some { k with fired := false, edges := 0 }) ∧
    (let d : Desc := snapD; let s : State := { turn snapD .idle [] with snap := some { snap0 with fired := true } };
      let k : Snap := { desc := d, fired := false, taken := false, ffs := [], outs := [] };
      Memory.wf s = true ∧ s.snap = some { k with fired := true, edges := 0 }) ∧
    (let d : Desc := snapStoreD;
      let s : State := { turn snapStoreD .idle [] with snap := some { snap0 with desc := snapStoreD, taken := true } };
      let k' : Snap := { snap0 with desc := snapStoreD, taken := true };
      Memory.wf s = true ∧ s.snap = some k' ∧ k'.taken = true ∧ k'.desc = d ∧ HasRoom s d ∧ dle d 11 1 = 1 ∧
      storeServes s = false ∧ k'.bad = none ∧ k'.frames < 4) ∧
    (let d : Desc := startD; let s : State := turn startD .idle [(0x40000, 0x1212)];
      Memory.wf s = true ∧ InTurn 25 d s ∧ s.mode ≠ Mode.hold ∧
      (∀ (f : Fin 4), Claims.startQuad d f = true → quadState s f = 1)) ∧
    (let d : Desc := safeD; let s : State := turn safeD .idle [(0x40100, 0x12345678)];
      Memory.wf s = true ∧ InTurn 26 d s) ∧
    (let d : Desc := snapD; let s : State := turn snapD .idle [(0x40000, 0x1212)];
      Memory.wf s = true ∧ InTurn 27 d s ∧ s.snap = none ∧ s.fabLoad = none ∧ dle d 8 1 < 4) ∧
    (let d : Desc := snapD; let s : State := { turn snapD .idle [] with snap := some { snap0 with taken := true } };
      let k' : Snap := { snap0 with taken := true };
      Memory.wf s = true ∧ s.snap = some k' ∧ k'.taken = true ∧ k'.desc = d ∧ HasRoom s d ∧ dle d 11 1 = 0 ∧ k'.bad = none ∧
      busMaster s = true) ∧
    (
      let s : State := { inMode .idle [] with fp := State.reset.fp.set 2 { FpSt.reset with pend := [fabricAsk] } };
      let f : Fin 4 := 2; let p : Packet := fabricAsk;
      Memory.wf s = true ∧ s.fp[f].pend = [p] ∧ CanAnswer s p) := by
  repeat' apply And.intro
  all_goals first
    | decide +kernel
    | exact inTurn_of (by decide +kernel)

theorem test_meets_GuardChannels_guardSamples :
    (let l : Fin 32 := 1; let ch : Fin 16 := 3; let s : State := early (driving []);
      Memory.wf s = true ∧ quadState s 0 = 2 ∧ strobeTaken s l.val = false ∧ strobeTaken s (32 + ch.val) = false) ∧
    (let l : Fin 32 := 1; let ch : Fin 16 := 3; let x : Word := fpOne; let s : State := guarded (driving []) limits;
      let k := s.guard.chans[ch];
      Memory.wf s = true ∧
      (let neg : Bool := false; let m : Nat := 0x80000005; let e : Int := -31; strobeTaken s l.val = true ∧
      BitVec.getLsbD (reg s 0x74010) l.val = true ∧ unpackFmt 31 8 (BitVec.toNat x) = FpVal.fin neg m e) ∧
      InputServes s ch ∧ wordIsNaN x = false ∧ peakExceeded k x = true ∧ MayAbort s) ∧
    (let l : Fin 32 := 1; let ch : Fin 16 := 3; let x : Word := fpNan; let s : State := guarded (driving []) limits;
      let k := s.guard.chans[ch];
      Memory.wf s = true ∧ strobeTaken s l.val = true ∧ BitVec.getLsbD (reg s 0x74010) l.val = true ∧ wordIsNaN x = true ∧
      InputServes s ch ∧ k.nanLimit.toNat = k.nanRun + 1 ∧ MayAbort s) ∧
    (let l : Fin 32 := 6; let ch : Fin 16 := 3; let s : State := guarded (driving [(0x70000, 0x10)]) limits;
      let k := s.guard.chans[ch];
      Memory.wf s = true ∧ strobeTaken s l.val = true ∧ BitVec.getLsbD (reg s 0x74010) l.val = false ∧ k.enabled = true ∧
      k.stale ≠ 0 ∧ outputsStarted s = true ∧ MayAbort s) ∧
    (let ch : Fin 16 := 3; let x : Word := fpSmall;
      let s : State := guarded (driving []) { limits with squares := [1, 2, 3, 4] }; let k := s.guard.chans[ch];
      Memory.wf s = true ∧ InputServes s ch ∧ wordIsNaN x = false ∧ peakExceeded k x = false ∧
      (chanSample k x).snd = none) ∧
    (let ch : Fin 16 := 3; let s : State := guarded (driving (ring 9 0x200002)) { limits with window := some 0 };
      let k := s.guard.chans[ch]; let w : Fin 16 := 0;
      Memory.wf s = true ∧ k.window = some w ∧ k.enabled = true ∧ storeServes s = true ∧ winOn s w = true ∧
      s.storeErr = [] ∧ winHead s w < winLen s w ∧ winTail s w < winLen s w) := by
  repeat' apply And.intro
  all_goals decide +kernel

theorem test_meets_GuardChannels_guardCommands :
    (let d : Desc := channelD; let s : State := guarded (turn channelD .idle []) limits;
      Memory.wf s = true ∧ InTurn 69 d s ∧ outputsStarted s = false) ∧
    (let d : Desc := tighterD; let s : State := guarded (turn tighterD .idle [(0x74000, 3), (0x70000, 0x10)]) limits;
      let ch := Fin.ofNat 16 (dle d 8 1); let old := s.guard.chans[ch]; let new := chanOf d;
      Memory.wf s = true ∧ InTurn 69 d s ∧ outputsStarted s = true ∧ tightens old new = true) ∧
    (let d : Desc := channelD; let s : State := guarded (turn channelD .idle [(0x74000, 3), (0x70000, 0x10)]) limits;
      let ch := Fin.ofNat 16 (dle d 8 1); let old := s.guard.chans[ch]; let new := chanOf d;
      Memory.wf s = true ∧ InTurn 69 d s ∧ outputsStarted s = true ∧ tightens old new = false) ∧
    (let d : Desc := lanesD; let s : State := guarded (turn lanesD .idle []) limits;
      Memory.wf s = true ∧ InTurn 70 d s ∧ outputsStarted s = false) ∧
    (let d : Desc := abortD; let s : State := guarded (turn abortD .idle [(0x74000, 3)]) limits;
      Memory.wf s = true ∧ InTurn 71 d s ∧ MayAbort s) ∧
    (let d : Desc := resumeD; let s : State := guarded (turn resumeD .idle [(0x74000, 0x96)]) limits;
      Memory.wf s = true ∧ InTurn 72 d s ∧ softStopped s = true) ∧
    (let s : State := rampedDown .run 3;
      Memory.wf s = true ∧ rampEnded s = true ∧ regBits s 0x74000 7 4 ≠ 9 ∧ abortMode s = true) ∧
    (let s : State := rampedDown .halt 9;
      Memory.wf s = true ∧ rampEnded s = true ∧ regBits s 0x74000 7 4 = 9 ∧ s.mode = Mode.halt) := by
  repeat' apply And.intro
  all_goals first
    | decide +kernel
    | exact inTurn_of (by decide +kernel)

theorem test_meets_BrownoutAndFaults :
    (let rail : BitVec 2 := 1; let row : FaultRow := .thermal; let s : State := brownedOut 2 true;
      let bit := BitVec.ofNat 3 (2 ^ rail.toNat);
      Memory.wf s = true ∧ rail ≠ 3 ∧ s.brown.rails = bit ∧ s.brown.out = false ∧ s.brown.past = false ∧
      s.brown.rails ≠ 0 ∧ s.brown.hold = true ∧ MayAbort s ∧
      (row = FaultRow.link ∨ row = FaultRow.thermal ∨ row = FaultRow.domain ∨ row = FaultRow.group) ∧ row ∈ s.faults ∧
      junctionAt s 179 = true ∧ s.watchdog = none) ∧
    (let rail : BitVec 2 := 1; let s : State := brownedOut 0 true;
      Memory.wf s = true ∧ rail ≠ 3 ∧ s.brown.rails = 0 ∧ s.brown.hold = true ∧ s.brown.out = false ∧
      s.brown.held = []) ∧
    (let rail : BitVec 2 := 1;
      let s : State := { brownedOut 2 false with uncorr := List.replicate 17 (0x0103, 777770), watchdog := some 777770 };
      Memory.wf s = true ∧ rail ≠ 3 ∧ eccExceeded s = true ∧ MayAbort s ∧
      (let e : BitVec 64 := 0xBDE2A; s.watchdog = some e ∧ (s.epoch - e).toNat < 0xFA00000 ∧ MayAbort s)) := by
  repeat' apply And.intro
  all_goals decide +kernel

theorem test_meets_ReferencesAndTimers_phaseReferences :
    (let n : Fin 8 := 2; let s : State := undriven (phase 0x40A 0 edges3);
      Memory.wf s = true ∧ ¬ EdgesReach s n ∧ signalDriven s (16 + n.val) = false) ∧
    (let n : Fin 8 := 2; let a : Bool := true; let v : Reg32 := 0x402; let s : State := phase 0x406 0 edges3;
      let r := s.refs[n];
      Memory.wf s = true ∧ EdgesReach s n ∧ phMode s n = 1 ∧ a ≠ r.a ∧ (a = true ∨ BitVec.getLsbD (reg s (phReg n 0)) 4 = true) ∧
      phMode s n ≠ 0 ∧ phLimit s n < r.t ∧ v &&& BitVec.ofNat 32 0xFF00008C = 0 ∧
      v = reg s (phReg n 0) &&& BitVec.ofNat 32 0xFFFF73 ∧
      (bitsOf (BitVec.toNat v) 1 0 = 0 ∨ bitsOf (BitVec.toNat v) 1 0 = 2) ∧ bitsOf (BitVec.toNat v) 23 8 ≠ 0) ∧
    (let n : Fin 8 := 2; let a : Bool := true; let b : Bool := false; let s : State := phase 0x40A 0 edges3;
      let r := s.refs[n]; let invert := BitVec.getLsbD (reg s (phReg n 0)) 6;
      Memory.wf s = true ∧ EdgesReach s n ∧ phMode s n = 2 ∧ (quadStep r.a r.b a b ∧ invert = false ∨ quadStep a b r.a r.b ∧
      invert = true)) ∧
    (let n : Fin 8 := 2; let a : Bool := false; let b : Bool := true; let s : State := phase 0x40A 0 edges3;
      let r := s.refs[n]; let invert := BitVec.getLsbD (reg s (phReg n 0)) 6;
      Memory.wf s = true ∧ EdgesReach s n ∧ phMode s n = 2 ∧ (quadStep a b r.a r.b ∧ invert = false ∨ quadStep r.a r.b a b ∧
      invert = true)) ∧
    (let n : Fin 8 := 2; let a : Bool := true; let b : Bool := true; let s : State := phase 0x42A 0 edges3;
      let r := s.refs[n];
      Memory.wf s = true ∧ EdgesReach s n ∧ phMode s n = 2 ∧ a ≠ r.a ∧ b ≠ r.b ∧ signalDriven s (16 + n.val) = true ∧ phMode s n ≠ 0 ∧
      phSource s n = 2 ∧
      BitVec.getLsbD (reg s (phReg n 0)) 5 = true ∧ BitVec.getLsbD (reg s (phReg n 20)) 1 = false) ∧
    (let n : Fin 8 := 2; let v : Reg32 := 0x10A; let s : State := phase 0x402 7 edges3;
      Memory.wf s = true ∧ phMode s n = 0 ∧ v &&& BitVec.ofNat 32 0xFF000080 = 0 ∧
      (bitsOf (BitVec.toNat v) 3 2 = 1 ∨ bitsOf (BitVec.toNat v) 3 2 = 2) ∧
      (bitsOf (BitVec.toNat v) 1 0 = 0 ∨ bitsOf (BitVec.toNat v) 1 0 = 2 ∨ bitsOf (BitVec.toNat v) 1 0 = 1 ∧
      n.val % 2 = 0 ∧ bitsOf (BitVec.toNat v) 3 2 = 2) ∧ bitsOf (BitVec.toNat v) 23 8 ≠ 0) := by
  repeat' apply And.intro
  all_goals first
    | decide +kernel
    | (unfold EdgesReach; decide +kernel)
    | (unfold quadStep; decide +kernel)

theorem test_meets_ReferencesAndTimers_eventTimers :
    (let i : Fin 16 := 5; let hi : Reg32 := 255; let s : State := timer .idle 0x8C00000 5 0 6 0x80;
      let c := etCountOf s i; let dir := etDir s i; let st := fun t bit => BitVec.getLsbD (reg t (etReg i 52)) bit;
      Memory.wf s = true ∧ Counting s i false ∧ dir < 3 ∧ dir = 0 ∧ st s 7 = true ∧ BitVec.toNat c + 1 < 2 ^ 39 ∧
      etPeriod s i = 0 ∧ etCmp s i = c + 1 ∧ BitVec.toNat hi < 256 ∧ st s 6 = false ∧
      BitVec.getLsbD (reg s 4096) 31 = false) ∧
    (let i : Fin 16 := 5; let s : State := timer .halt 0x8000000 5 6 6 0; let c := etCountOf s i;
      let dir := etDir s i;
      Memory.wf s = true ∧ Counting s i true ∧ dir = 0 ∧ etPeriod s i ≠ 0 ∧
      BitVec.toNat c < BitVec.toNat (etPeriod s i)) := by
  repeat' apply And.intro
  all_goals decide +kernel

theorem test_meets_TimebaseEvents :
    let s : State := pps; let falling : Bool := true; let line : Fin 16 := 5;
      Memory.wf s = true ∧ s.faults = [FaultRow.lfClock] ∧ s.bootFailed = false ∧
      BitVec.getLsbD (reg s 0x50000) 0 = true ∧ BitVec.getLsbD (reg s 0x50000) 1 = falling ∧ s.ppsSeen = true ∧
      s.pulse[line] ≠ 0 := by
  repeat' apply And.intro
  all_goals decide +kernel

theorem test_meets_RingEngine_hostResets :
    (let s : State := hostOn (ringRegs 1); let n : BitVec 6 := 2; let v : Reg32 := 0x4B;
      let sq := sqBase n.toNat + 24;
      Memory.wf s = true ∧ ringOn s sq = false ∧ BitVec.toNat v < 4096 ∧ BitVec.getLsbD v 0 = true ∧
      4 ≤ bitsOf (BitVec.toNat v) 5 1 ∧ bitsOf (BitVec.toNat v) 5 1 ≤ 16 ∧
      ringOn s (cqBase (bitsOf (BitVec.toNat v) 11 6) + 16) = true) ∧
    (let s : State := hostOn (ringRegs 1); let n : BitVec 6 := 2; let v : Reg32 := 0x104B;
      let cq := cqBase n.toNat + 16;
      Memory.wf s = true ∧ ringOn s cq = false ∧ BitVec.toNat v < 2 ^ 30 ∧ BitVec.getLsbD v 0 = true ∧
      4 ≤ bitsOf (BitVec.toNat v) 5 1 ∧ bitsOf (BitVec.toNat v) 5 1 ≤ 16 ∧ bitsOf (BitVec.toNat v) 19 12 ≠ 0 ∧
      n.toNat < 32 ∧ ringOn s (stBase n.toNat + 16) = false ∧ bitsOf (BitVec.toNat v) 5 1 ≤ 20 ∧
      regBits s (stBase n.toNat + 20) 19 0 % 64 = 0) := by
  repeat' apply And.intro
  all_goals decide +kernel

theorem test_meets_RingEngine_doorbells :
    (let s : State := { hostOn (ringRegs 1) with accepted := [] }; let n : BitVec 6 := 1;
      let b : DescBits := fetched; let k := sqGet s n; let d := entryOf n b;
      Memory.wf s = true ∧ Polls s n ∧ ringFetches s n = true ∧ k.idlePolls + 1 < regBits s 4096 23 8 ∧ checkDesc s d = none ∧ descType d = 3 ∧
      descFence d = false ∧ s.adminQ = [] ∧ s.accepted = [] ∧ 4 ≤ regBits s (sqBase n.toNat + 24) 5 1 ∧
      k.refetch = false) ∧
    (let s : State := ring1 1 9; let n : BitVec 6 := 1; let k := sqGet s n;
      Memory.wf s = true ∧ Polls s n ∧ regBits s 4096 23 8 ≤ k.idlePolls + 1 ∧ ringFetches s n = true ∧ k.refetch = true ∧
      regBits s (sqBase n.toNat + 32) 8 4 < 15) ∧
    (let s : State := ring1 2 9; let n : BitVec 6 := 1; let v : Reg32 := 1;
      Memory.wf s = true ∧ busMaster s = true ∧ BitVec.toNat v = n.toNat ∧ sqState s n = 2 ∧ ringOn s (sqBase n.toNat + 24) = true) ∧
    (let s : State := { ring1 1 9 with cq := State.reset.cq.set 1 { held := [held true], since := 1, overrun := false } };
      let n : BitVec 6 := 1;
      Memory.wf s = true ∧ ringPolls s n = true ∧ ringFetches s n = false) ∧
    (let s : State := hostOn []; let n : BitVec 6 := 1;
      Memory.wf s = true ∧ ringPolls s n = false) := by
  repeat' apply And.intro
  all_goals decide +kernel

theorem test_meets_TransfersAndAborts_kernelsAndTransfers :
    (let d : Desc := plainD;
      let s : State := { transfers with bows := State.reset.bows.set 0 { Bow.reset with powered := true, held := true, group := some square } };
      Memory.wf s = true ∧ Passes s d ∧ descType d = 1 ∧ kernelBad s d = none ∧ kReload d = false ∧
      kTrigger d = false ∧ kUrgent d = false ∧ kPinned d = true ∧ kernelPins d = false ∧
      queueFull s (kBow d) = false ∧ (bow s (kBow d)).armed = none) ∧
    (let d : Desc := copyOutD; let s : State := transfers;
      Memory.wf s = true ∧ descType d = 2 ∧ descCode d = 0 ∧ Passes s d ∧ s.movers[moverOf s d].length < 33) ∧
    (let d : Desc := readD; let s : State := transfers;
      Memory.wf s = true ∧ descType d = 2 ∧ descCode d = 1 ∧ Passes s d ∧ s.movers[moverOf s d].length < 33) ∧
    (let d : Desc := writeD; let s : State := transfers;
      Memory.wf s = true ∧ descType d = 2 ∧ descCode d = 2 ∧ Passes s d ∧ s.movers[moverOf s d].length < 33) ∧
    (let d : Desc := copyOutD; let s : State := moving copyOutD; let m : Fin 8 := 3; let rest : List Desc := [];
      let data : List Word := [1, 2, 3]; let n := copyLength d;
      Memory.wf s = true ∧ s.movers[m] = d :: rest ∧ HasRoom s d ∧ busMaster s = true ∧ CopyOf d 0 1 ∧ storeServes s = true ∧
      s.storeErr = [] ∧ data.length = n) ∧
    (let d : Desc := copyInD; let s : State := moving copyInD; let m : Fin 8 := 3; let rest : List Desc := [];
      Memory.wf s = true ∧ s.movers[m] = d :: rest ∧ HasRoom s d ∧ busMaster s = true ∧ CopyOf d 1 0 ∧ storeServes s = true ∧
      s.storeErr = []) ∧
    (let d : Desc := readD; let s : State := moving readD; let m : Fin 8 := 3; let rest : List Desc := [];
      let c : Fin 64 := 1;
      Memory.wf s = true ∧ s.movers[m] = d :: rest ∧ HasRoom s d ∧ busMaster s = true ∧ OneCourseReg s d 1 c) ∧
    (let d : Desc := writeD; let s : State := moving writeD; let m : Fin 8 := 3; let rest : List Desc := [];
      let c : Fin 64 := 1;
      Memory.wf s = true ∧ s.movers[m] = d :: rest ∧ HasRoom s d ∧ OneCourseReg s d 2 c) ∧
    (let d : Desc := fenceD; let s : State := { transfers with accepted := [plainD] };
      Memory.wf s = true ∧ fenceHolds s d = true) ∧
    (let d : Desc := copyInD; let s : State := withRegs (moving copyInD) [(pciReg 4, 0)]; let m : Fin 8 := 3;
      let rest : List Desc := [];
      Memory.wf s = true ∧ s.movers[m] = d :: rest ∧ usesHost d = true ∧ busMaster s = false) := by
  repeat' apply And.intro
  all_goals decide +kernel

theorem test_meets_TransfersAndAborts_aborts :
    (let d : Desc := abortOfD; let x : Desc := targetD;
      let s : State := { hostOn [] with adminQ := [targetD, abortOfD], accepted := [targetD, abortOfD] };
      let s' : State := { s with adminQ := dropDesc d s.adminQ }; let ring := s.cq[ringOf s d];
      Memory.wf s = true ∧ InTurn 8 d s ∧ abortFind s' d = some x ∧ x ≠ d ∧ descType x = 3 ∧ x.startup = false ∧
      ringOf s x = ringOf s d ∧ ring.held.length < 255 ∧ s'.adminQ = [x]) ∧
    (let d : Desc := abortOfD; let x : Desc := targetKernelD;
      let s : State := { hostOn [] with adminQ := [abortOfD], accepted := [targetKernelD, abortOfD], bows := State.reset.bows.set 0 { Bow.reset with queue := [targetJob] } };
      let s' : State := { s with adminQ := dropDesc d s.adminQ }; let ring := s.cq[ringOf s d]; let b : Fin 16 := 0;
      let j : Job := targetJob;
      Memory.wf s = true ∧ InTurn 8 d s ∧ abortFind s' d = some x ∧ x ≠ d ∧ descType x = 1 ∧ x.startup = false ∧
      ringOf s x = ringOf s d ∧ ring.held.length < 255 ∧
      (∀ (c : Fin 16), Option.map Job.desc (bow s c).n.job ≠ some x ∧ Option.map Job.desc (bow s c).u.job ≠ some x) ∧
      (∀ (c : Fin 16), c ≠ b → (bow s c).queue = [] ∧ (bow s c).launches = [] ∧ (bow s c).ended = []) ∧
      (bow s b).queue = [j] ∧ j.desc = x) ∧
    (let d : Desc := abortOfD; let s : State := { hostOn [] with adminQ := [abortOfD], accepted := [abortOfD] };
      let s' : State := { s with adminQ := dropDesc d s.adminQ };
      Memory.wf s = true ∧ InTurn 8 d s ∧ abortFind s' d = none) := by
  repeat' apply And.intro
  all_goals first
    | decide +kernel
    | exact inTurn_of (by decide +kernel)

theorem test_meets_CompletionsAndStreams :
    (let s : State := withRegs (holding true) [(0x805C, 1)]; let m : Fin 64 := 2; let h : BitVec 32 := 16; let o := cqBase m.val;
      let q := s.cq[m]; let log2 := regBits s (o + 16) 5 1; let pi := reg s (o + 20); let c : Completion := held true;
      let rest : List Completion := [];
      Memory.wf s = true ∧ q.held = c :: rest ∧ ringOn s (o + 16) = true ∧ busMaster s = true ∧ BitVec.toNat (pi - h) < 2 ^ log2 ∧
      c.irq = true ∧ vectorOpen s (BitVec.ofNat 6 (regBits s (o + 16) 11 6)) = false) ∧
    (let s : State := holding true; let m : Fin 64 := 2; let h : BitVec 32 := 16; let o := cqBase m.val;
      let q := s.cq[m]; let log2 := regBits s (o + 16) 5 1; let pi := reg s (o + 20);
      Memory.wf s = true ∧ (let c : Completion := held true; let rest : List Completion := []; q.held = c :: rest ∧
      ringOn s (o + 16) = true ∧ busMaster s = true ∧ BitVec.toNat (pi - h) < 2 ^ log2) ∧ vectorOpen s 5 = true ∧
      regBits s (o + 16) 11 6 = 5 ∧ q.since ≠ 0 ∧ regBits s (o + 16) 29 20 ≠ 0) ∧
    (let d : Desc := streamD; let s : State := turn streamD .idle [(0x4050, 0x2009), (0x4054, 128)];
      let st := stBase (streamOf d).val;
      Memory.wf s = true ∧ InTurn 40 d s ∧
      recordSize (dle d 12 4) ((dle d 10 1).testBit 0) ≤ regBits s (st + 20) 19 0 ∧ dle d 9 1 < 16) ∧
    (let d : Desc := stopD; let s : State := turn stopD .idle [(0x4050, 0x2009), (0x4054, 128), (0x4058, 0x7)];
      Memory.wf s = true ∧ InTurn 41 d s) ∧
    (
      let s : State := { turn stopD .idle [(0x4050, 0x100009), (0x4054, 128), (0x4058, 0x7)] with st := State.reset.st.set 1 { State.reset.st[1] with since := 3 } };
      let r : Fin 32 := 1;
      Memory.wf s = true ∧ s.st[r].since ≠ 0 ∧ vectorOpen s (BitVec.ofNat 6 (regBits s (stBase r.val + 16) 11 6)) = true ∧ regBits s (stBase r.val + 16) 29 20 ≠ 0) ∧
    (let s : State := streaming; let r : Fin 32 := 1; let h : BitVec 32 := 4; let w : Fin 16 := 3;
      Memory.wf s = true ∧ StreamReady s r w h) := by
  repeat' apply And.intro
  all_goals first
    | decide +kernel
    | exact inTurn_of (by decide +kernel)
    | exact streamReady_of (by decide +kernel)

theorem test_meets_VaultCommands :
    (let d : Desc := eraseD 2; let s : State := turn (eraseD 2) .idle vault; let n := Machine.slotOf d;
      let a := vaultActive s;
      Memory.wf s = true ∧ InTurn 51 d s ∧ n < 4 ∧ n ≠ a) ∧
    (let d : Desc := slotWriteD 1; let s : State := turn (slotWriteD 1) .idle vault; let n := Machine.slotOf d;
      let a := vaultActive s;
      Memory.wf s = true ∧ InTurn 52 d s ∧ n < 4 ∧ n ≠ a ∧ sourceFault s d 9 0x18 (dle d 0x10 4) = none) ∧
    (let d : Desc := eraseD 0; let s : State := turn (eraseD 0) .idle vault; let n := Machine.slotOf d;
      let a := vaultActive s;
      Memory.wf s = true ∧ InTurn 51 d s ∧ n = a) ∧
    (let d : Desc := slotWriteD 0; let s : State := turn (slotWriteD 0) .idle vault; let n := Machine.slotOf d;
      let a := vaultActive s;
      Memory.wf s = true ∧ InTurn 52 d s ∧ n = a) ∧
    (let d : Desc := activateD 0; let s : State := turn (activateD 0) .idle vault; let n := Machine.slotOf d;
      let a := vaultActive s;
      Memory.wf s = true ∧ InTurn 54 d s ∧ n = a) ∧
    (let d : Desc := verifyD; let img : SlotRead := img; let s : State := turn verifyD .idle vault;
      let n := Machine.slotOf d;
      Memory.wf s = true ∧ InTurn 53 d s ∧ n < 4 ∧ slotCheck s img = none) ∧
    (let d : Desc := activateD 2; let s : State := turn (activateD 2) .idle vault; let n := Machine.slotOf d;
      let a := vaultActive s;
      Memory.wf s = true ∧ InTurn 54 d s ∧ n < 4 ∧ n ≠ a ∧ (slotState s n = 2 ∨ slotState s n = 3)) ∧
    (let d : Desc := revertD; let s : State := turn revertD .idle vault;
      Memory.wf s = true ∧ InTurn 49 d s ∧ revertible s = true ∧ rollbackCount s ≤ slotSecurity s (vaultPrevious s)) ∧
    (let d : Desc := revertD; let s : State := turn revertD .idle [];
      Memory.wf s = true ∧ InTurn 49 d s ∧ revertible s = false) ∧
    (let d : Desc := commitD; let s : State := turn commitD .idle vault; let a := vaultActive s;
      let v := slotSecurity s a;
      Memory.wf s = true ∧ InTurn 55 d s ∧ activeClean s = true ∧ rollbackCount s < v ∧ brownWarn s = false) ∧
    (let d : Desc := commitD; let s : State := turn commitD .idle [(0x60000, 0x4000), (0x60030, 0x40)];
      let a := vaultActive s; let v := slotSecurity s a;
      Memory.wf s = true ∧ InTurn 55 d s ∧ activeClean s = true ∧ v ≤ rollbackCount s) ∧
    (let d : Desc := policyD; let s : State := turn policyD .hold vault;
      Memory.wf s = true ∧ InTurn 56 d s) ∧
    (let d : Desc := verifyD; let img : SlotRead := badImg; let s : State := turn verifyD .idle vault;
      let n := Machine.slotOf d; let o : Nat := 3; let st : Status := stAuthFail;
      let detail : BitVec 24 := slotDetail 0 3 0;
      Memory.wf s = true ∧ InTurn 53 d s ∧ n < 4 ∧ slotCheck s img = some (o, st, detail)) := by
  repeat' apply And.intro
  all_goals first
    | ((with_reducible refine slotCheck_img ?_); decide +kernel)
    | decide +kernel
    | exact inTurn_of (by decide +kernel)

theorem test_meets_KeysAndTamper :
    (let d : Desc := ownerD; let src : TamperSource := .pin; let s : State := turn ownerD .idle [];
      let i := tamperBit src; let lc := lifecycleCode s;
      Memory.wf s = true ∧ s.lease.block.toNat < 496 ∧ InTurn 57 d s ∧ ownerProvisioned s = false ∧ lc = 0 ∧
      sourceFault s d 8 0x10 128 = none ∧
      BitVec.getLsbD (reg s 0x60034) (8 + i) = false) ∧
    (let d : Desc := ownerD; let s : State := turn ownerD .idle [(0x60030, 1)]; let lc := lifecycleCode s;
      Memory.wf s = true ∧ s.lease.block.toNat < 496 ∧ InTurn 57 d s ∧ (ownerProvisioned s = true ∨ lc ≠ 0)) ∧
    (let d : Desc := lifecycleD; let sigOk : Bool := true;
      let s : State := { secure lifecycleD .idle [(0x60030, 9)] with ownerCk := [(1, 5)] }; let target := byteAt d 8;
      let lc := lifecycleCode s; let k : BitVec 256 := 5;
      Memory.wf s = true ∧ s.lease.block.toNat < 496 ∧ InTurn 58 d s ∧ lc < target ∧ target ≠ 1 ∧ sigOk = true ∧
      authorityExists s target = true ∧ target = 2 ∧ ownerContentKey s = some k) ∧
    (let d : Desc := lifecycleD; let sigOk : Bool := true; let s : State := turn lifecycleD .idle [(0x60030, 1)];
      let target := byteAt d 8; let lc := lifecycleCode s;
      Memory.wf s = true ∧ s.lease.block.toNat < 496 ∧ InTurn 58 d s ∧ lc < target ∧ target ≠ 1 ∧
      (sigOk && authorityExists s target) = false) ∧
    (let d : Desc := lifecycleD; let s : State := turn lifecycleD .idle [(0x60030, 2)]; let target := byteAt d 8;
      let lc := lifecycleCode s;
      Memory.wf s = true ∧ s.lease.block.toNat < 496 ∧ InTurn 58 d s ∧ (target ≤ lc ∨ target = 1)) ∧
    (let s : State := turn lifecycleD .erase [(0x30004, 0x3E), (0x40000, 0x2222)];
      Memory.wf s = true ∧ s.lease.block.toNat < 496 ∧ s.mode = Mode.erase ∧ s.lifecycle = none ∧
      rampDownRuns s = false ∧ storeIsOn s = true) ∧
    (let d : Desc := tamperD 0x1F; let src : TamperSource := .pin;
      let s : State := turn (tamperD 0x1F) .idle [(0x60034, 0x30F04)]; let i := tamperBit src;
      let lc := lifecycleCode s; let enabled := regBits s 393268 12 8; let responses := regBits s 393268 20 16;
      Memory.wf s = true ∧ s.lease.block.toNat < 496 ∧ InTurn 59 d s ∧ (lc ≠ 2 ∨ enabled &&& byteAt d 8 = enabled ∧
      responses &&& byteAt d 9 = responses) ∧ BitVec.getLsbD (reg s 0x60034) (8 + i) = true ∧ AnswersTamper s.mode) ∧
    (let d : Desc := clearD; let detected : BitVec 5 := 1; let sigOk : Bool := true;
      let s : State := turn clearD .idle [(0x60034, 0xE04)]; let lc := lifecycleCode s;
      let enabled := regBits s 393268 12 8;
      Memory.wf s = true ∧ s.lease.block.toNat < 496 ∧ InTurn 60 d s ∧ detected.toNat &&& enabled = 0 ∧
      (lc ≠ 2 ∨ (sigOk && ownerProvisioned s) = true)) ∧
    (let d : Desc := clearD; let detected : BitVec 5 := 2; let s : State := turn clearD .idle [(0x60034, 0xE04)];
      let enabled := regBits s 393268 12 8;
      Memory.wf s = true ∧ s.lease.block.toNat < 496 ∧ InTurn 60 d s ∧ detected.toNat &&& enabled ≠ 0) ∧
    (let d : Desc := lifecycleD;
      let s : State := { turn lifecycleD .erase [(0x60030, 9)] with lifecycle := some (lifecycleD, 3) };
      let n : Nat := 3;
      Memory.wf s = true ∧ s.lease.block.toNat < 496 ∧ s.mode = Mode.erase ∧ s.lifecycle = some (d, n) ∧ n ≤ 4) ∧
    (
      let s : State := { turn lifecycleD .erase [] with guard := { State.reset.guard with ramp := some { up := false, t0 := 0 } } };
      Memory.wf s = true ∧ s.lease.block.toNat < 496 ∧ s.mode = Mode.erase ∧ s.lifecycle = none ∧
      rampDownRuns s = true) ∧
    (let d : Desc := tamperD 0; let s : State := turn (tamperD 0) .idle [(0x60030, 2), (0x60034, 0x30F04)];
      let lc := lifecycleCode s; let enabled := regBits s 393268 12 8;
      Memory.wf s = true ∧ s.lease.block.toNat < 496 ∧ InTurn 59 d s ∧ lc = 2 ∧ enabled &&& byteAt d 8 ≠ enabled) := by
  repeat' apply And.intro
  all_goals first
    | decide +kernel
    | exact inTurn_of (by decide +kernel)
    | (unfold AnswersTamper; decide +kernel)

theorem test_meets_ResetAndBoot :
    (let img : SlotRead := img; let s : State := full .boot vault;
      Memory.wf s = true ∧ s.mode = Mode.boot ∧ FirstAttempts s ∧ outputsStarted s = false ∧ SlotBoots s img ∧
      manifestAutostart img = false ∧ autoRevert s = false) ∧
    (let s : State := full .idle vault;
      Memory.wf s = true ∧ s.mode ≠ Mode.boot) ∧
    (let s : State := directory (full .idle vault); let n : Fin 2 := 1;
      Memory.wf s = true ∧ s.bootPass = none ∧ newerCopy s = some n ∧ (s.vault[n]).dir = vaultDir s) ∧
    (let s : State := { full .boot vault with bootPass := some { attempts := [], autoOk := false, us := 0, wakeTo := none, bad := none } };
      let p : BootPass := { attempts := [], autoOk := false, us := 0, wakeTo := none, bad := none };
      Memory.wf s = true ∧ s.bootPass = some p ∧ p.wakeTo = none) ∧
    (let d : Desc := restartD; let img : SlotRead := img; let s : State := turn restartD .idle vault;
      Memory.wf s = true ∧ InTurn 50 d s ∧ FirstAttempts s ∧ SlotBoots s img ∧ manifestAutostart img = false ∧
      autoRevert s = false) := by
  repeat' apply And.intro
  all_goals first
    | ((with_reducible refine slotCheck_img ?_); decide +kernel)
    | exact slotSound_img (by decide +kernel)
    | exact slotBoots_img (by decide +kernel)
    | decide +kernel
    | exact inTurn_of (by decide +kernel)

theorem test_meets_OperatingModes :
    (let d : Desc := outputsD; let src : WakeSource := .sched; let s : State := ready (configured .hold []);
      Memory.wf s = true ∧ InTurn 48 d s ∧ s.mode = Mode.hold ∧ outputsBad s = none ∧ scanTaken s = false ∧
      startupDescs s.startup 1 = [] ∧ AtRest s ∧ reg s 0x90010 = 0 ∧ rampUpMs s ≠ 0 ∧ s.mode ≠ Mode.standby ∧ s.mode ≠ Mode.sleep ∧
      src ≠ WakeSource.perst ∧ wakeDue s src = false) ∧
    (let d : Desc := outputsD;
      let s : State := { ready (configured .hold []) with jtag := { State.reset.jtag with taken := true } };
      Memory.wf s = true ∧ InTurn 48 d s ∧ s.mode = Mode.hold ∧ outputsBad s = none ∧ scanTaken s = true) ∧
    (let d : Desc := outputsD; let s : State := configured .hold []; let c : Nat := 3;
      Memory.wf s = true ∧ InTurn 48 d s ∧ s.mode = Mode.hold ∧ outputsBad s = some c) ∧
    (let d : Desc := outputsD; let s : State := ready (configured .idle []);
      Memory.wf s = true ∧ InTurn 48 d s ∧ s.mode ≠ Mode.hold) ∧
    (let d : Desc := modeD 1 1; let d3hot : Bool := false;
      let s : State := turn (modeD 1 1) .hold [(0x30004, 0x3C), (0x40000, 0x1211)];
      Memory.wf s = true ∧ InTurn 64 d s ∧ modeSetBad s d d3hot = false) ∧
    (let d : Desc := modeD 2 0; let d3hot : Bool := false;
      let s : State := turn (modeD 2 0) .hold [(0x30004, 0x3C), (0x40000, 0x2222)];
      Memory.wf s = true ∧ InTurn 64 d s ∧ modeSetBad s d d3hot = true) ∧
    (let img : SlotRead := img; let src : WakeSource := .hifWake;
      let s : State := turn (modeD 0 0) .sleep [(0x60000, 0x4000)];
      Memory.wf s = true ∧ s.mode = Mode.sleep ∧ wakeDue s src = true ∧ s.fullBoot = false ∧ SlotSound s img ∧ AtRest s ∧ reg s 0x74010 = 0) ∧
    (let img : SlotRead := img; let src : WakeSource := .hifWake;
      let s : State := { inMode .standby [(0x60000, 0x4000)] with before := .hold, keepLink := true };
      Memory.wf s = true ∧ s.mode = Mode.standby ∧ wakeDue s src = true ∧ s.fullBoot = false ∧ s.before = Mode.hold ∧
      SlotBoots s img ∧ passRuns s = false) ∧
    (let d : Desc := exitD; let s : State := turn exitD .sentinel [(0x60000, 0x4000)];
      Memory.wf s = true ∧ InTurn 65 d s ∧ s.mode = Mode.sentinel ∧ sentinelBad s = none) ∧
    (let d : Desc := exitD; let s : State := turn exitD .sentinel [(0x60034, 1)]; let c : Nat := 3;
      Memory.wf s = true ∧ InTurn 65 d s ∧ sentinelBad s = some c) := by
  repeat' apply And.intro
  all_goals first
    | ((with_reducible refine slotCheck_img ?_); decide +kernel)
    | exact slotSound_img (by decide +kernel)
    | exact slotBoots_img (by decide +kernel)
    | decide +kernel
    | exact inTurn_of (by decide +kernel)

theorem test_meets_MonitorSamples :
    (let x : Sample := sampleOf 5 30 90; let s : State := monitored [(0x70000, 3), (0x70010, 0xFFFFFFFF)];
      Memory.wf s = true ∧ Sampled s x) ∧
    (let x : Sample := sampleOf 5 30 170; let s : State := monitored [(0x70000, 3), (0x70010, 0xFFFFFFFF)];
      Memory.wf s = true ∧ Sampled s x ∧ 169 ≤ x.temp.toNat ∧ s.faults.contains FaultRow.thermal = false) ∧
    (let d : Desc := servicePolicyD; let x : Sample := sampleOf 70 10 100;
      let s : State := turn servicePolicyD .idle [];
      Memory.wf s = true ∧ domainOn s x.domain.val = false ∧ x.domain.val < 84 ∧ InTurn 66 d s) ∧
    (let x : Sample := sampleOf 85 10 100; let q : Fin 4 := 1; let s : State := inMode .idle [];
      Memory.wf s = true ∧ x.domain.val = 84 + q.val) := by
  repeat' apply And.intro
  all_goals first
    | decide +kernel
    | exact inTurn_of (by decide +kernel)
    | (unfold Sampled; decide +kernel)

theorem test_meets_MigrationAndTest :
    (let d : Desc := migrateD; let c : Fin 64 := 5; let p : Fin 68 := 65;
      let s : State := course5 (turn migrateD .run [(0x70018, 1)]); let st := s.pcourse[p];
      Memory.wf s = true ∧ InTurn 67 d s ∧ byteAt d 8 = c.val ∧ byteAt d 9 = p.val ∧
      (course s c).owner.isSome = true ∧ s.migration = none ∧ s.idMove = none ∧ spareFree s p = true ∧
      mayLease s p = false ∧ st ≠ PState.leased ∧ st ≠ PState.retest) ∧
    (let d : Desc := migrateD; let c : Fin 64 := 5; let s : State := turn migrateD .run [(0x70018, 1)];
      Memory.wf s = true ∧ InTurn 67 d s ∧ byteAt d 8 = c.val ∧ s.migration = none ∧ (course s c).owner = none) ∧
    (let s : State := { course5 (turn migrateD .run [(0x70018, 1)]) with migration := some moveJob, adminQ := [] };
      let m : Migration := moveJob;
      Memory.wf s = true ∧ s.migration = some m ∧ (m.clean = false ∨ courseSpeculative s m.logical = true)) ∧
    (
      let s : State := { course5 (turn migrateD .service [(0x70018, 1)]) with migration := some moveClean, adminQ := [] };
      let m : Migration := moveClean;
      Memory.wf s = true ∧ s.migration = some m ∧ m.clean = true ∧ courseSpeculative s m.logical = false ∧
      s.idMove = none) ∧
    (let d : Desc := migrateD;
      let s : State := { course5 (turn migrateD .service [(0x70018, 1)]) with migration := some moveClean, idMove := some (5, 65), flight := [mkSent ptMarker lastMarkerP], adminQ := [] };
      let m : Migration := moveClean; let x : Packet := lastMarkerP;
      Memory.wf s = true ∧ s.migration = some m ∧ m.desc = some d ∧ HasRoom s d ∧ LastMarker s x m.logical m.mirror ∧
      s.heldBack = []) ∧
    (let p : Fin 68 := 65; let s : State := spare65 .leased [(0x70000, 0x40)]; let st := s.pcourse[p];
      Memory.wf s = true ∧ st = PState.leased ∧ logicalOf s p = none) ∧
    (let p : Fin 68 := 65; let pass : Bool := false; let s : State := spare65 .retest [(0x70000, 0x40)];
      let st := s.pcourse[p];
      Memory.wf s = true ∧ st = PState.retest ∧ pass = false) ∧
    (let p : Fin 68 := 65; let pass : Bool := true; let margin : BitVec 8 := 9; let s : State := spare65 .retest [];
      let st := s.pcourse[p];
      Memory.wf s = true ∧ st = PState.retest ∧ pass = true ∧ s.policy.high ≤ margin) ∧
    (let p : Fin 68 := 65;
      let s : State := { course5 (inMode .run []) with policy := { State.reset.policy with courseTest := true } };
      Memory.wf s = true ∧ mayLease s p = true ∧ logicalOf s p = none) ∧
    (let c : Fin 64 := 6; let p : Fin 68 := 6;
      let s : State := { course5 (inMode .run []) with policy := { State.reset.policy with courseTest := true } };
      Memory.wf s = true ∧ mayLease s p = true ∧ logicalOf s p = some c) := by
  repeat' apply And.intro
  all_goals first
    | decide +kernel
    | exact ⟨false, by decide +kernel⟩
    | exact inTurn_of (by decide +kernel)

theorem test_meets_FirmwareAndLogbook :
    (let d : Desc := switchD 2; let img : SlotRead := img; let source : BitVec 16 := 1; let event : BitVec 16 := 2;
      let s : State := { turn (switchD 2) .idle vault with folded := [(1, 2, 0, 3)], epoch := 5 };
      let n := Machine.slotOf d; let good := slotState s n = 2 ∨ slotState s n = 3;
      Memory.wf s = true ∧ InTurn 68 d s ∧ good ∧ manifestCheck s img = none ∧
      (let t₀ : BitVec 64 := 0; let k : Nat := 3; s.folded = [(source, event, t₀, k)] ∧ 0 < k ∧
      s.log.length < 16384)) ∧
    (let d : Desc := switchD 2; let img : SlotRead := badImg; let s : State := turn (switchD 2) .idle vault;
      let n := Machine.slotOf d; let good := slotState s n = 2 ∨ slotState s n = 3;
      Memory.wf s = true ∧
      (let o : Nat := 3; let st : Status := stAuthFail; let detail : BitVec 24 := slotDetail 0 3 0; InTurn 68 d s ∧
      good ∧ manifestCheck s img = some (o, st, detail)) ∧ s.folded = []) ∧
    (let d : Desc := switchD 3; let s : State := turn (switchD 3) .idle vault; let n := Machine.slotOf d;
      let good := slotState s n = 2 ∨ slotState s n = 3;
      Memory.wf s = true ∧ InTurn 68 d s ∧ (¬good)) ∧
    (let d : Desc := switchD 3;
      let s : State := { turn (switchD 3) .service (vault ++ [(0x70000, 0x100)]) with fwSwitch := some (switchD 3), adminQ := [] };
      Memory.wf s = true ∧ s.fwSwitch = some d ∧ HasRoom s d) ∧
    (let d : Desc := logReadD;
      let s : State := { turn logReadD .idle vault with log := [logLine, logLine, logLine, logLine], logNext := 4 };
      Memory.wf s = true ∧ InTurn 73 d s ∧ byteAt d 8 = 0) := by
  repeat' apply And.intro
  all_goals first
    | decide +kernel
    | exact inTurn_of (by decide +kernel)

theorem test_meets_PeerLinks :
    (let l : Fin 2 := 0; let dev : BitVec 3 := 2; let size : BitVec 4 := 4; let s : State := peers 3 sentTwo;
      let k := peer s l; let state := fun t => linkState t l.val;
      Memory.wf s = true ∧
      (let x : Sent := mkSent 0 peerP; let h : BitVec 80 := headerFlit (mkSent 0 peerP); let body : List (BitVec 80) := []; Formed x ∧
      packetFlits x = h :: body) ∧ (let i : Nat := 7; i < 88) ∧ Trains s l ∧ size.toNat = ringSize s ∧
      dev.toNat = partnerOf s l ∧ state s ≠ 4 ∧ k.sinceAck ≠ 0 ∧ (recentRetrains s l).length < 8) ∧
    (let l : Fin 2 := 0; let dev : BitVec 3 := 1; let size : BitVec 4 := 4; let s : State := peers 3 sentTwo;
      Memory.wf s = true ∧ Trains s l ∧ (size.toNat ≠ ringSize s ∨ dev.toNat ≠ partnerOf s l)) ∧
    (let l : Fin 2 := 0; let s : State := peers 5 sentTwo; let state := fun t => linkState t l.val;
      Memory.wf s = true ∧ state s = 5) ∧
    (let l : Fin 2 := 0; let s : State := peers 6 sentTwo; let state := fun t => linkState t l.val;
      Memory.wf s = true ∧ state s = 6) ∧
    (let l : Fin 2 := 0; let f : BitVec 384 := frameNone; let s : State := peers 4 sentTwo; let k := peer s l;
      let state := fun t => linkState t l.val;
      Memory.wf s = true ∧ state s = 4 ∧ Whole f 0 k.expect ∧ NoFlits f) ∧
    (let l : Fin 2 := 0; let f : BitVec 384 := frameNone + 1; let s : State := peers 4 sentTwo;
      let state := fun t => linkState t l.val;
      Memory.wf s = true ∧ state s = 4 ∧ BitVec.extractLsb' 352 32 f ≠ crc32 (leBytes (f.toNat % 2 ^ 352) 44)) ∧
    (let l : Fin 2 := 0; let f : BitVec 384 := framePacket; let s : State := peers 4 sentTwo; let k := peer s l;
      let state := fun t => linkState t l.val; let x : BitVec 4 × Packet := (0, peerP);
      Memory.wf s = true ∧ state s = 4 ∧ Whole f 0 k.expect ∧ OneFlit f x ∧ x.snd.ddev = ownDev s) ∧
    (let l : Fin 2 := 0; let n : BitVec 12 := 9; let f : BitVec 384 := wireFrame 0 9 0;
      let s : State := peers 4 sentTwo; let k := peer s l; let state := fun t => linkState t l.val;
      Memory.wf s = true ∧ state s = 4 ∧ n ≠ k.expect ∧ Whole f 0 n) ∧
    (let l : Fin 2 := 0; let n : BitVec 12 := 5; let f : BitVec 384 := wireFrame 1 5 0;
      let s : State := peers 4 sentTwo; let k := peer s l; let state := fun t => linkState t l.val;
      Memory.wf s = true ∧ state s = 4 ∧ Whole f 1 n ∧ (k.next - (n + 1)).toNat ≤ k.kept.length) ∧
    (let l : Fin 2 := 0; let n : BitVec 12 := 6; let f : BitVec 384 := wireFrame 2 6 0;
      let s : State := peers 4 sentTwo; let k := peer s l; let state := fun t => linkState t l.val;
      Memory.wf s = true ∧ state s = 4 ∧ Whole f 2 n ∧ (k.next - n).toNat ≤ k.kept.length) ∧
    (let l : Fin 2 := 0;
      let s : State := peers 4 { sentTwo with kept := [], retrains := [12345, 12344, 12343, 12342, 12341, 12340, 12339, 12338] };
      let k := peer s l;
      Memory.wf s = true ∧ 8 ≤ (recentRetrains s l).length ∧ k.kept = [] ∧ k.wait = [] ∧
      (∀ x ∈ s.flight, x.via ≠ .over l)) ∧
    (let l : Fin 2 := 0; let x : Sent := mkSent 0 peerP; let k := peer (peers 4 sentTwo) l;
      k.kept.length + frameCount x.pkt ≤ 64) ∧
    (let l : Fin 2 := 0; let x : Sent := mkSent 0 peerP;
      let s : State := peers 4 { sentTwo with kept := List.replicate 64 { bits := 1, done := none } }; let k := peer s l;
      Memory.wf s = true ∧ 64 < k.kept.length + frameCount x.pkt) ∧
    (let l : Fin 2 := 0; let s : State := peers 4 { sentTwo with sinceAck := 0 }; let k := peer s l;
      Memory.wf s = true ∧ k.sinceAck = 0) := by
  repeat' apply And.intro
  all_goals first
    | decide +kernel
    | (unfold NoFlits; decide +kernel)
    | exact ⟨by decide +kernel, by decide +kernel, by decide +kernel, by decide +kernel, by decide +kernel⟩

theorem test_meets_JtagAndBar4 :
    (let s : State := debugPort fpPort; let offset : BitVec 26 := 72; let be : BitVec 8 := 0x13;
      Memory.wf s = true ∧ outputsStarted s = false ∧ debugOpen s = true ∧
      (let np : Nat × Nat := (33, 1); Bar4Reaches s offset np) ∧
      (let np : Nat × Nat := (33, 1); Bar4Reaches s offset np ∧ be.toNat % 32 ≠ 0)) ∧
    (let s : State := debugPort (fpPort ++ [(0x60030, 2)]); let offset : BitVec 26 := 72;
      Memory.wf s = true ∧ (outputsStarted s = true ∨ debugOpen s = false) ∧ bar4Maps s offset = false) := by
  repeat' apply And.intro
  all_goals decide +kernel

theorem test_meets_DebugCommands :
    (let s : State := halted3 .halt 5 []; let b : Fin 16 := 3; let c : Ctx := .n; let fails := regBits s 592032 3 2;
      Memory.wf s = true ∧ Halted s b c ∧ (let i : Fin 16 := Fin.ofNat 16 4; Halted s b c ∧
      Selects s b c (i.val + 1)) ∧ fails < 2 ∧ ownerProvisioned s = false) ∧
    (let s : State := halted3 .halt 19 []; let b : Fin 16 := 3; let c : Ctx := .n; let i : Fin 8 := Fin.ofNat 8 2;
      Memory.wf s = true ∧ Halted s b c ∧ Selects s b c (i.val + 17)) ∧
    (let s : State := inMode .run []; let b : Fin 16 := 3;
      Memory.wf s = true ∧ debugOpen s = true ∧ bowHalted s b = false ∧ atBoundary (bow s b) = true ∧
      (s.mode = Mode.idle ∨ s.mode = Mode.run)) ∧
    (let s : State := halted3 .halt 0 []; let b : Fin 16 := 3; let c : Ctx := .n;
      Memory.wf s = true ∧ Halted s b c ∧ Selects s b c 0) ∧
    (let s : State := halted3 .run 5 [(0x60030, 0xA)]; let field := decide (regBits s 393264 2 0 = 2);
      Memory.wf s = true ∧ field = true ∧ debugOpen s = false ∧ ownerProvisioned s = true ∧ ownerRevoked s = false) ∧
    (let s : State := halted3 .run 5 [(0x60030, 2), (0x60034, 0x1F00), (0x90000, 4), (0x908A0, 8)];
      let fails := regBits s 592032 3 2; let field := decide (regBits s 393264 2 0 = 2);
      Memory.wf s = true ∧ fails = 2 ∧ field = true ∧ BitVec.getLsbD (reg s 0x60034) 12 = true ∧
      AnswersTamper s.mode) ∧
    (
      let s : State := { inMode .run [] with bows := State.reset.bows.set 3 { Bow.reset with window := some window0 } };
      let b : Fin 16 := 3;
      Memory.wf s = true ∧ debugOpen s = true ∧ bowHalted s b = false ∧ (bow s b).window.isSome = true) := by
  repeat' apply And.intro
  all_goals first
    | decide +kernel
    | (unfold AnswersTamper; decide +kernel)

theorem test_meets_RegisterWrites :
    (let s : State := inMode .idle [(0x70004, 0x1F)]; let offset : BitVec 20 := 0x70004; let o := offset.toNat;
      Memory.wf s = true ∧ (let fs : List RegField := (regLayout 0x70004).getD []; PlainRegister o fs)) ∧
    (let s : State := inMode .idle []; let offset : BitVec 20 := 0x70003; let o := offset.toNat;
      Memory.wf s = true ∧ regLayout o = none ∧ o % 0x1000 ≠ 0 ∧ HostSpace.bar0 ≠ .config ∧ hostLinkUp s = false) ∧
    (let s : State := inMode .idle [(0x70018, 0x40000000)];
      Memory.wf s = true ∧ hostLinkUp s = true) := by
  repeat' apply And.intro
  all_goals decide +kernel

theorem test_meets_FabricAndImages_fabricLoads_check :
    (let d : Desc := loadD; let i : FabImage := { fabImg with sigOk := false }; let s : State := turn loadD .idle [];
      let mask := dle d 9 1; let st : Status := stAuthFail; let c : Nat := 0; let f : Nat := 0;
      Memory.wf s = true ∧ s.mode = Mode.idle ∧ InTurn 24 d s ∧ loadRefused s mask = none ∧
      sourceFault s d 8 0x10 (dle d 0xC 4) = none ∧ imageHead s mask (fabSource s d i) = some (st, c, f)) ∧
    (let d : Desc := loadD; let i : FabImage := fabImg; let s : State := turn loadD .idle []; let mask := dle d 9 1;
      Memory.wf s = true ∧ s.mode = Mode.idle ∧ InTurn 24 d s ∧ loadRefused s mask = none ∧
      sourceFault s d 8 0x10 (dle d 0xC 4) = none ∧ imageHead s mask (fabSource s d i) = none) ∧
    (let d : Desc := loadStoreD; let s : State := turn loadStoreD .idle []; let mask := dle d 9 1; let st : Status := stDomainOff;
      Memory.wf s = true ∧ InTurn 24 d s ∧ loadRefused s mask = none ∧ sourceFault s d 8 0x10 (dle d 0xC 4) = some st) ∧
    (let d : Desc := loadD; let s : State := { turn loadD .idle [] with fabLoad := some { step1 with desc := loadStoreD } };
      let mask := dle d 9 1; let c : Nat := 1;
      Memory.wf s = true ∧ InTurn 24 d s ∧ loadRefused s mask = some c) := by
  repeat' apply And.intro
  all_goals first
    | decide +kernel
    | exact inTurn_of (by decide +kernel)

/-- Its quadrant was RUNNING, or it was not; a request waits for its answer. -/
theorem test_meets_FabricAndImages_fabricLoads_steps :
    (∀ state ∈ [0x1221, 0x1021], let s := loading step1 state; let q := loadQuad loadD
     Memory.wf s = true ∧ s.fabLoad = some { step1 with quad := q, wait := (dle loadD 10 1).testBit 0 } ∧
       loadVerify s (2 ^ q.val) fabImg = none ∧ HasRoom s loadD) ∧
    (let s := loading { step1 with step := 2 } 0x1321; let q := loadQuad loadD
     Memory.wf s = true ∧ s.fabLoad = some { step1 with quad := q, step := 2 } ∧ (s.fp[q]).pend = [] ∧
       ((2 : Nat) = 1 → loadVerify s (2 ^ q.val) fabImg = none)) ∧
    (let s0 := loading { step1 with step := 2 } 0x1321; let q := loadQuad loadD
     let s := { s0 with fp := s0.fp.set 2 { FpSt.reset with pend := [fabricAsk] } }
     Memory.wf s = true ∧ s.fabLoad = some { step1 with quad := q, step := 2 } ∧ (s.fp[q]).pend ≠ []) ∧
    (let s := loading { step1 with step := 3 } 0x1421; let q := loadQuad loadD
     Memory.wf s = true ∧ s.fabLoad = some { step1 with quad := q, step := 3 }) ∧
    (let s := loading { step1 with step := 4 } 0x1421; let q := loadQuad loadD
     Memory.wf s = true ∧ s.fabLoad = some { step1 with quad := q, step := 4 } ∧ HasRoom s loadD ∧ step1.wait = false ∧ s.mode ≠ .hold ∧
       ∀ f : Fin 4, ¬ ((fabImg.quads[q]).gates.getLsbD f.val = true ∧ (imageGlobal fabImg).trees[f] ≠ .none)) ∧
    (let s := loading { step1 with step := 4, image := gatedImg } 0x1421; let q := loadQuad loadD; let f : Fin 4 := 1
     Memory.wf s = true ∧ s.fabLoad = some { step1 with quad := q, step := 4, image := gatedImg } ∧ step1.wait = false ∧
       s.mode ≠ .hold ∧ (gatedImg.quads[q]).gates.getLsbD f.val = true ∧ (imageGlobal gatedImg).trees[f] ≠ .none) ∧
    (let s := loading { step1 with step := 5, image := gatedImg } 0x1221; let q := loadQuad loadD
     Memory.wf s = true ∧ s.fabLoad = some { step1 with quad := q, step := 5, image := gatedImg } ∧ HasRoom s loadD ∧
       startEnded s q = true) ∧
    (let s := loading { step1 with image := badFrames } 0x1421; let q := loadQuad loadD; let st : Status := stBadDescriptor
     Memory.wf s = true ∧ s.fabLoad = some { step1 with quad := q, image := badFrames } ∧
       loadVerify s (2 ^ q.val) badFrames = some (st, 3, 5) ∧ HasRoom s loadD) := by
  refine ⟨fun state h => ⟨?_, load_eq ?_ ?_, loadVerify_fabImg ?_ ?_, ?_⟩, ⟨?_, load_eq ?_ rfl, ?_, ?_⟩, ⟨?_, load_eq ?_ rfl, ?_⟩,
    ⟨?_, load_eq ?_ rfl⟩, ⟨?_, load_eq ?_ rfl, ?_, rfl, ?_, ?_⟩, ⟨?_, load_eq ?_ rfl, rfl, ?_, ?_, ?_⟩, ⟨?_, load_eq ?_ rfl, ?_, ?_⟩,
    ⟨?_, load_eq ?_ rfl, ?_, ?_⟩⟩
  all_goals first
    | decide +kernel
    | (revert state; decide +kernel)
    | (unfold HasRoom; decide +kernel)
    | (unfold HasRoom; revert state; decide +kernel)

theorem test_meets_StepTakesTheFront :
    (let s : State := inMode .idle [(0x50004, 1)];
      s.pending = [] ∧ lfMode s = false ∧ reg s 0x50010 = 0) ∧
    (let s : State := State.reset;
      s.pending = [] ∧ lfMode s = true) := by
  repeat' apply And.intro
  all_goals decide +kernel

/-! ### Words written out from R90: cond, opcode, width, dst, src1, src2, invert, hint -/

/-- The operands of a word, as an instruction of bow 2, context N. -/
def fields (cond width dst src1 src2 invert hint : Nat) : Issue :=
  { bow := 2, ctx := .n, cond := BitVec.ofNat 4 cond, width := BitVec.ofNat 6 width, dst := BitVec.ofNat 20 dst,
    src1 := BitVec.ofNat 20 src1, src2 := BitVec.ofNat 20 src2, invert := BitVec.ofNat 1 invert, hint := BitVec.ofNat 1 hint }

/-- The two words that the manual works out: after R116, and after R136. -/
theorem test_word_of_r116 :
    decodeWord 2 .n 0x0F3A0008000040180014 = (0xF3, fields 0 40 0x00200 0x00100 0x60005 0 0) := by decide
theorem test_word_of_r136 :
    decodeWord 2 .n 0x245A0010008040140014 = (0x45, fields 2 40 0x00400 0x20100 0x50005 0 0) := by decide

/-- ADDSS F3 invert, NEIGHBOUR and flag sources, width 16; SHL by 7, width 64 (0); FCMPLT to F3 of an OCTAVE source. -/
theorem test_words_array : decodeWord 2 .n 0x3064000400C0191C000A = (0x06, fields 3 16 0x00100 0x30064 0x70002 1 0) ∧
    decodeWord 2 .n 0x0300048000001018001C = (0x30, fields 0 0 0x12000 0x00040 0x60007 0 0) ∧
    decodeWord 2 .n 0x04BA1C000C008010A814 = (0x4B, fields 0 40 0x70003 0x00200 0x42A05 0 0) := by decide

/-- MOVE of stream 2, width 24; GETSUM of F7 PEs into S15, width 24. -/
theorem test_words_movement : decodeWord 2 .n 0x060600FC020000800000 = (0x60, fields 0 24 0x03F00 0x80002 0 0 0) ∧
    decodeWord 2 .n 0x774614003C00C0000000 = (0x74, fields 7 24 0x5000F 0x00300 0 0 0) := by decide

/-- SADC GE S3, S1, #−1; SFMUL of data memory; AADD A7, A6, #−2. -/
theorem test_words_scalar : decodeWord 2 .n 0xB81A14000D40005BFFFC = (0x81, fields 0xB 40 0x50003 0x50001 0x6FFFF 0 0) ∧
    decodeWord 2 .n 0x0A2A00FFFC7801140028 = (0xA2, fields 0 40 0x03FFF 0x1E004 0x5000A 0 0) ∧
    decodeWord 2 .n 0x0B9014001D40019BFFF8 = (0xB9, fields 0 0 0x50007 0x50006 0x6FFFE 0 0) := by decide

/-- BR GS with hint 1; XRADV S2, S3, #1. -/
theorem test_words_control : decodeWord 2 .n 0xEC0000000186AF000001 = (0xC0, fields 0xE 0 0 0x61ABC 0 0 1) ∧
    decodeWord 2 .n 0x0E901400094000D80004 = (0xE9, fields 0 0 0x50002 0x50003 0x60001 0 0) := by decide

/-! ### Worked examples of the manual -/

/-- The state after a command. -/
def after (o : Host.Outcome State Fault Refusal) : State := match o with
  | .next t => t
  | _ => State.reset

/-- Bow 2, its S registers holding 0 but for S1 and S2; the word of S5 and BF after a scalar instruction on S1 and S2. -/
def twoRegs (a b : Nat) : State :=
  onBow { bow2i with n := { ctxN with s := (((Vector.ofFn fun _ => 0).set 1 (BitVec.ofNat 40 a)).set 2 (BitVec.ofNat 40 b)), bf := 0 } }
def byte : Issue := fields 0 8 0x50005 0x50001 0x50002 0 0
def outcome (o : Host.Outcome State Fault Refusal) : Nat × Nat :=
  ((ctx (after o) 2 .n).s[5].toNat, (ctx (after o) 2 .n).bf.toNat)

/-- The table after R162: bits of BF are Z, N, C, V. -/
theorem test_sshl_table : outcome (exec (.sshl byte) (twoRegs 0x81 1)) = (0x02, 4) ∧
    outcome (exec (.sshl byte) (twoRegs 0x81 8)) = (0x00, 5) ∧ outcome (exec (.sshl byte) (twoRegs 0x81 9)) = (0x00, 1) := by
  decide +kernel
theorem test_sshr_ssar_table : outcome (exec (.sshr byte) (twoRegs 0x81 8)) = (0x00, 5) ∧
    outcome (exec (.ssar byte) (twoRegs 0x81 8)) = (0xFFFFFFFFFF, 6) ∧
    outcome (exec (.ssar byte) (twoRegs 0x81 20)) = (0xFFFFFFFFFF, 6) := by decide +kernel
theorem test_srol_table : outcome (exec (.srol byte) (twoRegs 0x81 9)) = (0x03, 0) := by decide +kernel

/-- Rows of the table after R163: −100 by 7, −128 by −1, 37 by 0. -/
theorem test_sdiv_table : (outcome (exec (.sdiv byte) (twoRegs 0x9C 7))).1 = 0xFFFFFFFFF2 ∧
    outcome (exec (.sdiv byte) (twoRegs 0x80 0xFF)) = (0xFFFFFFFF80, 0xA) ∧
    (outcome (exec (.sdiv byte) (twoRegs 37 0))).1 = 0xFFFFFFFFFF := by decide +kernel
theorem test_srem_table : (outcome (exec (.srem byte) (twoRegs 0x9C 7))).1 = 0xFFFFFFFFFE ∧
    (outcome (exec (.srem byte) (twoRegs 100 0xF9))).1 = 2 ∧ (outcome (exec (.srem byte) (twoRegs 37 0))).1 = 37 := by
  decide +kernel

/-- After R149: SINS of 0x4000 into 0x3F. -/
theorem test_sins_step : (ctx (after (exec (.sins (fields 0 0 0x50001 0x64000 0 0 0)) (twoRegs 0x3F 0))) 2 .n).s[1] = 0x3F4000 := by
  decide +kernel

/-- After R102: a MOVE of four planes that hold 13, up by two planes and up by one. -/
def thirteen : State := { issuing with pe := [(100, 1), (102, 1), (103, 1)] }
def fieldAt (s : State) (base : Nat) : Nat := valueAt ((List.range 4).map fun i => cget zeroes s.pe (base + i)) 0
theorem test_move_up_two : fieldAt (after (exec (.move (fields 0 4 102 100 0 0 0)) thirteen)) 102 = 5 := by decide +kernel
theorem test_move_up_one : fieldAt (after (exec (.move (fields 0 4 101 100 0 0 0)) thirteen)) 101 = 13 := by decide +kernel

/-- After R163, w = 8: ADDSS of 100 and 27 does not clamp, of 100 and 100 does; SUBUS of 5 and 10. -/
def bytes (a b : Nat) : State :=
  { issuing with pe := ((List.range 8).filter a.testBit).map (fun i => (i, 1)) ++
      ((List.range 8).filter b.testBit).map (fun i => (8 + i, 1)) }
def byteOf (o : Host.Outcome State Fault Refusal) : Nat × Bool :=
  (valueAt ((List.range 8).map fun i => cget zeroes (after o).pe (16 + i)) 0, peBit (after o).pe keyX 0)
theorem test_addss_clamps : byteOf (exec (.addss (fields 0 8 16 0 8 0 0)) (bytes 100 100)) = (127, true) ∧
    byteOf (exec (.addss (fields 0 8 16 0 8 0 0)) (bytes 100 27)) = (127, false) := by decide +kernel
theorem test_subus_clamps : byteOf (exec (.subus (fields 0 8 16 0 8 0 0)) (bytes 5 10)) = (0, true) := by decide +kernel
theorem test_subss_clamps : byteOf (exec (.subss (fields 0 8 16 0 8 0 0)) (bytes 100 228)) = (127, true) := by decide +kernel

/-- After R43: samples in S24_FP with SCALE 23. -/
def s24ctl : CpCtl :=
  { outbound := false, format := 2, scale := 23, width := 40, column := false, port := false, cont := false, source := 0,
    signx := false }
theorem test_s24_fp : slotValue s24ctl 0x003E400000 = 0x3F00000000 ∧ slotValue s24ctl 0x003EC00000 = 0xBF00000000 ∧
    slotValue s24ctl 0x003E000000 = 0 := by
  decide +kernel

/-- After R270: the N port has priority over the D port on word 0x1234. -/
def word1234 : State := { State.reset with store := [(0x1234, 0x1122334455)] }
theorem test_collision_write_write :
    storeWord (writeWord false word1234 0x1234 0b00011 0xAABBCCDDEE (.write 0b11000 0x9988000000)).1 0x1234 = 0x112233DDEE ∧
    (writeWord true word1234 0x1234 0b11000 0x9988000000 (.write 0b00011 0xAABBCCDDEE)).2.status = stCollided ∧
    storeWord (writeWord true word1234 0x1234 0b11000 0x9988000000 (.write 0b00011 0xAABBCCDDEE)).1 0x1234 = 0x1122334455 := by
  decide +kernel
theorem test_collision_read : (readWord true word1234 0x1234 (.write 31 1)).2.status = stUndefRead ∧
    (readWord false word1234 0x1234 (.write 31 0x7FC0000000)).2.status = stUndefRead := by decide +kernel

/-- After R244: the header flit of a line request of B0; and the way of a packet from N1 to N32, whose Y dateline it crosses. -/
theorem test_header_flit : headerFlit (mkSent 0 { pkt 0x200 0x100 16 0x1B0000 0 0 [] with tag := 0x15, host := 0 }) = 0x03FB0000405440010000 := by
  decide
theorem test_route : (route (1, 1) (32, 2) false).map (fun h => (h.router, h.vc)) = [(1, 0), (2, 0), (32, 1)] := by decide +kernel

/-- After R281: a split cell delivers I1 AND I2 on ZL and I1 OR I2 OR I3 on ZH. -/
theorem test_split_cell : ∀ a b c : Bool, let i := 2 * a.toNat + 4 * b.toNat + 8 * c.toNat
    tableLow 0xEAE8EAE8EAE8EAE8 i = (a && b) ∧ tableHigh 0xEAE8EAE8EAE8EAE8 i = (a || b || c) := by decide

/-! ### Commands that are not well formed -/

theorem test_wf_raw : Instr.wf (.nop { byte with raw := some 0x80 }) = false ∧
    Instr.wf (.nop { byte with raw := some 0x0E }) = true := by decide +kernel
theorem test_wf_routine : Instr.wf (.rep { byte with upc := some 3 } 0) = false ∧
    Instr.wf (.sadd { byte with stop := some (1, 2, 3) }) = false ∧ Instr.wf (.sadd byte) = true ∧
    Instr.wf (.muli { byte with upc := some 3, stop := some (1, 2, 3) }) = true := by decide +kernel
theorem test_wf_line : Instr.wf (.istoreLineFill 2 0 4 [1] [] [(1, 0)]) = false ∧
    Instr.wf (.istoreLineFill 2 0 4 [] [] []) = true := by decide +kernel
theorem test_wf_reply : Instr.wf (.hostRd (pkt 0x400 0x100 2 0 0 0 []) (some [1])) = false ∧
    Instr.wf (.hostRd (pkt 0x400 0x100 2 0 0 0 []) (some [1, 2])) = true ∧
    Instr.wf (.hostRd (pkt 0x400 0x100 2 0 0 0 []) none) = true := by decide +kernel
theorem test_wf_meets : Instr.wf (.rd (pkt 0x200 0x100 2 0 0 0 []) [(5, .read), (5, .none)]) = false ∧
    Instr.wf (.wr (pkt 0x200 0x100 2 0 0 0 []) [(5, .read), (6, .none)]) = true := by decide +kernel

/-- A patch image that counts one word and two entries. -/
def countedImg (n : Nat) : PatchImage := { header := 0x20001 <<< 128, sigOk := true, gcmOk := true, body := List.replicate n 0 }
theorem test_wf_patch : Instr.wf (.patchLoad kernelD (countedImg 25)) = false ∧ Instr.wf (.patchLoad kernelD (countedImg 26)) = true := by
  decide +kernel
theorem test_wf_slot : Instr.wf (.slotVerify kernelD { img with patch := some (countedImg 26) }) = false ∧
    Instr.wf (.eraseEnd [img, { img with patch := some (countedImg 26) }]) = false ∧
    Instr.wf (.slotVerify kernelD img) = true := by decide +kernel
theorem test_wf_rail : Instr.wf (.brownoutWarning 3) = false ∧ Instr.wf (.brownoutClear 3) = false ∧
    Instr.wf (.brownoutWarning 2) = true := by decide +kernel

end Sys2Proof.Tests
end

section
/-! PROOFS. Chapter 0: every command completes, the Course Port commands. -/

namespace Sys2Proof.Machine

open Sys2Proof.Claims

/-! ### Every command completes (log entries 3 and 136) -/

/-- Settles O41: the arm of every row of the table is a meaning that answers a next state. -/
theorem noCommandStops : Obligations.NoCommandStops := by
  intro c s
  cases c <;> exact ⟨_, rfl⟩

/-! ### The packets that a client sends -/

/-- A packet presented to a source NI is in flight, held back or answered, and counted: nothing else changes
(R254, R255). -/
theorem inject_cases (s : State) (t : Nat) (p : Packet) :
    ∃ flight heldBack regs, inject s t p = { s with flight, heldBack, regs } := by
  unfold inject
  split
  · exact ⟨_, _, _, rfl⟩
  · dsimp only
    split
    · exact ⟨_, _, _, rfl⟩
    · split
      · split <;> exact ⟨_, _, _, rfl⟩
      · split <;> exact ⟨_, _, _, rfl⟩

@[simp] theorem inject_courses (s : State) (t : Nat) (p : Packet) : (inject s t p).courses = s.courses := by
  obtain ⟨f, h, r, e⟩ := inject_cases s t p
  rw [e]

@[simp] theorem inject_pe (s : State) (t : Nat) (p : Packet) : (inject s t p).pe = s.pe := by
  obtain ⟨f, h, r, e⟩ := inject_cases s t p
  rw [e]

@[simp] theorem inject_store (s : State) (t : Nat) (p : Packet) : (inject s t p).store = s.store := by
  obtain ⟨f, h, r, e⟩ := inject_cases s t p
  rw [e]

/-! ### Channels under the updates of the state -/

/-- The channels are read off the courses alone. -/
theorem chan_of_courses {s t : State} (h : t.courses = s.courses) (c : Fin 64) (n : Fin 4) : chan t c n = chan s c n := by
  simp only [chan, course, h]

@[simp] theorem chan_setChan (s : State) (c : Fin 64) (n : Fin 4) (k : Chan) : chan (setChan s c n k) c n = k := by
  simp [chan, course, setChan, setCourse]

@[simp] theorem chan_inject (s : State) (t : Nat) (p : Packet) (c : Fin 64) (n : Fin 4) :
    chan (inject s t p) c n = chan s c n := chan_of_courses (inject_courses s t p) c n

/-- Writing the control register leaves courses and memories as they were (R57). -/
theorem withCtrl_kept (s : State) (c : Fin 64) (n : Fin 4) (v : Reg32) :
    (withCtrl s c n v).courses = s.courses ∧ (withCtrl s c n v).pe = s.pe ∧ (withCtrl s c n v).store = s.store := by
  unfold withCtrl Claims.warned
  split <;> simp [regWarnAt]

@[simp] theorem chan_withCtrl (s : State) (c : Fin 64) (n : Fin 4) (v : Reg32) :
    chan (withCtrl s c n v) c n = chan s c n := chan_of_courses (withCtrl_kept s c n v).1 c n

/-! ### Writes of CRS_CP_CTRL (R51, R57) -/

theorem logSource_course (c : Fin 64) : logSource 0x01 c.val = BitVec.ofNat 16 (0x0100 + c.val) := by
  have hc := c.isLt
  simp only [logSource]
  congr 1
  omega

theorem writeCpCtl_eq_withCtrl (s : State) (c : Fin 64) (n : Fin 4) (v : Reg32) :
    writeCpCtl s c n v = withCtrl s c n v := by
  simp only [writeCpCtl, withCtrl, Claims.warned, logSource_course, ge_iff_le]

/-- A write of CRS_CP_CTRL with ABORT goes to the abort of its channel. -/
theorem courseRegWrite_abort (s : State) (c : Fin 64) (n : Fin 4) {v : Reg32} (req : Option Packet)
    (hv : v.getLsbD 1 = true) : courseRegWrite s c (0x100 + 0x20 * n.val) v req = abortChannel s c n v req := by
  have hn := n.isLt
  have hlt : 0x100 + 0x20 * n.val < 0x180 := by omega
  have hmod : (0x100 + 0x20 * n.val) % 0x20 = 0 := by omega
  simp [courseRegWrite, hlt, hmod, hv]

/-- A write of CRS_CP_CTRL with START goes to the start of its channel, which sees to an ABORT in the same word. -/
theorem courseRegWrite_start (s : State) (c : Fin 64) (n : Fin 4) {v : Reg32} (req : Option Packet)
    (hv : v.getLsbD 0 = true) : courseRegWrite s c (0x100 + 0x20 * n.val) v req = startChannel s c n v req := by
  cases hab : v.getLsbD 1 with
  | true =>
    rw [courseRegWrite_abort s c n req hab, startChannel, if_pos hab]
  | false =>
    have hn := n.isLt
    have hlt : 0x100 + 0x20 * n.val < 0x180 := by omega
    have hmod : (0x100 + 0x20 * n.val) % 0x20 = 0 := by omega
    have hab' : v[1] = false := hab
    simp [courseRegWrite, hlt, hmod, hv, hab']

/-- Setting the ABORT bit does not change whether reserved bits are set. -/
theorem reserved_or_two (v : Reg32) : 2 ^ 22 ≤ (v ||| 2).toNat ↔ 2 ^ 22 ≤ v.toNat := by
  have key : (v ||| 2).toNat / 2 ^ 22 = v.toNat / 2 ^ 22 := by
    rw [BitVec.toNat_or, ← Nat.shiftRight_eq_div_pow, Nat.shiftRight_or_distrib, ← Nat.shiftRight_eq_div_pow]
    simp
  omega

theorem exec_cpStart {s : State} {c : Fin 64} (h : (course s c).ready = true) (n : Fin 4) (v : Reg32) :
    exec (.cpStart c n v none) s = .next (startChannel s c n (v ||| 1) none) := by
  have hbit : (v ||| 1).getLsbD 0 = true := by simp
  show Host.Outcome.next (ctrlWrite c n (v ||| 1) none s) = _
  simp only [ctrlWrite, h, if_true, ctrlRequest, Option.map_none, courseRegWrite_start s c n none hbit]

theorem exec_cpAbort {s : State} {c : Fin 64} (h : (course s c).ready = true) (n : Fin 4) (v : Reg32) :
    exec (.cpAbort c n v none) s = .next (abortChannel s c n (v ||| 2) none) := by
  have hbit : (v ||| 2).getLsbD 1 = true := by simp
  show Host.Outcome.next (ctrlWrite c n (v ||| 2) none s) = _
  simp only [ctrlWrite, h, if_true, ctrlRequest, Option.map_none, courseRegWrite_abort s c n none hbit]

section Start
variable {s : State} {c : Fin 64} {n : Fin 4} {v : Reg32} (hab : v.getLsbD 1 = false)
include hab

theorem startChannel_busy (h : (chan s c n).st ≠ 0) : startChannel s c n v none = s := by
  simp only [startChannel, hab, h, Bool.false_eq_true, if_false, ne_eq, not_false_eq_true, if_true, ackWrite]

theorem startChannel_refused (h : (chan s c n).st = 0) {st : Status} (hbad : startBad (withCtrl s c n v) c n = some st) :
    startChannel s c n v none = setRegBits (withCtrl s c n v) (cpReg c n 0x10) 9 2 st.toNat := by
  simp only [startChannel, hab, h, Bool.false_eq_true, if_false, ne_eq, not_true_eq_false,
    writeCpCtl_eq_withCtrl, hbad, ackWrite]

theorem startChannel_begins (h : (chan s c n).st = 0) (hok : startBad (withCtrl s c n v) c n = none) :
    startChannel s c n v none = beginTransfer (withCtrl s c n v) c n none := by
  simp only [startChannel, hab, h, Bool.false_eq_true, if_false, ne_eq, not_true_eq_false, writeCpCtl_eq_withCtrl, hok]

end Start

/-- The channel of a transfer that has just begun (R51, R57). -/
def startedChan (s : State) (c : Fin 64) (n : Fin 4) : Chan :=
  { Chan.reset with
    st := if (cpCtl s c n).outbound then 2 else 1, gen := (chan s c n).gen + 1,
    sync := !(cpCtl s c n).cont && ((cpCtl s c n).format == 1 || (cpCtl s c n).format == 2) }

/-- An outbound transfer, and one that takes the words pushed to it, begin without a request. -/
theorem beginTransfer_silent {s : State} {c : Fin 64} {n : Fin 4}
    (h : (cpCtl s c n).outbound = true ∨ (cpCtl s c n).source = 0) :
    beginTransfer s c n none = setChan s c n (startedChan s c n) := by
  unfold beginTransfer
  exact if_pos h

/-- Any other transfer sends its first read. -/
theorem beginTransfer_reads {s : State} {c : Fin 64} {n : Fin 4} (hin : (cpCtl s c n).outbound = false)
    (hsrc : (cpCtl s c n).source ≠ 0) : beginTransfer s c n none = sendRead (setChan s c n (startedChan s c n)) c n := by
  unfold beginTransfer
  exact if_neg (by simp [hin, hsrc])

/-- A read that is sent is noted in its channel and changes no memory. -/
theorem sendRead_spec (s : State) (c : Fin 64) (n : Fin 4) :
    chan (sendRead s c n) c n = { chan s c n with waiting := (nextRead s c n).2 } ∧
    (sendRead s c n).pe = s.pe ∧ (sendRead s c n).store = s.store := by
  simp [sendRead]

/-- The first read of a FETCH asks for the first words, 32 at most (R47). -/
theorem nextRead_first {s : State} {c : Fin 64} {n : Fin 4} (hsrc : (cpCtl s c n).source = 1) :
    (nextRead (setChan s c n (startedChan s c n)) c n).2 = min 32 (cpCount s c n) := by
  have hctl : cpCtl (setChan s c n (startedChan s c n)) c n = cpCtl s c n := rfl
  have hcnt : cpCount (setChan s c n (startedChan s c n)) c n = cpCount s c n := rfl
  simp only [nextRead, chan_setChan, hctl, hcnt, hsrc, if_true]
  rfl

/-- A FETCH begins in the phase that moves words, with its bank empty and its first read under way (R47, R51). -/
theorem beginTransfer_fetch {s : State} {c : Fin 64} {n : Fin 4} (hin : (cpCtl s c n).outbound = false)
    (hsrc : (cpCtl s c n).source = 1) :
    let t := beginTransfer s c n none
    (chan t c n).st = 1 ∧ (chan t c n).bank = [] ∧ (chan t c n).waiting = min 32 (cpCount s c n) ∧
    t.pe = s.pe ∧ t.store = s.store := by
  intro t
  have ht : t = sendRead (setChan s c n (startedChan s c n)) c n := beginTransfer_reads hin (by simp [hsrc])
  obtain ⟨hchan, hpe, hstore⟩ := sendRead_spec (setChan s c n (startedChan s c n)) c n
  simp only [ht, hchan, nextRead_first hsrc, chan_setChan]
  exact ⟨by simp [startedChan, hin], rfl, trivial, hpe, hstore⟩

section Abort
variable {s : State} {c : Fin 64} {n : Fin 4}

theorem abortChannel_idle (v : Reg32) (h : (chan s c n).st = 0) : abortChannel s c n v none = withCtrl s c n v := by
  simp [abortChannel, h, ackWrite, writeCpCtl_eq_withCtrl]

theorem abortChannel_moving (v : Reg32) (h : (chan s c n).st = 1 ∨ (chan s c n).st = 2) (ho : (chan s c n).owner = none) :
    abortChannel s c n (v ||| 2) none = setRegBits (setChan (Claims.warned s c n v) c n
      { Chan.reset with gen := (chan s c n).gen, consumed := (chan s c n).consumed }) (cpReg c n 0x10) 9 2 0x02 := by
  have h0 : (chan s c n).st ≠ 0 := by rcases h with h | h <;> simp [h]
  have h3 : (chan s c n).st ≠ 3 := by rcases h with h | h <;> simp [h]
  simp only [abortChannel, if_neg h0, if_neg h3, ho, ackWrite, ge_iff_le, reserved_or_two, logSource_course]
  rfl

theorem abortChannel_ready (v : Reg32) (h : (chan s c n).st = 3) :
    abortChannel s c n (v ||| 2) none = setChan (Claims.warned s c n v) c n { chan s c n with st := 0, bank := [] } := by
  have h0 : (chan s c n).st ≠ 0 := by simp [h]
  simp only [abortChannel, if_neg h0, if_pos h, ackWrite, ge_iff_le, reserved_or_two, logSource_course]
  rfl

end Abort

/-- Settles O16: each clause is a branch of the start or of the abort of a channel; the FETCH's first read goes through
the source NI, which touches no channel. -/
theorem coursePortCommands : Obligations.CoursePortCommands := by
  intro c n v s _ hready
  simp only [exec_cpStart hready, exec_cpAbort hready]
  have hbit : v.getLsbD 1 = false → (v ||| 1).getLsbD 1 = false := fun h => by simpa using h
  refine ⟨?_, ?_, ?_, ?_, ?_, ?_, ?_⟩
  · intro hidle hab hok hsilent
    rw [startChannel_begins (hbit hab) hidle hok, beginTransfer_silent hsilent]
    simp only [startedChan, chan_withCtrl]
  · intro hidle hab hok hin hsrc
    obtain ⟨_, hpe, hstore⟩ := withCtrl_kept s c n (v ||| 1)
    refine ⟨_, by rw [exec_cpStart hready, startChannel_begins (hbit hab) hidle hok], ?_⟩
    simpa only [hpe, hstore] using beginTransfer_fetch hin hsrc
  · intro st hidle hab hbad
    rw [startChannel_refused (hbit hab) hidle hbad]
  · intro hbusy hab
    rw [startChannel_busy (hbit hab) hbusy]
  · intro hidle
    rw [abortChannel_idle _ hidle]
  · intro hmoving howner
    rw [abortChannel_moving v hmoving howner]
  · intro hrdy
    rw [abortChannel_ready v hrdy]

end Sys2Proof.Machine
end

section
/-! PROOFS. Chapter 0: writes of registers. -/

namespace Sys2Proof.Machine

open Sys2Proof.Claims

/-! ### The bits of a field -/

theorem testBit_bitsOf (v hi lo j : Nat) : (bitsOf v hi lo).testBit j = (decide (j < hi + 1 - lo) && v.testBit (lo + j)) := by
  rw [bitsOf, Nat.testBit_mod_two_pow, Nat.testBit_shiftRight]

/-- Only the part of a register that a field covers is exchanged. -/
theorem putBits_eq (v hi lo x : Nat) :
    putBits v hi lo x =
      2 ^ lo * (2 ^ (hi + 1 - lo) * (v / 2 ^ lo / 2 ^ (hi + 1 - lo)) + x % 2 ^ (hi + 1 - lo)) + v % 2 ^ lo := by
  have hv : 2 ^ lo * (2 ^ (hi + 1 - lo) * (v / 2 ^ lo / 2 ^ (hi + 1 - lo)) + v / 2 ^ lo % 2 ^ (hi + 1 - lo)) +
      v % 2 ^ lo = v := by
    rw [Nat.div_add_mod, Nat.div_add_mod]
  rw [Nat.mul_add] at hv ⊢
  simp only [putBits, bitsOf, Nat.shiftRight_eq_div_pow, Nat.mul_comm _ (2 ^ lo)]
  omega

/-- A field written into a register: its bits take the low bits of the value, the others stay. -/
theorem testBit_putBits (v hi lo x i : Nat) :
    (putBits v hi lo x).testBit i = if lo ≤ i ∧ i ≤ hi then x.testBit (i - lo) else v.testBit i := by
  rw [putBits_eq, Nat.testBit_two_pow_mul_add _ (Nat.mod_lt _ (Nat.two_pow_pos lo)),
    Nat.testBit_two_pow_mul_add _ (Nat.mod_lt _ (Nat.two_pow_pos _))]
  simp only [Nat.testBit_mod_two_pow, Nat.testBit_div_two_pow]
  rcases Nat.lt_or_ge i lo with hlo | hlo
  · rw [if_pos hlo, if_neg (by omega)]
    simp [hlo]
  · rw [if_neg (by omega)]
    rcases Nat.lt_or_ge hi i with hhi | hhi
    · rw [if_neg (by omega), if_neg (by omega)]
      congr 1
      omega
    · rw [if_pos (by omega), if_pos ⟨hlo, hhi⟩]
      simp [show i - lo < hi + 1 - lo by omega]

/-- Subtracting a part of a number's own bits clears them. -/
theorem testBit_sub_and_self (a b i : Nat) : (a - (a &&& b)).testBit i = (a.testBit i && !b.testBit i) := by
  have hle : a &&& b ≤ a := Nat.and_le_left
  have hlow : (a &&& b) % 2 = 1 ↔ a % 2 = 1 ∧ b % 2 = 1 := Nat.and_mod_two_eq_one
  induction i generalizing a b with
  | zero =>
    simp only [Nat.testBit_zero]
    rw [← decide_not, ← Bool.decide_and]
    exact decide_eq_decide.mpr (by omega)
  | succ i ih =>
    have hdiv : (a &&& b) / 2 = a / 2 &&& b / 2 := Nat.and_div_two
    have hhalf : (a - (a &&& b)) / 2 = a / 2 - (a / 2 &&& b / 2) := by omega
    rw [Nat.testBit_succ, Nat.testBit_succ, Nat.testBit_succ, hhalf]
    exact ih (a / 2) (b / 2) Nat.and_le_left Nat.and_mod_two_eq_one

/-- The bits that a field covers. -/
abbrev RegField.Covers (f : RegField) (i : Nat) : Prop := f.lo ≤ i ∧ i ≤ f.hi

/-- Two fields have no bit in common. -/
abbrev Apart (f g : RegField) : Prop := f.hi < g.lo ∨ g.hi < f.lo

theorem Apart.not_covers {f g : RegField} {i : Nat} (h : Apart f g) (hf : f.Covers i) : ¬ g.Covers i := by
  omega

theorem testBit_fieldMask (f : RegField) (i : Nat) : (fieldMask f).testBit i = decide (f.Covers i) := by
  rw [fieldMask, Nat.testBit_mul_two_pow, Nat.testBit_two_pow_sub_one, ← Bool.decide_and]
  exact decide_eq_decide.mpr (by omega)

theorem testBit_maskOf (a : Acc) (fs : List RegField) (i : Nat) :
    (maskOf [a] fs).testBit i = fs.any (fun f => f.acc == a && decide (f.Covers i)) := by
  induction fs with
  | nil => simp [maskOf]
  | cons f fs ih =>
    rw [maskOf, Nat.testBit_or, ih, List.any_cons]
    congr 1
    by_cases h : f.acc = a <;> simp [h, testBit_fieldMask]

/-! ### One write, field by field (R5, R6) -/

/-- What a bit holds after a write by its access code (R6). -/
def bitWrite (a : Acc) (locked old new : Bool) : Bool := match a with
  | .rw => new
  | .rwl => if locked then old else new
  | .w1c => old && !new
  | .w1s => old || new
  | .ro | .wo => old

/-- A field takes its share of a write of `v` over `old`: the register so far, and whether something was ignored. -/
def fieldWrite (old v : Nat) (locked : Bool) (r : Nat × Bool) (f : RegField) : Nat × Bool :=
  let x := bitsOf v f.hi f.lo
  match f.acc with
  | .rw => (putBits r.1 f.hi f.lo x, r.2)
  | .w1c => (r.1 - (r.1 &&& v &&& fieldMask f), r.2)
  | .w1s => (r.1 ||| (v &&& fieldMask f), r.2)
  | .rwl => if locked then (r.1, r.2 || x != bitsOf old f.hi f.lo) else (putBits r.1 f.hi f.lo x, r.2)
  | .ro | .wo => r

/-- A write of a register is the writes of its fields in turn. -/
theorem writeFields_eq_foldl (fs : List RegField) (old v : Nat) (locked : Bool) :
    writeFields fs old v locked = fs.foldl (fieldWrite old v locked)
      (old, v &&& (2 ^ 32 - 1 - maskOf [.rw, .ro, .w1c, .w1s, .wo, .rwl] fs) != 0) := by
  unfold writeFields
  congr 1
  funext r f
  unfold fieldWrite
  cases f.acc <;> rfl

/-- The bits of a field written with its own bits of a value. -/
theorem testBit_putBits_bitsOf (w v hi lo i : Nat) :
    (putBits w hi lo (bitsOf v hi lo)).testBit i = if lo ≤ i ∧ i ≤ hi then v.testBit i else w.testBit i := by
  rw [testBit_putBits]
  split
  · rename_i h
    rw [testBit_bitsOf, show lo + (i - lo) = i by omega]
    simp [show i - lo < hi + 1 - lo by omega]
  · rfl

/-- A field's write changes its own bits as their code says, and no other. -/
theorem testBit_fieldWrite (old v : Nat) (locked : Bool) (r : Nat × Bool) (f : RegField) (i : Nat) :
    (fieldWrite old v locked r f).1.testBit i =
      if f.Covers i then bitWrite f.acc locked (r.1.testBit i) (v.testBit i) else r.1.testBit i := by
  unfold fieldWrite
  cases f.acc with
  | rw => simp only [testBit_putBits_bitsOf, bitWrite]
  | rwl => cases locked <;> simp [testBit_putBits_bitsOf, bitWrite]
  | w1c =>
    rw [Nat.and_assoc, testBit_sub_and_self, Nat.testBit_and, testBit_fieldMask]
    by_cases h : f.Covers i <;> simp [h, bitWrite]
  | w1s =>
    rw [Nat.testBit_or, Nat.testBit_and, testBit_fieldMask]
    by_cases h : f.Covers i <;> simp [h, bitWrite]
  | ro => simp [bitWrite]
  | wo => simp [bitWrite]

/-- A bit that no field covers stays. -/
theorem testBit_foldl_uncovered (old v : Nat) (locked : Bool) {fs : List RegField} {i : Nat}
    (h : ∀ f ∈ fs, ¬ f.Covers i) (r : Nat × Bool) :
    (fs.foldl (fieldWrite old v locked) r).1.testBit i = r.1.testBit i := by
  induction fs generalizing r with
  | nil => rfl
  | cons f fs ih =>
    rw [List.foldl_cons, ih (fun g hg => h g (List.mem_cons_of_mem f hg)), testBit_fieldWrite,
      if_neg (h f List.mem_cons_self)]

/-- A bit of a field changes by the field's code, whatever the fields apart from it do. -/
theorem testBit_foldl_covered (old v : Nat) (locked : Bool) {fs : List RegField} (hap : fs.Pairwise Apart)
    {f : RegField} (hf : f ∈ fs) {i : Nat} (hc : f.Covers i) (r : Nat × Bool) :
    (fs.foldl (fieldWrite old v locked) r).1.testBit i = bitWrite f.acc locked (r.1.testBit i) (v.testBit i) := by
  induction fs generalizing r with
  | nil => cases hf
  | cons g fs ih =>
    obtain ⟨hg, hfs⟩ := List.pairwise_cons.mp hap
    rw [List.foldl_cons]
    rcases List.mem_cons.mp hf with rfl | hmem
    · rw [testBit_foldl_uncovered old v locked (fun k hk => (hg k hk).not_covers hc), testBit_fieldWrite, if_pos hc]
    · have hgi : ¬ g.Covers i := fun h => (hg f hmem).not_covers h hc
      rw [ih hfs hmem, testBit_fieldWrite, if_neg hgi]

/-- Of fields that lie apart, one alone covers a bit. -/
theorem eq_of_covers {fs : List RegField} (hap : fs.Pairwise Apart) {f g : RegField} (hf : f ∈ fs) (hg : g ∈ fs) {i : Nat}
    (hfi : f.Covers i) (hgi : g.Covers i) : g = f := by
  induction fs with
  | nil => cases hf
  | cons k fs ih =>
    obtain ⟨hk, hfs⟩ := List.pairwise_cons.mp hap
    rcases List.mem_cons.mp hf with rfl | hf' <;> rcases List.mem_cons.mp hg with rfl | hg'
    · rfl
    · exact absurd hgi ((hk g hg').not_covers hfi)
    · exact absurd hfi ((hk f hf').not_covers hgi)
    · exact ih hfs hf' hg'

/-- The code that the masks show for a bit of a field is the field's. -/
theorem testBit_maskOf_covered {fs : List RegField} (hap : fs.Pairwise Apart) {f : RegField} (hf : f ∈ fs) {i : Nat}
    (hc : f.Covers i) (a : Acc) : (maskOf [a] fs).testBit i = (f.acc == a) := by
  rw [testBit_maskOf, Bool.eq_iff_iff]
  simp only [List.any_eq_true, Bool.and_eq_true, beq_iff_eq, decide_eq_true_eq]
  constructor
  · rintro ⟨g, hg, rfl, hgi⟩
    rw [eq_of_covers hap hf hg hc hgi]
  · intro ha
    exact ⟨f, hf, ha, hc⟩

/-- The masks show no code for a bit outside every field. -/
theorem testBit_maskOf_uncovered {fs : List RegField} {i : Nat} (h : ∀ f ∈ fs, ¬ f.Covers i) (a : Acc) :
    (maskOf [a] fs).testBit i = false := by
  rw [testBit_maskOf, List.any_eq_false]
  intro f hf
  simp [h f hf]

/-- The fields written in turn leave what the access codes say, bit by bit (R6). -/
theorem testBit_writeFields {fs : List RegField} (hap : fs.Pairwise Apart) (old v : Reg32) (locked : Bool) (i : Nat) :
    (writeFields fs old.toNat v.toNat locked).1.testBit i = bitAfter fs old v locked i := by
  rw [writeFields_eq_foldl]
  by_cases hcov : ∃ f ∈ fs, f.Covers i
  · obtain ⟨f, hf, hc⟩ := hcov
    rw [testBit_foldl_covered _ _ _ hap hf hc]
    simp only [bitAfter, testBit_maskOf_covered hap hf hc, BitVec.testBit_toNat]
    cases f.acc <;> rfl
  · have hnone : ∀ f ∈ fs, ¬ f.Covers i := fun f hf hc => hcov ⟨f, hf, hc⟩
    rw [testBit_foldl_uncovered _ _ _ hnone]
    simp only [bitAfter, testBit_maskOf_uncovered hnone, BitVec.testBit_toNat, Bool.false_eq_true, if_false]

/-! ### The fields of every register lie apart -/

/-- No two fields of an entry of the register tables share a bit. -/
def fieldsApart : Option (List RegField) → Bool
  | some fs => decide (fs.Pairwise Apart)
  | none => true

theorem fieldsApart_ite {c : Prop} [Decidable c] {a b : Option (List RegField)} (ha : fieldsApart a = true)
    (hb : fieldsApart b = true) : fieldsApart (if c then a else b) = true := by
  split
  · exact ha
  · exact hb

theorem capoLayout_apart (o : Nat) : fieldsApart (capoLayout o) = true := by
  unfold capoLayout
  repeat' apply fieldsApart_ite
  all_goals rfl

theorem hifLayout_apart (o : Nat) : fieldsApart (hifLayout o) = true := by
  unfold hifLayout
  repeat' apply fieldsApart_ite
  all_goals rfl

theorem bowLayout_apart (n o : Nat) : fieldsApart (bowLayout n o) = true := by
  unfold bowLayout
  repeat' apply fieldsApart_ite
  all_goals rfl

theorem nocLayout_apart (o : Nat) : fieldsApart (nocLayout o) = true := by
  unfold nocLayout
  repeat' apply fieldsApart_ite
  all_goals rfl

theorem storeLayout_apart (o : Nat) : fieldsApart (storeLayout o) = true := by
  unfold storeLayout
  repeat' apply fieldsApart_ite
  all_goals rfl

theorem fabLayout_apart (o : Nat) : fieldsApart (fabLayout o) = true := by
  unfold fabLayout
  repeat' apply fieldsApart_ite
  all_goals rfl

theorem tbLayout_apart (o : Nat) : fieldsApart (tbLayout o) = true := by
  unfold tbLayout
  repeat' apply fieldsApart_ite
  all_goals rfl

theorem cfgLayout_apart (o : Nat) : fieldsApart (cfgLayout o) = true := by
  unfold cfgLayout
  repeat' apply fieldsApart_ite
  all_goals rfl

theorem svcLayout_apart (o : Nat) : fieldsApart (svcLayout o) = true := by
  unfold svcLayout
  repeat' apply fieldsApart_ite
  all_goals rfl

theorem peerLayout_apart (o : Nat) : fieldsApart (peerLayout o) = true := by
  unfold peerLayout
  repeat' apply fieldsApart_ite
  all_goals rfl

theorem dbgLayout_apart (o : Nat) : fieldsApart (dbgLayout o) = true := by
  unfold dbgLayout
  repeat' apply fieldsApart_ite
  all_goals rfl

theorem courseLayout_apart (n o : Nat) : fieldsApart (courseLayout n o) = true := by
  unfold courseLayout
  repeat' apply fieldsApart_ite
  all_goals rfl

theorem pciLayout_apart (o : Nat) : fieldsApart (pciLayout o) = true := by
  unfold pciLayout
  split
  all_goals repeat' apply fieldsApart_ite
  all_goals rfl

/-- The register tables of the manual give no bit of a register to two fields (R4). -/
theorem regLayout_apart (o : Nat) : fieldsApart (regLayout o) = true :=
  fieldsApart_ite rfl <| fieldsApart_ite (capoLayout_apart _) <| fieldsApart_ite (hifLayout_apart _) <|
  fieldsApart_ite (bowLayout_apart _ _) <| fieldsApart_ite (nocLayout_apart _) <| fieldsApart_ite (storeLayout_apart _) <|
  fieldsApart_ite (fabLayout_apart _) <| fieldsApart_ite (tbLayout_apart _) <| fieldsApart_ite (cfgLayout_apart _) <|
  fieldsApart_ite (svcLayout_apart _) <| fieldsApart_ite (peerLayout_apart _) <| fieldsApart_ite (dbgLayout_apart _) <|
  fieldsApart_ite (courseLayout_apart _ _) <| fieldsApart_ite (pciLayout_apart _) rfl

/-- The fields of a register lie apart. -/
theorem regLayout_pairwise {o : Nat} {fs : List RegField} (h : regLayout o = some fs) : fs.Pairwise Apart := by
  simpa [h, fieldsApart] using regLayout_apart o

/-! ### What a write of a register leaves as it was -/

/-- Bows, mode and memories are as they were. -/
def RestKept (s t : State) : Prop := t.bows = s.bows ∧ t.mode = s.mode ∧ MemoryKept s t

theorem RestKept.refl (s : State) : RestKept s s := ⟨rfl, rfl, rfl, rfl, rfl⟩

theorem RestKept.trans {s t u : State} (h : RestKept s t) (h' : RestKept t u) : RestKept s u := by
  obtain ⟨hb, hm, hp, hs, hh⟩ := h
  obtain ⟨hb', hm', hp', hs', hh'⟩ := h'
  exact ⟨hb'.trans hb, hm'.trans hm, hp'.trans hp, hs'.trans hs, hh'.trans hh⟩

theorem restKept_setReg (s : State) (o : Nat) (v : Reg32) : RestKept s (setReg s o v) := ⟨rfl, rfl, rfl, rfl, rfl⟩

theorem restKept_logEvent (s : State) (a b : BitVec 16) (st : Status) (d : BitVec 24) :
    RestKept s (logEvent s a b st d) := by
  simp [RestKept, MemoryKept]

/-- The registers are read off `regs` alone. -/
theorem reg_of_regs {s t : State} (h : t.regs = s.regs) (o : Nat) : reg t o = reg s o := by
  simp only [reg, h]

/-- Recording an ignored write changes the Logbook alone (R5). -/
theorem regWarn_kept (s : State) (o : Nat) : (regWarn s o).regs = s.regs ∧ RestKept s (regWarn s o) :=
  ⟨logEvent_regs .., restKept_logEvent ..⟩

/-- A write's record changes the Logbook alone (R5). -/
theorem warned_kept (o : Nat) (r : State × Bool) : (warned o r).regs = r.1.regs ∧ RestKept r.1 (warned o r) := by
  unfold warned
  split
  · exact regWarn_kept r.1 o
  · exact ⟨rfl, RestKept.refl _⟩

/-- Sending the messages whose vectors have opened changes no register, bow, mode or memory (R361). -/
theorem flushMsix_kept (s : State) : (flushMsix s).regs = s.regs ∧ RestKept s (flushMsix s) := by
  unfold flushMsix
  refine List.foldlRecOn (motive := fun t => t.regs = s.regs ∧ RestKept s t) _ _ ⟨rfl, RestKept.refl s⟩ ?_
  intro t ht v _
  split
  · obtain ⟨hregs, hrest⟩ := ht
    exact ⟨by simp [hregs], hrest.trans (by simp [RestKept, MemoryKept])⟩
  · exact ht

/-! ### Writes that the access codes alone decide (R6) -/

theorem wf_regs {s : State} (h : Memory.wf s = true) : cwf regReset s.regs = true := by
  simp only [Memory.wf, Bool.and_eq_true] at h
  obtain ⟨⟨⟨⟨⟨hregs, _⟩, _⟩, _⟩, _⟩, _⟩ := h
  exact hregs

/-- A plain write of a register writes its fields, and no other register. -/
theorem plainWrite_eq {s : State} {o : Nat} {fs : List RegField} (h : regLayout o = some fs) (v : Reg32) :
    (plainWrite s o v).1 =
      setReg s o (BitVec.ofNat 32 (writeFields fs (reg s o).toNat v.toNat (setupLocked s)).1) := by
  simp only [plainWrite, h]

/-- Each bit of a register written plainly changes as its access code says (R6). -/
theorem getLsbD_plainWrite {s : State} (hwf : Memory.wf s = true) {o : Nat} {fs : List RegField}
    (h : regLayout o = some fs) (v : Reg32) {i : Nat} (hi : i < 32) :
    (reg (plainWrite s o v).1 o).getLsbD i = bitAfter fs (reg s o) v ((reg s 0x1000).getLsbD 31) i := by
  rw [plainWrite_eq h, reg_setReg_same s (wf_regs hwf), BitVec.getLsbD_ofNat, decide_eq_true hi, Bool.true_and,
    testBit_writeFields (regLayout_pairwise h)]
  rfl

theorem plainWrite_frame (s : State) (o : Nat) (v : Reg32) :
    (∀ q, q ≠ o → reg (plainWrite s o v).1 q = reg s q) ∧ RestKept s (plainWrite s o v).1 := by
  cases h : regLayout o with
  | none =>
    simp only [plainWrite, h]
    exact ⟨fun _ _ => trivial, RestKept.refl s⟩
  | some fs =>
    rw [plainWrite_eq h]
    exact ⟨fun q hq => reg_setReg_ne s _ hq, restKept_setReg ..⟩

/-- The registers of the network, the fabric, configuration and service have no behaviour of their own. -/
theorem writeReg_plain {o : Nat} {fs : List RegField} (h : PlainRegister o fs) (s : State) (v : Reg32) :
    writeReg s o v = plainWrite s o v := by
  obtain ⟨hlayout, hrange⟩ := h
  simp only [writeReg, hlayout]
  repeat rw [if_neg (by omega)]

theorem bar0Write_plain {o : Nat} {fs : List RegField} (h : PlainRegister o fs) (s : State) (v : Reg32) :
    bar0Write s o v true = warned o (plainWrite s o v) := by
  have hrange := h.2
  simp only [bar0Write, writeReg_plain h]
  rw [if_neg (by simp only [Bool.not_true, Bool.false_eq_true, false_or]; omega), if_neg (by omega)]

/-- A write where no register lies is recorded. -/
theorem bar0Write_none {o : Nat} (h : regLayout o = none) (s : State) (v : Reg32) (full : Bool) :
    (bar0Write s o v full).regs = s.regs ∧ RestKept s (bar0Write s o v full) := by
  have hw : warned o (writeReg s o v) = regWarn s o := by simp [warned, writeReg, h]
  obtain ⟨hregs, hrest⟩ := regWarn_kept s o
  simp only [bar0Write, hw]
  split
  · exact ⟨hregs, hrest⟩
  · split
    · obtain ⟨hregs', hrest'⟩ := flushMsix_kept (regWarn s o)
      exact ⟨hregs'.trans hregs, hrest.trans hrest'⟩
    · exact ⟨hregs, hrest⟩

/-! ### Poisoned writes and configuration space (R336, R337, R365) -/

theorem restKept_aerNote (s : State) (bit : Nat) : RestKept s (aerNote s bit) := ⟨rfl, rfl, rfl, rfl, rfl⟩

theorem reg_aerNote_ne (s : State) (bit : Nat) {q : Nat} (h1 : q ≠ pciReg 0x104) (h2 : q ≠ pciReg 0x78) :
    reg (aerNote s bit) q = reg s q := by
  unfold aerNote setRegBits
  rw [reg_setReg_ne _ _ h2, reg_setReg_ne _ _ h1]

/-- The error's bit stands in the status register of AER. -/
theorem getLsbD_aerNote {s : State} (hwf : Memory.wf s = true) {bit : Nat} (hbit : bit < 32) :
    (reg (aerNote s bit) (pciReg 0x104)).getLsbD bit = true := by
  unfold aerNote setRegBits
  rw [reg_setReg_ne _ _ (by decide), reg_setReg_same s (wf_regs hwf), BitVec.getLsbD_ofNat, testBit_putBits]
  simp [hbit]

/-- A configuration write of the command register goes to the register, and held messages may leave. -/
theorem configWrite_command {s : State} (h : hostLinkUp s = true) (v : Reg32) :
    configWrite s 4 v = flushMsix (plainWrite s (pciReg 4) v).1 := by
  simp [configWrite, h]

/-- Bus Master Enable can be written. -/
theorem bitAfter_busMaster (old v : Reg32) (locked : Bool) {fs : List RegField} (h : regLayout (pciReg 4) = some fs) :
    bitAfter fs old v locked 2 = v.getLsbD 2 := by
  have hfs : regLayout (pciReg 4) = pciLayout 4 := rfl
  rw [hfs] at h
  cases h
  rfl

/-- REGISTER_WRITE completes with what the host's write leaves. -/
theorem does_registerWrite {p : HostPlace} {v : Reg32} {full : Bool} {s t : State} {P : State → Prop}
    (h : hostRegWrite p v full s = t) (ht : P t) : Does (.registerWrite p v full) s P :=
  ⟨t, congrArg Host.Outcome.next h, ht⟩

/-- Settles O37: a plain write goes field by field, and fields lie apart; every other case changes the Logbook, AER or
nothing. -/
theorem registerWrites : Obligations.RegisterWrites := by
  intro s offset v hwf o
  refine ⟨?_, ?_, ?_, rfl, ?_, ?_, ?_, ?_⟩
  · intro fs hplain
    refine does_registerWrite (bar0Write_plain hplain s v) ?_
    obtain ⟨hlayout, _⟩ := hplain
    obtain ⟨hregs, hrest⟩ := warned_kept o (plainWrite s o v)
    obtain ⟨hothers, hrest'⟩ := plainWrite_frame s o v
    exact ⟨fun i hi => by rw [reg_of_regs hregs, getLsbD_plainWrite hwf hlayout v hi],
      fun q hq => by rw [reg_of_regs hregs, hothers q hq], hrest'.trans hrest⟩
  · intro hnone
    obtain ⟨hregs, hbows, _, hmem⟩ := bar0Write_none hnone s v true
    exact does_registerWrite rfl ⟨hregs, hbows, hmem⟩
  · exact does_registerWrite rfl (regWarn_kept s o)
  · intro hpage
    have hw : bar2Write s (o % 0x1000) v true = regWarn s (o % 0x1000) := if_pos (.inr hpage)
    exact does_registerWrite hw (regWarn_kept s _)
  · intro space full hspace
    have hw : hostRegWrite { offset, space, poisoned := true } v full s = poisonedWrite s := by
      cases space with
      | bar0 => rfl
      | bar2 => rfl
      | config => exact absurd rfl hspace
    refine does_registerWrite hw ?_
    simp only [poisonedWrite, reg_logEvent]
    exact ⟨fun q h1 h2 => reg_aerNote_ne s 12 h1 h2, getLsbD_aerNote hwf (by decide),
      (restKept_aerNote s 12).trans (restKept_logEvent ..)⟩
  · intro hup
    refine does_registerWrite (configWrite_command hup v) ?_
    obtain ⟨hregs, hrest⟩ := flushMsix_kept (plainWrite s (pciReg 4) v).1
    obtain ⟨_, hrest'⟩ := plainWrite_frame s (pciReg 4) v
    have hlayout : regLayout (pciReg 4) = pciLayout 4 := rfl
    exact ⟨by rw [reg_of_regs hregs, getLsbD_plainWrite hwf hlayout v (by decide), bitAfter_busMaster _ _ _ hlayout],
      hrest'.trans hrest⟩
  · intro hdown
    have hw : configWrite s (o % 0x1000) v = s := by simp [configWrite, hdown]
    exact congrArg Host.Outcome.next hw

end Sys2Proof.Machine
end
